-- ==== Sys2Proof/Word.lean ====
section
/-! DEFINITION. The words the manual counts in, and the shape of a sparse table.
All registers are 32 bits wide (R10); multi-byte fields are little-endian (R9). -/

namespace Sys2Proof

/-- One byte of a memory, an image, a mailbox or a stream. -/
abbrev Byte := BitVec 8

/-- One register (R10). -/
abbrev Word := BitVec 32

/-- A pair of consecutive registers, or any 64-bit field. -/
abbrev DWord := BitVec 64

/-- A table from unit numbers (or addresses) to values, holding only the entries that differ from what an
unlisted key reads as, in rising key order. -/
abbrev Tab (α : Type) := List (Nat × α)

/-- Bytes by address. An unlisted address reads 0 (log entry 5). -/
abbrev Mem := Tab Byte

end Sys2Proof
end

