-- ==== Sys2Proof/Machine/SessParts.lean ====
section
/-! DEFINITION. The record that Icura keeps of a session: its allocations, images, queue, running step and completion ring
(11, 02, 08). The parts of a pair copy it to one another (12), so that it stands before the commands. -/

namespace Sys2Proof.Machine

/-- One allocation of a session (R302): its address and rounded size, and whether it is the completion ring (R301). -/
structure Alloc where
  addr : Nat
  size : Nat
  ring : Bool := false
  deriving DecidableEq, Repr

/-- A loaded schedule image (02): its bytes, where each placed tensor lies (R200), where each bound one lies, plus 1
(R303; 0 for none), its fold as last computed (R44), the region of each ring that names a fabric port at `LOAD_SCHEDULE`
(R159), and where the session's copy of its descriptor section lies (R147). -/
structure Image where
  bytes : List Byte := []
  place : Tab Nat := []
  bound : Tab Nat := []
  fold : Nat := 0
  homes : List (Nat × Nat) := []
  descAt : Nat := 0
  deriving DecidableEq, Repr

/-- What a replay delivers (R215, R308) and its own tensor copies, each address plus 1 (R216). -/
structure ReplayReq where
  mb : Nat
  target : Nat
  unit : Nat
  tick : Nat
  offset : Nat
  length : Nat
  dest : Nat
  devDest : Bool
  copies : Tab Nat := []
  deriving DecidableEq, Repr

/-- A queued step or replay (R304, R308). -/
structure QItem where
  image : Nat
  counter : Nat
  cookie : Nat
  replay : Option ReplayReq
  deriving DecidableEq, Repr

/-- The running step or replay of a session (R305): the tensors bound when it started (R303), the image tick and sub-tick
it has reached, the binding of the image tick in progress (R44), the digests of R213, the overflow sum of R292, a replay's
bytes of a tile as its sub-tick left them (R215), what stops it at the next boundary (an error's code, or a cancellation,
R306), and how it ends. -/
structure Run where
  item : QItem
  bound : Tab Nat := []
  tick : Nat := 0
  sub : Nat := 0
  live : List Nat := []
  fold : Nat := 1
  sliceFold : Nat := 1
  curDigest : DWord := 0
  digests : List DWord := []
  ovf : Nat := 0
  snap : List Byte := []
  startTick : Nat := 0
  lastTick : Nat := 0
  begun : Bool := false
  stop : Option Nat := none
  cancel : Bool := false
  finish : Option Nat := none
  deriving DecidableEq, Repr

/-- A completion record's 64 bytes without its phase bit (R292). -/
abbrev Record := List Byte

/-- The completion ring of a session (R292, R301). -/
structure CRing where
  addr : Nat := 0
  dev : Bool := false
  entries : Nat := 16
  prod : Nat := 0
  cons : Nat := 0
  reserved : Bool := false
  waiting : List Record := []
  deriving DecidableEq, Repr

/-- One open session (R286 to R307). -/
structure Sess where
  id : Nat
  mbs : List Nat := []
  priv : Bool := false
  seed : Nat := 0
  next : Nat := 0
  lease : Nat := 0
  lpUnused : Bool := false
  regions : DWord := 0
  allocs : List Alloc := []
  images : Tab Image := []
  ring : CRing := {}
  queue : List QItem := []
  running : Option Run := none
  lastDone : Option Nat := none
  notices : Nat := 0
  grant : DWord := 0
  release : DWord := 0
  closing : Bool := false
  opening : Bool := false
  lastCap : Nat := 0
  noticed : DWord := 0
  refusedAt : Option Nat := none
  deriving DecidableEq, Repr

/-- What a part of a pair has of a mailbox claimed by the other (R347): its number, how often it was claimed, its owner tag
and its last accepted sequence number. -/
structure Claim where
  mb : Nat
  claims : Nat
  tag : Nat
  seq : Nat
  deriving DecidableEq, Repr

/-- Icura's record of a session, the claims of its mailboxes and the count of sessions opened, as they cross the Strait link
(R347, R348). -/
structure SessCopy where
  sess : Sess
  claims : List Claim := []
  opens : Nat := 0
  deriving DecidableEq, Repr

end Sys2Proof.Machine
end

