-- ==== Sys2Proof/Syntax.lean ====
section
/-! DEFINITION. The commands the block takes: one constructor of `Instr` per row of the opcode table. The spec gives
the rows no bits, so every operand is plain data: what the sender of the event brings with it. Operands that stand for
the physical surroundings (a self-test's outcome, a temperature, what the board keeps in flash) are named in the
assumption log (entries 9, 12, 13). -/

namespace Sys2Proof

/-- A go write with the mailbox contents Icura copies on accepting it (R273, R274, R280, R281): the mailbox, the go
value, the header fields, the 224 parameter bytes, the payload bytes that an input delivers from host memory or the
inline area, and whether that transfer met an error or poison (R275). -/
structure Go where
  mb : Nat
  go : Word
  flags : BitVec 16 := 0
  session : Word := 0
  tag : DWord := 0
  payLen : Word := 0
  rsv : Word := 0
  payAddr : DWord := 0
  params : List Byte := []
  payload : List Byte := []
  payBad : Bool := false
  deriving DecidableEq, Repr

/-- The bundle an operation command executes (R124): the physical slot and the four raw fields. The field that the
command itself names is taken from the command's own operand in place of the one here. -/
structure Bundle where
  slot : Nat
  ctl : BitVec 20 := 0
  vec : BitVec 20 := 0
  x : BitVec 12 := 0
  y : BitVec 12 := 0
  deriving DecidableEq, Repr

/-- What a part says of itself when a pair is configured, formed or rejoined (R318 to R320, R346): whether it can be
reached, its mode, its `DEVICE_ID` and the one it names, its tick period, N and C of its LPDDR5X, its pair protocol number,
whether it has no open session, the `IMAGE_ID` of each fabric region, and the role it prefers. -/
structure PartnerFit where
  reachable : Bool
  mode : Nat := 0
  id : List Byte := []
  names : List Byte := []
  period : Nat := 0
  lpN : Nat := 0
  lpCap : Nat := 0
  proto : Nat := 0
  noSession : Bool
  fabrics : List Nat := []
  pref : Nat := 0
  deriving DecidableEq, Repr

/-- What `PAIR_CONFIGURE` meets (R318): what the partner says of itself, and whether the flash takes the write. -/
structure PairTrial where
  fit : PartnerFit
  flashOk : Bool
  deriving DecidableEq, Repr

/-- What a Strait lane's training finds (R406) besides its success: the order of the lanes, and what the partner says of itself
once the link has trained (R319). -/
structure LaneTrial where
  reversed : Bool
  fit : Option PartnerFit
  deriving DecidableEq, Repr

/-- Where a host read lies, and how many bytes it takes (R10, R272). -/
structure ReadSpan where
  addr : Nat
  len : Nat
  deriving DecidableEq, Repr

/-- What a unit's self-test found (R373, R374): the first failure code of its own parts, the slots of its clusters that
fail, as (cluster, slot, code), and the clusters whose buffer is beyond repair. -/
structure SelfTest where
  result : Nat := 0
  slots : List (Nat × Nat × Nat) := []
  buffers : List Nat := []
  deriving DecidableEq, Repr

/-- What the controllers read at a tick boundary (R188): controller and temperature. -/
structure BoundarySample where
  memTemps : List (Nat × Nat) := []
  deriving DecidableEq, Repr

/-- A change of one tap asked for in a training frame (R407). -/
inductive TapAsk where
  | hold | inc | dec
  deriving DecidableEq, Repr

/-- A training frame's request (R407). -/
structure EqRequest where
  preset : Option Nat := none
  pre2 : TapAsk := .hold
  pre1 : TapAsk := .hold
  post1 : TapAsk := .hold
  done : Bool := false
  deriving DecidableEq, Repr

/-- A report of an ordered command by the partner (R330). -/
structure OrderReport where
  mb : Nat
  go : Nat
  digest : List Byte
  verdict : Nat
  deriving DecidableEq, Repr

/-- The outcome of an ordered `LOAD_SCHEDULE` or `ALLOC_MEMORY` (R334): status, `SHORTFALL`, handle or address, and the
placement of every tensor. -/
structure OrderOutcome where
  mb : Nat
  go : Nat
  code : Nat
  shortfall : Nat
  value : List Byte
  place : List (Nat × Nat)
  deriving DecidableEq, Repr

/-- A pair message (R322): the tick done, whether that is its rerun (R336), its digest, the live clusters of each region,
the highest input held and each session's ring progress. With it come the reports of R330 and R334, the region digests and
the check of R337, the mirror buffers that are full (R326), the boundaries to a promotion (R345), and what the sender's own sessions hold in checkpoint mode
(R348). While no pair is formed it says what the sender is (R319, R320). -/
structure PairMsg where
  fit : Option PartnerFit := none
  done : Nat := 0
  again : Bool := false
  digest : DWord := 0
  live : List (Nat × Nat) := []
  seqHeld : Nat := 0
  rings : List (Nat × Nat) := []
  reports : List OrderReport := []
  outcomes : List OrderOutcome := []
  regions : List DWord := []
  check : Option Bool := none
  full : Word := 0
  promote : Nat := 0
  held : DWord := 0
  occ : List (Nat × Nat) := []
  deriving DecidableEq, Repr

/-- What one part of a pair sends the other besides messages: the inputs of R323, a dropped word being a mark (R326), a
retirement the count of live clusters that it leaves a region; and the parts of a transfer (R347, R348): a 64 KiB page of
device memory by its number, the readable bank of a cluster buffer, a tile's local memory with its queues, a session. -/
inductive Input where
  | order (mb go : Nat)
  | write (addr : Nat) (data : List Byte)
  | word (lane : Nat) (data : Option (List Byte))
  | stepStart (sess : Nat)
  | loadStart (slot : Nat)
  | retire (region live : Nat)
  | page (n : Nat) (m : Mem)
  | bank (cluster : Nat) (m : Mem)
  | tile (slot : Nat) (m : Mem) (sq tq : List (List Byte))
  | session (x : Machine.SessCopy)
  deriving DecidableEq, Repr

/-- A forwarded input with its pair sequence number and tick tag (R323). -/
structure Forwarded where
  seq : Nat
  tag : Nat
  input : Input
  deriving DecidableEq, Repr

/-- A firmware slot as the board has programmed it (R420, R421): header bytes and the verdict of the checks the model
takes as operands (log entry 9). -/
structure FwProg where
  header : List Byte
  authOk : Bool
  deriving DecidableEq, Repr

/-- What the board has programmed into the configuration flash while power was off (log entry 13). -/
structure BoardFlash where
  fwA : Option FwProg := none
  fwB : Option FwProg := none
  active : Bool := false
  setA : List Byte := []
  setB : List Byte := []
  chain : List Byte := []
  fabOff : Nat := 0
  fabImage : List Byte := []
  deriving DecidableEq, Repr

/-- An answer of the root of trust (R423): counter and signature, and whether it came within 100 ms. -/
structure RbAnswer where
  counter : Nat
  sig : List Byte
  inTime : Bool := true
  deriving DecidableEq, Repr

/-- What the boot ROM meets (R353, R417, R427): the reconstructed seed, if reconstruction succeeds, and the ROM's
digest. -/
structure BootEnv where
  seed : Option (List Byte) := none
  romHash : List Byte := []
  deriving DecidableEq, Repr

/-- What stage 1 finds (R354 to R357, R368, R419): interfaces that fail training, failing pseudo-channels as (stack,
pseudo-channel, address of the first sector that failed), dies, regions, fabric regions, slots and buffers that fail, a
package-level fault, and whether the certificate chain matches the identity. -/
structure Stage1Env where
  lpFail : List Nat := []
  pcFail : List (Nat × Nat × Nat) := []
  dieFail : List Nat := []
  regionFail : List Nat := []
  fabFail : List Nat := []
  slotFail : List (Nat × Nat) := []
  bufFail : List Nat := []
  pkgFault : Bool := false
  certOk : Bool := true
  deriving DecidableEq, Repr

/-- What stage 2 finds (R358): fabric lanes that fail loopback, whether the flash read of the fabric image fails, and the
partner, if it answers. -/
structure Stage2Env where
  laneFail : List Nat := []
  flashBad : Bool := false
  partner : Option PartnerFit := none
  deriving DecidableEq, Repr

/-- A boundary-scan instruction (R450): one that governs no pin, or any other. -/
inductive ScanInstr where
  | bypass | idcode | sample | other
  deriving DecidableEq, Repr

/-- One sample of the monitors (R393 to R395): energy in nJ since the tick's issue, time since it in ns, and the die
sensors read, as (die, degrees C). -/
structure PowerReading where
  energy : Nat
  elapsed : Nat
  dies : List (Nat × Nat) := []
  deriving DecidableEq, Repr

/-- The commands, one constructor per row of the opcode table. -/
inductive Instr where
  /-- DEVICE_INFO: Returns the part's identity, capacity, memory, pair and fabric summary. (R299) -/
  | deviceInfo (g : Go)
  /-- HEALTH: Returns the health record of mailbox 0 in the response. (R299) -/
  | health (g : Go)
  /-- OPEN_SESSION: Creates a session bound to the mailbox, or attaches the mailbox to an open session, granting regions all or none at a tick boundary. (R286) -/
  | openSession (g : Go)
  /-- CLOSE_SESSION: Aborts queued and running steps, unloads images, frees allocations, passes the regions through changeover and releases the mailboxes. (R291) -/
  | closeSession (g : Go)
  /-- SET_SESSION_LIMITS: Grants or releases regions, declares the LPDDR5X tier unused, or changes the lease. (R300) -/
  | setSessionLimits (g : Go)
  /-- ALLOC_MEMORY: Places and zeroes a 64 KiB-rounded allocation at the lowest free range of the chosen tier. (R302) -/
  | allocMemory (g : Go)
  /-- FREE_MEMORY: Frees an allocation of the session unless it is bound or is a replay destination. (R302) -/
  | freeMemory (g : Go)
  /-- LOAD_SCHEDULE: Checks a schedule image in fixed order, then admits, places and zeroes its tensors and returns a handle. (R451) -/
  | loadSchedule (g : Go)
  /-- UNLOAD_SCHEDULE: Unloads an image with no queued or running step and frees its placed tensors. (R303) -/
  | unloadSchedule (g : Go)
  /-- BIND_TENSOR: Binds a TKIND 2 tensor of an image to a range within one allocation of the session. (R303) -/
  | bindTensor (g : Go)
  /-- SUBMIT_STEPS: Queues step entries all or none, each taking an explicit or the next implicit step counter. (R304) -/
  | submitSteps (g : Go)
  /-- CANCEL_STEPS: Removes queued steps and replays by range or all, and stops the running one at the next boundary. (R306) -/
  | cancelSteps (g : Go)
  /-- QUERY_STEPS: Returns the running step, queue, next-step value, fold and notices, clearing the notices returned. (R307) -/
  | querySteps (g : Go)
  /-- REPLAY_INTERMEDIATE: Queues a rerun of image ticks 0 to t of an old step against own tensor copies and delivers the target bytes and digests. (R215) -/
  | replayIntermediate (g : Go)
  /-- LOAD_FABRIC: Accepts a full or blank fabric image after header, ownership, chain and key checks. (R248) -/
  | loadFabric (g : Go) (partner : Option Nat)
  /-- LOAD_FABRIC_REGION: Accepts a partial or blank fabric image for one region or all regions. (R309) -/
  | loadFabricRegion (g : Go) (partner : Option Nat)
  /-- FABRIC_STATUS: Returns the fabric region maps and one region's image, start-up and load status. (R309) -/
  | fabricStatus (g : Go)
  /-- PAIR_CONFIGURE: Records pair mode, role preference, interval and partner in the settings, or leaves pair service with mode 0. (R318) -/
  | pairConfigure (g : Go) (fit : PairTrial)
  /-- PAIR_STATUS: Returns the pair mode, role, lanes, capacities, compare tick, reruns and rejoin progress. (R310) -/
  | pairStatus (g : Go)
  /-- PAIR_PROMOTE: Swaps the roles of a formed shadow pair at the second tick boundary after acceptance. (R345) -/
  | pairPromote (g : Go)
  /-- PAIR_REJOIN: Starts the transfer that brings an alone partner into shadow service as secondary. (R346) -/
  | pairRejoin (g : Go) (fit : PartnerFit)
  /-- FW_STAGE: Checks a signed Icura image and writes it to the flash staging slot. (R421) -/
  | fwStage (g : Go) (signed flashOk : Bool)
  /-- FW_ACTIVATE: Exchanges the firmware slots and restarts the part from stage 1, step 3 on the staged image. (R364) -/
  | fwActivate (g : Go)
  /-- ATTEST_REPORT: Writes the signed 304-byte attestation report with the nonce and measurements. (R429) -/
  | attestReport (g : Go)
  /-- GET_CERTIFICATES: Returns the device certificate chain from the given offset. (R419) -/
  | getCertificates (g : Go)
  /-- SETTINGS_READ: Returns bytes of the settings copy in use or of copy A or B. (R311) -/
  | settingsRead (g : Go)
  /-- SETTINGS_WRITE: Checks a settings block, writes it to the copy not in use with the next sequence number and puts it in use. (R366) -/
  | settingsWrite (g : Go) (flashOk : Bool)
  /-- TELEMETRY_READ: Returns one group of telemetry counters for one unit. (R312) -/
  | telemetryRead (g : Go)
  /-- EVENT_LOG_READ: Returns event log entries from a given sequence number. (R313) -/
  | eventLogRead (g : Go)
  /-- RETIRE_UNIT: Retires or fences a slot, cluster, region, die, pseudo-channel or lane at a tick boundary. (R372) -/
  | retireUnit (g : Go)
  /-- RESTORE_UNIT: Self-tests a retired or fenced unit and returns it to service at the next tick boundary on a pass. (R373) -/
  | restoreUnit (g : Go) (t : SelfTest)
  /-- RUN_SELF_TEST: Runs a unit's self-test when it is not in service and reports the first failure. (R314) -/
  | runSelfTest (g : Go) (t : SelfTest)
  /-- REG_READ: Reads consecutive register words, stopping at a gated block or unmapped address. (R315) -/
  | regRead (g : Go)
  /-- REG_WRITE: Writes consecutive register words, stopping at a gated block, unmapped address or refused tick period. (R315) -/
  | regWrite (g : Go)
  /-- COMMAND_COMPLETION: Writes the response and status word of a command that waited, sets event pending bit 0 and raises the vector. (R282) -/
  | commandCompletion (mb : Nat)
  /-- CLAIM_READ: A read of a mailbox claim word claims an unclaimed mailbox and returns its owner tag, or returns taken. (R276) -/
  | claimRead (mb : Nat)
  /-- CLAIM_RELEASE: Writing the owner tag to the claim word releases a claimed mailbox bound to no session. (R277) -/
  | claimRelease (mb : Nat) (tag : Word)
  /-- CLAIM_LAPSE: A claim with no accepted OPEN_SESSION lapses 1 s after it was made. (R277) -/
  | claimLapse (mb : Nat)
  /-- RING_CONSUMER_WRITE: A host write of the ring consumer index is accepted if it lies from the present index to the producer index, else ignored with RING_BAD. (R294) -/
  | ringConsumerWrite (mb : Nat) (v : Word)
  /-- LEASE_EXPIRY: A session idle for its lease is closed as by CLOSE_SESSION and logged. (R289) -/
  | leaseExpiry (sess : Nat)
  /-- HEALTH_RECORD_REWRITE: Icura rewrites the mailbox 0 health record once per tick, or once per millisecond in the Lamb stage, clock hold or parking. (R296) -/
  | healthRecordRewrite
  /-- TICK_DUE: The tick period expires; the next tick is issued if every Rooster is done, otherwise it is held and the tick overruns. (R30) -/
  | tickDue
  /-- REGION_DONE: A Rooster reports done for the tick once its passes, tasks and rings have completed, closing its region digest. (R29) -/
  | regionDone (r : Nat) (busy : List (Nat × Nat))
  /-- TICK_BOUNDARY: Removes failed units, applies grants and releases, recomputes capacity and folds, applies operating-point steps and issues the next tick. (R48) -/
  | tickBoundary (late : Nat) (b : BoundarySample)
  /-- IDENTITY_COPY_COMPLETE: The 1,536-cycle local-memory copy to the mule completes and the held tick is issued. (R53) -/
  | identityCopyComplete (late : Nat)
  /-- CHANGEOVER_END: The count of changeover ticks runs out and the region enters its new owner's service. (R47) -/
  | changeoverEnd (r : Nat)
  /-- TICK_WARNING: The tick-warning event is raised in every context with a task WARN_LEAD x 16 cycles before the tick is due. (R55) -/
  | tickWarning (r : Nat)
  /-- HEARTBEAT_TOGGLE: PAIR_HB_OUT toggles once per tick period at the nominal cadence, even while a tick is held. (R50) -/
  | heartbeatToggle
  /-- HANG: A region not done 2 x P after its tick issued has its last busy slot treated as failed, unless all work waits on streams. (R58) -/
  | hang (r slot : Nat)
  /-- STEP_START: A session's next queued step or replay starts at a tick boundary when its ring entry is reserved, or is refused there. (R305) -/
  | stepStart (sess : Nat)
  /-- STEP_COMPLETE: A step ends or stops and its completion record with counter and digest is written to the session's ring. (R292) -/
  | stepComplete (sess : Nat)
  /-- COMPLETION_RECORD_WRITE: A completion record that waited for a free ring entry is written once one is freed. (R293) -/
  | completionRecordWrite (sess : Nat)
  /-- PASS_START: The array starts the lowest-SEQ released pass once its stationary operand and first streaming row are present, else records data-late. (R82) -/
  | passStart (slot : Nat)
  /-- ARRAY_RESUME: The held array resumes on the cycle after the missing streaming row arrives. (R83) -/
  | arrayResume (slot : Nat)
  /-- PASS_COMMIT: A pass commits its accumulators and outputs at the end of its last cycle, counting overflows and returning queue credits. (R84) -/
  | passCommit (slot : Nat)
  /-- THERMAL_TRIP: A die sensor at 115 C stops tile clocks, holds fabric trees, idles fabric transmitters and holds the tick. (R395) -/
  | thermalTrip (die temp : Nat)
  /-- THERMAL_TRIP_RELEASE: After every sensor reads below 95 C for 1 ms the trip releases, regions restart at OP0 and discarded passes rerun. (R395) -/
  | thermalTripRelease
  /-- TILE_UNCORRECTABLE_ERROR: An uncorrectable tile error moves the identity to a free mule within the tick, or retires the cluster and aborts the step. (R58) -/
  | tileUncorrectableError (slot : Nat)
  /-- CLUSTER_BUFFER_UNCORRECTABLE: An uncorrectable cluster-buffer error retires the cluster at the next boundary and aborts the step holding it. (R369) -/
  | clusterBufferUncorrectable (c : Nat)
  /-- CONTROLLER_FREEZE: An uncorrectable data or command error freezes the memory controller, refusing every later request until reset. (R195) -/
  | controllerFreeze (ctl addr : Nat) (cmd : Bool) (reader : Option (Nat × Nat))
  /-- WATCHDOG_EXPIRY: A control core's watchdog expires and the core is treated as a failed unit, taking the package out of pair service. (R23) -/
  | watchdogExpiry (core : Nat)
  /-- REFERENCE_LOSS: Loss of a reference stops tile clocks, isolates fabric, idles lanes and stops the tick, entering clock hold. (R387) -/
  | referenceLoss (xtal ref : Bool)
  /-- CLOCK_HOLD_EXIT: With both references qualified again the part relocks, restarts fabric start-up orders, reruns the held tick and returns. (R388) -/
  | clockHoldExit
  /-- REFERENCE_QUALIFICATION: A 65,536-cycle window compares the two references, qualifying both on a pass or declaring loss on a failure. (R379) -/
  | referenceQualification (ok : Bool) (ppm : Int) (late : Bool)
  /-- CONTEXT_SWITCH: The sequencer switches to the next ready context in cyclic order over 8 cycles. (R116) -/
  | contextSwitch (slot : Nat)
  /-- EVENT_TAKEN: An enabled pending event is taken at a safe point, saving ER and continuing at EVB + 4e. (R141) -/
  | eventTaken (slot : Nat)
  /-- NOP: Control field that does nothing. (R137) -/
  | nop (b : Bundle) (f : BitVec 15)
  /-- JMP: Branches to an immediate target after one delay slot. (R137) -/
  | jmp (b : Bundle) (f : BitVec 15)
  /-- CALL: Sets A7 to the return address and branches after one delay slot. (R137) -/
  | call (b : Bundle) (f : BitVec 15)
  /-- JMPR: Branches to the address held in An after one delay slot. (R137) -/
  | jmpr (b : Bundle) (f : BitVec 15)
  /-- BR: Branches by a signed offset if its condition on An holds, after one delay slot. (R137) -/
  | branch (b : Bundle) (f : BitVec 15)
  /-- REP: Repeats the next bundle a given number of times. (R139) -/
  | repeatN (b : Bundle) (f : BitVec 15)
  /-- REPA: Repeats the next bundle An[15:0] times, skipping it when zero. (R139) -/
  | repeatA (b : Bundle) (f : BitVec 15)
  /-- DO: Pushes a loop of 1 to 64 iterations over the following body. (R140) -/
  | doLoop (b : Bundle) (f : BitVec 15)
  /-- DOA: Pushes a loop of An[15:0] iterations, skipping the body when zero. (R140) -/
  | doLoopA (b : Bundle) (f : BitVec 15)
  /-- EXIT: Leaves the innermost loop, branching past its last bundle after one delay slot. (R137) -/
  | exitLoop (b : Bundle) (f : BitVec 15)
  /-- PASS: Releases the context's next pass in SEQ order. (R118) -/
  | passOp (b : Bundle) (f : BitVec 15)
  /-- WAITP: Waits until every pass the context has released has committed. (R137) -/
  | waitp (b : Bundle) (f : BitVec 15)
  /-- YIELD: Gives up the sequencer at the next safe point. (R116) -/
  | yield (b : Bundle) (f : BitVec 15)
  /-- END: Ends the task and releases every pass of the context not yet released. (R118) -/
  | endTask (b : Bundle) (f : BitVec 15)
  /-- RTE: Returns from an event handler to ER after its delay slot and clears ES.INH. (R141) -/
  | rte (b : Bundle) (f : BitVec 15)
  /-- SETAL: Sets An to a 12-bit immediate and resets its circular base and walk counter. (R127) -/
  | setal (b : Bundle) (f : BitVec 15)
  /-- SETAH: Sets An[19:12] to an immediate and resets its companions. (R127) -/
  | setah (b : Bundle) (f : BitVec 15)
  /-- INCA: Adds a signed immediate to An and resets its companions. (R127) -/
  | inca (b : Bundle) (f : BitVec 15)
  /-- MOVR: Copies one control register to another. (R123) -/
  | movr (b : Bundle) (f : BitVec 15)
  /-- LDCR: Loads a control register from a word of X memory, optionally advancing An. (R137) -/
  | ldcr (b : Bundle) (f : BitVec 15)
  /-- STCR: Stores a control register to a word of X memory, optionally advancing An. (R137) -/
  | stcr (b : Bundle) (f : BitVec 15)
  /-- BXCLR: Sets BEXP to 15. (R131) -/
  | bxclr (b : Bundle) (f : BitVec 15)
  /-- SETSAT: Sets the saturation mode CSTAT.SAT. (R130) -/
  | setsat (b : Bundle) (f : BitVec 15)
  /-- VEXPA: Adds a signed immediate to VEXP. (R132) -/
  | vexpa (b : Bundle) (f : BitVec 15)
  /-- VNOP: Vector field that does nothing. (R128) -/
  | vnop (b : Bundle) (f : BitVec 14)
  /-- PRD: Sets the accumulator to the exact lane product. (R128) -/
  | prd (b : Bundle) (f : BitVec 14)
  /-- PRA: Adds the lane product to the accumulator. (R128) -/
  | pra (b : Bundle) (f : BitVec 14)
  /-- PRS: Subtracts the lane product from the accumulator. (R128) -/
  | prs (b : Bundle) (f : BitVec 14)
  /-- ACLD: Loads the accumulator with a data register shifted left 15. (R128) -/
  | acld (b : Bundle) (f : BitVec 14)
  /-- ACAD: Adds a data register shifted left 15 to the accumulator. (R128) -/
  | acad (b : Bundle) (f : BitVec 14)
  /-- ACSB: Subtracts a data register shifted left 15 from the accumulator. (R128) -/
  | acsb (b : Bundle) (f : BitVec 14)
  /-- ACSH: Shifts the accumulator by a signed immediate. (R128) -/
  | acsh (b : Bundle) (f : BitVec 14)
  /-- ACRD: Rounds the shifted accumulator to a 16-bit data register under the saturation mode. (R130) -/
  | acrd (b : Bundle) (f : BitVec 14)
  /-- EXP: Writes the accumulator's redundant sign bits to a data register. (R129) -/
  | expo (b : Bundle) (f : BitVec 14)
  /-- NORM: Shifts the accumulator by D[S1] - 9. (R129) -/
  | norm (b : Bundle) (f : BitVec 14)
  /-- VADD: Adds two data registers with rounding and fitting to 16 bits. (R130) -/
  | vadd (b : Bundle) (f : BitVec 14)
  /-- VSUB: Subtracts two data registers with fitting to 16 bits. (R130) -/
  | vsub (b : Bundle) (f : BitVec 14)
  /-- VNEG: Negates a data register with fitting to 16 bits. (R130) -/
  | vneg (b : Bundle) (f : BitVec 14)
  /-- VASR: Shifts a data register right with round-to-nearest-even. (R130) -/
  | vasr (b : Bundle) (f : BitVec 14)
  /-- VMOV: Copies one data register to another. (R128) -/
  | vmov (b : Bundle) (f : BitVec 14)
  /-- CRD: Pops the context's oldest column-result row into W. (R121) -/
  | crd (b : Bundle) (f : BitVec 14)
  /-- BFC: Converts the WA48 lanes of W to one block-floating vector and sets VEXP. (R133) -/
  | bfc (b : Bundle) (f : BitVec 14)
  /-- FLT: Sets each lane of W to D[S1] x 2^VEXP in WA48. (R134) -/
  | flt (b : Bundle) (f : BitVec 14)
  /-- CST: Converts W to an output format under a rounding mode and stores one row to the operand store. (R135) -/
  | cst (b : Bundle) (f : BitVec 14)
  /-- LOAD_X: X move loading a data register from X memory at the effective address. (R125) -/
  | loadX (b : Bundle) (f : BitVec 10)
  /-- STORE_X: X move storing a data register to X memory. (R125) -/
  | storeX (b : Bundle) (f : BitVec 10)
  /-- LOAD_OPERAND_STORE: X move loading a data register from the operand store. (R125) -/
  | loadOperandStore (b : Bundle) (f : BitVec 10)
  /-- LOAD_Y: Y move loading a data register from Y memory. (R125) -/
  | loadY (b : Bundle) (f : BitVec 10)
  /-- STORE_Y: Y move storing a data register to Y memory. (R125) -/
  | storeY (b : Bundle) (f : BitVec 10)
  /-- STORE_OPERAND_STORE: Y move storing a data register to the operand store. (R125) -/
  | storeOperandStore (b : Bundle) (f : BitVec 10)
  /-- SHEEPDOG_GRANT: Each mesh cycle the Sheepdog grants up to two bursts per direction to eligible streams by smallest time-to-empty. (R167) -/
  | sheepdogGrant (r cyclesLeft : Nat)
  /-- BURST_DELIVERY: A staged burst is delivered once its destination has credit, checking indices and freeing its staging. (R160) -/
  | burstDelivery (r s : Nat)
  /-- RING_COMPLETE: A ring completes when its last byte is delivered and writes accepted, and any shadow ring becomes present. (R146) -/
  | ringComplete (r s : Nat)
  /-- STALL_WATCHDOG: A stream's fabric wait reaching 2 x P sets STALL and aborts the most recently armed waiting stream. (R171) -/
  | stallWatchdog (r : Nat) (reached : List Nat)
  /-- REFRESH: Each stack or interface performs an all-bank refresh every 3.9 us, stalling its accesses. (R187) -/
  | refresh (unit : Nat)
  /-- SELF_REFRESH_EXIT_COMPLETE: The 40 us self-refresh exit completes and held accesses proceed. (R197) -/
  | selfRefreshExitComplete (lp : Bool)
  /-- SELF_REFRESH_REENTRY: While parked, a tier with no access for 1 ms enters self-refresh again. (R198) -/
  | selfRefreshReentry (lp : Bool)
  /-- HOST_MEM_READ: A host CXL.mem read is translated by the HDM decoders and served, or returns poison. (R190) -/
  | hostMemRead (hpa len : Nat)
  /-- HOST_MEM_WRITE: A host CXL.mem write is accepted and visible from the next tick, or dropped. (R190) -/
  | hostMemWrite (hpa : Nat) (data : List Byte)
  /-- PSEUDO_CHANNEL_RETIREMENT: A pseudo-channel reaching its corrected-error threshold starts retirement to spare space, or freezes its stack if four are retired. (R194) -/
  | pseudoChannelRetirement (stack pc addr : Nat)
  /-- RETIRE_PAGE_COPY: A 64 KiB page copy of a retiring pseudo-channel completes and the page is remapped. (R194) -/
  | retirePageCopy (stack pc : Nat)
  /-- SEGMENT_VERIFY: A segment is decrypted and its GCM tag verified, failing the load on a bad tag. (R260) -/
  | segmentVerify (slot : Nat)
  /-- RECORD_DISPATCH: A record is dispatched into its isle's chain when the chain has room, checked by CRC and resent once. (R249) -/
  | recordDispatch (slot : Nat) (intact : Bool)
  /-- STARTUP_ACTION: A start-up order action runs after its delay: wait for lock, release outputs, release set/reset or enable writes. (R264) -/
  | startupAction (r : Nat)
  /-- STARTUP_TIMEOUT: A region whose start-up order has not completed in 2 ms is isolated and held. (R265) -/
  | startupTimeout (r : Nat)
  /-- CLEAR_COMPLETE: A region's clearing finishes within 50 us and the pending load command completes. (R267) -/
  | clearComplete (r : Nat)
  /-- TREE_LOAD: A sampled TREE_LOAD applies a new source and divider to a regional tree glitch-free. (R228) -/
  | treeLoad (r t : Nat) (sel div : BitVec 4)
  /-- DLY_LOAD: A sampled DLY_LOAD sets a new delay-line target toward which the line steps one tap per cycle. (R234) -/
  | dlyLoad (r pin : Nat) (tap : BitVec 9)
  /-- RX_CRED: An RX_CRED pulse returns one credit to the engine, or is ignored as excess. (R236) -/
  | rxCred (r p : Nat)
  /-- TX_VALID: A TX beat presented by the design enters the buffer, or is dropped without credit. (R237) -/
  | txValid (r p : Nat) (beat : List Byte)
  /-- CP_REQ: A control port read request returns a permitted register value or an error response. (R241) -/
  | cpReq (r c : Nat) (fab : Bool) (addr : BitVec 12)
  /-- PLL_LOCK_LOSS: A fabric PLL losing lock stops its outputs and its trees switch away. (R225) -/
  | pllLockLoss (r k : Nat)
  /-- MUX_FORCED_SWITCH: A mux whose old clock gives no falling edge in 64 new cycles switches anyway, sets CLK_STUCK and resets the domain. (R385) -/
  | muxForcedSwitch (domain unit : Nat)
  /-- TX_COEF_LOAD: A run-time tap set for a fabric transmitter takes effect within 4 word cycles or is ignored. (R410) -/
  | txCoefLoad (lane : Nat) (pre : BitVec 4) (post : BitVec 5)
  /-- RX_SLIP: A slip pulse moves the deserialiser word boundary one bit later. (R412) -/
  | rxSlip (lane : Nat)
  /-- TX_IDLE: The design enters or leaves transmitter electrical idle, with a 1 us exit burst. (R414) -/
  | txIdle (lane : Nat) (idle : Bool)
  /-- RX_LOCK_LOSS: A fall of RX_LOCK sets LOCK_LOST. (R411) -/
  | rxLockLoss (lane : Nat)
  /-- STRAIT_LANE_TRAINING: A Strait lane trains through detection, CDR lock, equalisation and FEC lock. (R406) -/
  | straitLaneTraining (lane : Nat) (ok : Bool) (found : LaneTrial)
  /-- EQUALISATION_REQUEST: A receiver's preset or tap request is answered with a status per tap. (R407) -/
  | equalisationRequest (lane : Nat) (q : EqRequest)
  /-- STRAIT_FRAME: A 256-byte Strait frame is received, checked, acknowledged or replayed in sequence. (R405) -/
  | straitFrame (seq : Nat) (kind : BitVec 8) (body : List Byte) (intact : Bool)
  /-- LANE_REMOVAL: A Strait lane losing lock or with too many uncorrectable codewords is removed and frames re-striped. (R408) -/
  | laneRemoval (lane codewords : Nat)
  /-- LINK_TRAINING: The CXL port trains at 2.5 GT/s then raises its rate and selects CXL or PCIe operation. (R398) -/
  | linkTraining (rate width : Nat)
  /-- LINK_DOWN: The CXL link goes down; accepted writes stay, completions wait. (R404) -/
  | linkDown
  /-- PERST: CXL fundamental reset retrains the link and resets configuration space without a restart. (R364) -/
  | perst
  /-- HDM_DECODER_COMMIT: The host commits an HDM decoder, which fails on wrong size, base or ways. (R400) -/
  | hdmDecoderCommit (dec base size ways : Nat)
  /-- IDE_FAILURE: An IDE integrity failure stops the stream until rekeyed. (R403) -/
  | ideFailure (s : Nat)
  /-- GET_VERSION: SPDM version request. (R428) -/
  | getVersion
  /-- GET_CAPABILITIES: SPDM capabilities request. (R428) -/
  | getCapabilities
  /-- NEGOTIATE_ALGORITHMS: SPDM algorithm negotiation. (R428) -/
  | negotiateAlgorithms (supported : Bool)
  /-- GET_DIGESTS: SPDM certificate digest request. (R428) -/
  | getDigests
  /-- GET_CERTIFICATE: SPDM request for the slot 0 certificate chain. (R428) -/
  | getCertificate (slot off len : Nat)
  /-- CHALLENGE: SPDM challenge signed with the identity key. (R428) -/
  | challenge (slot : Nat) (transcript : List Byte)
  /-- GET_MEASUREMENTS: SPDM request returning the five measurements. (R427) -/
  | getMeasurements (index : Nat) (transcript : List Byte)
  /-- KEY_EXCHANGE: Opens a secured SPDM session, at most two at once. (R428) -/
  | keyExchange (transcript : List Byte)
  /-- FINISH: Completes a secured SPDM session handshake. (R428) -/
  | finish (sid : Nat) (ok : Bool)
  /-- KEY_UPDATE: Updates the keys of a secured SPDM session. (R428) -/
  | keyUpdate (sid : Nat)
  /-- END_SESSION: Ends a secured SPDM session. (R428) -/
  | endSession (sid : Nat)
  /-- PAIR_MESSAGE: A partner's pair message delivers done, digest, live clusters, input sequence and ring progress. (R322) -/
  | pairMessage (m : PairMsg)
  /-- FORWARDED_INPUT: The secondary receives and acknowledges a tagged non-reproducible input from the primary. (R323) -/
  | forwardedInput (f : Forwarded)
  /-- ORDER_MATCH_TIMEOUT: An ordered command held by only one part 50 ms after the first report completes with E_PAIR_STATE. (R330) -/
  | orderMatchTimeout (mb go : Nat)
  /-- PARTNER_JUDGEMENT: At each heartbeat window each part judges edges and messages, declaring link or heartbeat faults or partner loss. (R338) -/
  | partnerJudgement (edge message : Bool)
  /-- LEAVE_NOTICE: A partner's leave notice starts takeover at once from step 3. (R339) -/
  | leaveNotice
  /-- REJOIN_PHASE: A rejoin transfer moves from bulk pass to dirty passes, final hold and shadow entry. (R347) -/
  | rejoinPhase (lost : Bool)
  /-- CHECKPOINT: Every INTERVAL_MS each primary session sends its marked pages at its next step boundary. (R349) -/
  | checkpoint (sess : Nat)
  /-- PWR_GOOD_RISE: PWR_GOOD rising starts the Lamb stage on the auxiliary rail and internal oscillator. (R352) -/
  | pwrGoodRise (strap : BitVec 3) (board : Option BoardFlash)
  /-- PWR_GOOD_FALL: PWR_GOOD falling puts every pin group into its pre-power state within 1 us and ignores inputs. (R440) -/
  | pwrGoodFall
  /-- RAIL_UNDERVOLTAGE: A rail below tolerance for 5 us is handled as a fall of PWR_GOOD and recorded. (R441) -/
  | railUndervoltage (rail : BitVec 13)
  /-- BOOT_FIRMWARE: The boot ROM authenticates Icura from the active slot or the other slot, or stays in the Lamb stage. (R353) -/
  | bootFirmware (e : BootEnv)
  /-- STAGE_1: Icura reads settings, brings up isles, trains and tests memory and dies, applies retirements and starts the tick source. (R354) -/
  | stage1 (e : Stage1Env)
  /-- STAGE_2: The LPDDR5X tier is zeroed, lanes train, the flash fabric image loads and the pair forms. (R358) -/
  | stage2 (e : Stage2Env)
  /-- READ_HEALTH: SMBus block read of health record bytes. (R367) -/
  | readHealth
  /-- READ_STATUS: SMBus read of DEV_STATUS. (R367) -/
  | readStatus
  /-- PARK: SMBus command that parks the part: tick stopped, blocks gated, memory in self-refresh, fabric isolated. (R362) -/
  | park (data : Byte) (pec : Bool)
  /-- UNPARK: SMBus command that leaves parking in order and returns to stage 2. (R363) -/
  | unpark (data : Byte) (pec : Bool)
  /-- RESET: SMBus command that restarts the part from the Lamb stage. (R364) -/
  | smbReset (data : Byte) (pec : Bool)
  /-- SETTINGS_STAGE: SMBus block write of 32 bytes into the settings staging buffer. (R367) -/
  | settingsStage (off : BitVec 16) (data : List Byte) (pec : Bool)
  /-- SETTINGS_COMMIT: SMBus command that writes the staging buffer as a settings copy, pair fields included. (R367) -/
  | settingsCommit (data : Byte) (pec flashOk : Bool)
  /-- RB_PUBKEY: The part asks the root of trust for its public key to enrol it. (R423) -/
  | rbPubkey (key : Option (List Byte))
  /-- RB_READ: The part reads the signed rollback counter with a fresh nonce. (R423) -/
  | rbRead (a : Option RbAnswer)
  /-- RB_ADVANCE: The part advances the rollback counter to the running SVN, retrying each second on failure. (R424) -/
  | rbAdvance (a : Option RbAnswer)
  /-- SEAL_WRITE_SLOT: Unwraps a key from the envelope and seals it into a slot with the next generation. (R426) -/
  | sealWriteSlot (flashOk : Bool)
  /-- SEAL_ERASE_SLOT: Erases a sealed key slot with the next generation. (R426) -/
  | sealEraseSlot (flashOk : Bool)
  /-- SEAL_REMOVE_ENROLMENT: Removes the rollback enrolment from the sealed key store. (R426) -/
  | sealRemoveEnrolment (flashOk : Bool)
  /-- BOUNDARY_SCAN_INSTRUCTION: A boundary-scan instruction is loaded, governing pins in the Lamb stage or replaced by BYPASS later. (R450) -/
  | boundaryScanInstruction (k : ScanInstr)
  /-- POWER_SAMPLE: Every 50 ns package energy is compared with the envelope, engaging or releasing the clamp. (R393) -/
  | powerSample (p : PowerReading)
  /-- STEP_READY: The standby PLL relock and rail change finish and an operating-point step becomes ready. (R390) -/
  | stepReady (r : Nat)
  /-- STEP_APPLY: A ready operating-point step is applied when every tile of the region lies between passes. (R391) -/
  | stepApply (r : Nat)
  /-- TICK_CTRL_WRITE: A write of DEV_TICK_CTRL sets the lead and threshold and the period if allowed, or is refused whole. (R28) -/
  | tickCtrlWrite (w : Word)
  /-- FLAG_SELECT_WRITE: A write of DEV_FLAG_SEL selects the flag whose event counter DEV_FLAG_COUNT returns. (R377) -/
  | flagSelectWrite (w : Word)
  /-- CLOCK_GATE_WRITE: A write of a CLK_GATE enable stops or starts a block's clock within 8 cycles and is logged. (R383) -/
  | clockGateWrite (isle : Bool) (n : Nat) (w : Word)
  /-- LATCHING_LOW_WORD_READ: A read of the low word of a 64-bit register pair latches the high word for the next read. (R10) -/
  | latchingLowWordRead (span : ReadSpan)
  /-- REGISTER_WRITE: A write to a register with no row of its own updates RW, W1C and W1S fields by their access type. (R11) -/
  | registerWrite (addr : Nat) (data : List Byte) (hwSet : Word)
  /-- RX_LOCK_ACQUIRED: A fabric receiver's CDR locks and adaptation settles, so RX_LOCK rises to 1 and slips and RX_WVALID take effect. (R411) -/
  | rxLockAcquired (lane : Nat)
  /-- RX_IDLE_CHANGE: A fabric receiver starts or stops detecting electrical idle on its line, changing RX_IDLE. (R411) -/
  | rxIdleChange (lane : Nat) (idle : Bool)
  /-- PLL_LOCK: A fabric PLL achieves lock after configuration or after a loss, setting PLL_LOCK and restarting its outputs. (R225) -/
  | pllLock (r k : Nat)
  /-- GO_WRITE_IGNORED: A go write that does not meet the claim, busy and sequence conditions is ignored and counted in GO_IGNORED and IGNORED. (R280) -/
  | goWriteIgnored (mb : Nat) (v : Word)
  /-- UNDEFINED_OPCODE: An accepted go write whose OPCODE is not in R298 completes with E_BAD_OPCODE. (R285) -/
  | undefinedOpcode (g : Go) (opcode : BitVec 16)
  /-- LINK_RECOVERY: The CXL link enters Recovery after failed flit replays or to leave L1, retraining with stored coefficients and setting RETRAIN when not an L1 exit. (R416) -/
  | linkRecovery (fromL1 : Bool) (replays : Nat)
  /-- L1_ENTRY: The CXL link enters L1 when the host enables it and its lanes go to electrical idle, setting LNK_CXL_STATUS.L1. (R414) -/
  | l1Entry
  /-- D_STATE_CHANGE: The host moves the function between D0 and D3hot, disabling or restoring BAR decoding, bus mastering and mailbox access. (R399) -/
  | dStateChange (d3 : Bool)
  /-- CP_ACK: A control port's outstanding read completes 12 to 40 port cycles after its request, pulsing CP_ACK with data or an error. (R241) -/
  | cpAck (r c : Nat)
  /-- DELAY_LINE_MOVE: The I/O delay line moves one tap per fabric cycle toward its target and lowers DLY_BUSY on reaching it. (R234) -/
  | delayLineMove (r pin : Nat)
  /-- MUX_SWITCH_COMPLETE: A glitch-free mux completes a normal switch at the new clock's rising edge after the old clock's falling edge, ending SWITCHING and applying any queued switch. (R385) -/
  | muxSwitchComplete (domain unit : Nat)
  /-- INGRESS_DRAIN: The real-time port writes buffered Strait ingress data to device memory, lowering the fill and ending panic below 50 %. (R191) -/
  | ingressDrain
  /-- COLUMN_RESULT_DELIVERY: A pass's result row leaves the column adders at its cycle and enters the column-result queue, readable at once by CRD. (R122) -/
  | columnResultDelivery (slot : Nat)
  /-- EVENT_PENDING_CLEAR: A host W1C write to a mailbox event pending word clears its flags, losing to a set in the same cycle. (R375) -/
  | eventPendingClear (mb : Nat) (w hwSet : Word)
  /-- IDE_KM_REQUEST: An IDE_KM message over a secured SPDM session keys or rekeys an IDE stream. (R403) -/
  | ideKmRequest (sid s : Nat)
  /-- DIE_LINK_FAILURE: A die-link error that retries cannot clear fences the die and both its regions. (R368) -/
  | dieLinkFailure (die : Nat)
  /-- REGION_UNIT_FAILURE: A fault in a stream engine, Rooster or reduction unit, or a Rooster timeout, fences the region. (R368) -/
  | regionUnitFailure (r : Nat)
  /-- ISLE_MESH_OR_BRIDGE_FAULT: A fault in an isle mesh or ring bridge takes the package out of pair service. (R25) -/
  | isleMeshOrBridgeFault (isle : Nat)
  /-- TICK_SOURCE_FAULT: A fault in the package tick source affects all 64 regions and takes the package out of pair service. (R25) -/
  | tickSourceFault  deriving DecidableEq, Repr

end Sys2Proof
end

