-- ==== Sys2Proof/WellFormed.lean ====
section
/-! DEFINITION. Well-formed commands: every identifier lies in its range (the table of 00, R7, R271) and every field has
its size. A command that is not well formed never occurs; the machine leaves the state as it was on one (log entry 4). -/

namespace Sys2Proof

/-- A go write names a mailbox and carries 224 parameter bytes (R273). -/
def Go.wf (g : Go) : Bool := decide (g.mb < 256) && decide (g.params.length = 224)

/-- A command whose identifiers lie in their ranges. -/
def Instr.wf : Instr → Bool
  | .deviceInfo g => g.wf
  | .health g => g.wf
  | .openSession g => g.wf
  | .closeSession g => g.wf
  | .setSessionLimits g => g.wf
  | .allocMemory g => g.wf
  | .freeMemory g => g.wf
  | .loadSchedule g => g.wf
  | .unloadSchedule g => g.wf
  | .bindTensor g => g.wf
  | .submitSteps g => g.wf
  | .cancelSteps g => g.wf
  | .querySteps g => g.wf
  | .replayIntermediate g => g.wf
  | .loadFabric g _ => g.wf
  | .loadFabricRegion g _ => g.wf
  | .fabricStatus g => g.wf
  | .pairConfigure g _ => g.wf
  | .pairStatus g => g.wf
  | .pairPromote g => g.wf
  | .pairRejoin g _ => g.wf
  | .fwStage g _ _ => g.wf
  | .fwActivate g => g.wf
  | .attestReport g => g.wf
  | .getCertificates g => g.wf
  | .settingsRead g => g.wf
  | .settingsWrite g _ => g.wf
  | .telemetryRead g => g.wf
  | .eventLogRead g => g.wf
  | .retireUnit g => g.wf
  | .restoreUnit g _ => g.wf
  | .runSelfTest g _ => g.wf
  | .regRead g => g.wf
  | .regWrite g => g.wf
  | .commandCompletion mb => decide (mb < 256)
  | .claimRead mb => decide (mb < 256)
  | .claimRelease mb _ => decide (mb < 256)
  | .claimLapse mb => decide (mb < 256)
  | .ringConsumerWrite mb _ => decide (mb < 256)
  | .leaseExpiry _ => true
  | .healthRecordRewrite => true
  | .tickDue => true
  | .regionDone r _ => decide (r < 64)
  | .tickBoundary _ _ => true
  | .identityCopyComplete _ => true
  | .changeoverEnd r => decide (r < 64)
  | .tickWarning r => decide (r < 64)
  | .heartbeatToggle => true
  | .hang r slot => decide (r < 64) && decide (slot < 2304)
  | .stepStart _ => true
  | .stepComplete _ => true
  | .completionRecordWrite _ => true
  | .passStart slot => decide (slot < 2304)
  | .arrayResume slot => decide (slot < 2304)
  | .passCommit slot => decide (slot < 2304)
  | .thermalTrip die _ => decide (die < 32)
  | .thermalTripRelease => true
  | .tileUncorrectableError slot => decide (slot < 2304)
  | .clusterBufferUncorrectable c => decide (c < 256)
  | .controllerFreeze ctl _ _ _ => decide (ctl < 40)
  | .watchdogExpiry core => decide (core < 8)
  | .referenceLoss _ _ => true
  | .clockHoldExit => true
  | .referenceQualification _ _ _ => true
  | .contextSwitch slot => decide (slot < 2304)
  | .eventTaken slot => decide (slot < 2304)
  | .nop b _ => decide (b.slot < 2304)
  | .jmp b _ => decide (b.slot < 2304)
  | .call b _ => decide (b.slot < 2304)
  | .jmpr b _ => decide (b.slot < 2304)
  | .branch b _ => decide (b.slot < 2304)
  | .repeatN b _ => decide (b.slot < 2304)
  | .repeatA b _ => decide (b.slot < 2304)
  | .doLoop b _ => decide (b.slot < 2304)
  | .doLoopA b _ => decide (b.slot < 2304)
  | .exitLoop b _ => decide (b.slot < 2304)
  | .passOp b _ => decide (b.slot < 2304)
  | .waitp b _ => decide (b.slot < 2304)
  | .yield b _ => decide (b.slot < 2304)
  | .endTask b _ => decide (b.slot < 2304)
  | .rte b _ => decide (b.slot < 2304)
  | .setal b _ => decide (b.slot < 2304)
  | .setah b _ => decide (b.slot < 2304)
  | .inca b _ => decide (b.slot < 2304)
  | .movr b _ => decide (b.slot < 2304)
  | .ldcr b _ => decide (b.slot < 2304)
  | .stcr b _ => decide (b.slot < 2304)
  | .bxclr b _ => decide (b.slot < 2304)
  | .setsat b _ => decide (b.slot < 2304)
  | .vexpa b _ => decide (b.slot < 2304)
  | .vnop b _ => decide (b.slot < 2304)
  | .prd b _ => decide (b.slot < 2304)
  | .pra b _ => decide (b.slot < 2304)
  | .prs b _ => decide (b.slot < 2304)
  | .acld b _ => decide (b.slot < 2304)
  | .acad b _ => decide (b.slot < 2304)
  | .acsb b _ => decide (b.slot < 2304)
  | .acsh b _ => decide (b.slot < 2304)
  | .acrd b _ => decide (b.slot < 2304)
  | .expo b _ => decide (b.slot < 2304)
  | .norm b _ => decide (b.slot < 2304)
  | .vadd b _ => decide (b.slot < 2304)
  | .vsub b _ => decide (b.slot < 2304)
  | .vneg b _ => decide (b.slot < 2304)
  | .vasr b _ => decide (b.slot < 2304)
  | .vmov b _ => decide (b.slot < 2304)
  | .crd b _ => decide (b.slot < 2304)
  | .bfc b _ => decide (b.slot < 2304)
  | .flt b _ => decide (b.slot < 2304)
  | .cst b _ => decide (b.slot < 2304)
  | .loadX b _ => decide (b.slot < 2304)
  | .storeX b _ => decide (b.slot < 2304)
  | .loadOperandStore b _ => decide (b.slot < 2304)
  | .loadY b _ => decide (b.slot < 2304)
  | .storeY b _ => decide (b.slot < 2304)
  | .storeOperandStore b _ => decide (b.slot < 2304)
  | .sheepdogGrant r _ => decide (r < 64)
  | .burstDelivery r s => decide (r < 64) && decide (s < 32)
  | .ringComplete r s => decide (r < 64) && decide (s < 32)
  | .stallWatchdog r _ => decide (r < 64)
  | .refresh unit => decide (unit < 40)
  | .selfRefreshExitComplete _ => true
  | .selfRefreshReentry _ => true
  | .hostMemRead _ _ => true
  | .hostMemWrite _ _ => true
  | .pseudoChannelRetirement stack pc _ => decide (stack < 16) && decide (pc < 32)
  | .retirePageCopy stack pc => decide (stack < 16) && decide (pc < 32)
  | .segmentVerify _ => true
  | .recordDispatch _ _ => true
  | .startupAction r => decide (r < 64)
  | .startupTimeout r => decide (r < 64)
  | .clearComplete r => decide (r < 64)
  | .treeLoad r t _ _ => decide (r < 64) && decide (t < 8)
  | .dlyLoad r pin _ => decide (r < 64) && decide (pin < 3)
  | .rxCred r p => decide (r < 64) && decide (p < 8)
  | .txValid r p beat => decide (r < 64) && decide (p < 8) && decide (beat.length = 64)
  | .cpReq r c _ _ => decide (r < 64) && decide (c < 4)
  | .pllLockLoss r k => decide (r < 64) && decide (k < 2)
  | .muxForcedSwitch _ _ => true
  | .txCoefLoad lane _ _ => decide (lane < 32)
  | .rxSlip lane => decide (lane < 32)
  | .txIdle lane _ => decide (lane < 32)
  | .rxLockLoss lane => decide (lane < 32)
  | .straitLaneTraining lane _ _ => decide (lane < 32)
  | .equalisationRequest lane _ => decide (lane < 32)
  | .straitFrame _ _ body _ => decide (body.length = 248)
  | .laneRemoval lane _ => decide (lane < 32)
  | .linkTraining rate width => decide (rate < 7) && (width == 4 || width == 8 || width == 16)
  | .linkDown => true
  | .perst => true
  | .hdmDecoderCommit dec _ _ _ => decide (dec < 2)
  | .ideFailure s => decide (s < 3)
  | .getVersion => true
  | .getCapabilities => true
  | .negotiateAlgorithms _ => true
  | .getDigests => true
  | .getCertificate slot _ _ => decide (slot < 8)
  | .challenge slot _ => decide (slot < 8)
  | .getMeasurements _ _ => true
  | .keyExchange _ => true
  | .finish _ _ => true
  | .keyUpdate _ => true
  | .endSession _ => true
  | .pairMessage _ => true
  | .forwardedInput _ => true
  | .orderMatchTimeout mb _ => decide (mb < 256)
  | .partnerJudgement _ _ => true
  | .leaveNotice => true
  | .rejoinPhase _ => true
  | .checkpoint _ => true
  | .pwrGoodRise _ _ => true
  | .pwrGoodFall => true
  | .railUndervoltage _ => true
  | .bootFirmware _ => true
  | .stage1 _ => true
  | .stage2 _ => true
  | .readHealth => true
  | .readStatus => true
  | .park _ _ => true
  | .unpark _ _ => true
  | .smbReset _ _ => true
  | .settingsStage _ data _ => decide (data.length = 32)
  | .settingsCommit _ _ _ => true
  | .rbPubkey _ => true
  | .rbRead _ => true
  | .rbAdvance _ => true
  | .sealWriteSlot _ => true
  | .sealEraseSlot _ => true
  | .sealRemoveEnrolment _ => true
  | .boundaryScanInstruction _ => true
  | .powerSample _ => true
  | .stepReady r => decide (r < 64)
  | .stepApply r => decide (r < 64)
  | .tickCtrlWrite _ => true
  | .flagSelectWrite _ => true
  | .clockGateWrite isle n _ => decide (n < if isle then 4 else 64)
  | .latchingLowWordRead _ => true
  | .registerWrite _ _ _ => true
  | .rxLockAcquired lane => decide (lane < 32)
  | .rxIdleChange lane _ => decide (lane < 32)
  | .pllLock r k => decide (r < 64) && decide (k < 2)
  | .goWriteIgnored mb _ => decide (mb < 256)
  | .undefinedOpcode g _ => g.wf
  | .linkRecovery _ _ => true
  | .l1Entry => true
  | .dStateChange _ => true
  | .cpAck r c => decide (r < 64) && decide (c < 4)
  | .delayLineMove r pin => decide (r < 64) && decide (pin < 3)
  | .muxSwitchComplete _ _ => true
  | .ingressDrain => true
  | .columnResultDelivery slot => decide (slot < 2304)
  | .eventPendingClear mb _ _ => decide (mb < 256)
  | .ideKmRequest _ s => decide (s < 3)
  | .dieLinkFailure die => decide (die < 32)
  | .regionUnitFailure r => decide (r < 64)
  | .isleMeshOrBridgeFault isle => decide (isle < 4)
  | .tickSourceFault => true

end Sys2Proof
end

