-- ==== Sys2Proof/Machine/Tab.lean ====
section
/-! DEFINITION. Sparse tables in one canonical form, and memories of bytes over them.
Every memory and every indexed set of units of the part is held in such a table, so that equal contents are
equal data. -/

namespace Sys2Proof.Machine

/-- What the table holds at key `i`; `d` where nothing is listed. -/
def look {α : Type} (d : α) : Tab α → Nat → α
  | [], _ => d
  | (k, v) :: r, i => if i = k then v else look d r i

/-- The table with `v` at key `i`. Writing what an unlisted key reads as removes the entry. -/
def put {α : Type} [DecidableEq α] (d : α) : Tab α → Nat → α → Tab α
  | [], i, v => if v = d then [] else [(i, v)]
  | (k, w) :: r, i, v =>
    if i < k then (if v = d then (k, w) :: r else (i, v) :: (k, w) :: r)
    else if i = k then (if v = d then r else (i, v) :: r)
    else (k, w) :: put d r i v

/-- The table with `f` applied at key `i`. -/
def modify {α : Type} [DecidableEq α] (d : α) (t : Tab α) (i : Nat) (f : α → α) : Tab α :=
  put d t i (f (look d t i))

/-- The table with `f` applied to every listed value. -/
def mapTab {α : Type} [DecidableEq α] (d : α) (f : Nat → α → α) : Tab α → Tab α
  | [] => []
  | (k, v) :: r => if f k v = d then mapTab d f r else (k, f k v) :: mapTab d f r

/-- Canonical form: keys strictly rising, from `lo` up, and no entry equal to the default. -/
def tabWfFrom {α : Type} [DecidableEq α] (d : α) : Nat → Tab α → Bool
  | _, [] => true
  | lo, (k, v) :: r => decide (lo ≤ k) && decide (v ≠ d) && tabWfFrom d (k + 1) r

/-- Canonical form of a whole table. -/
def tabWf {α : Type} [DecidableEq α] (d : α) (t : Tab α) : Bool := tabWfFrom d 0 t

/-- Canonical form of a memory. -/
def memWf (m : Mem) : Bool := tabWf (0 : Byte) m

/-- Canonical form of a memory, under the name the claims use. -/
abbrev Memory.wf (m : Mem) : Bool := memWf m

/-- One byte of a memory. -/
def rdByte (m : Mem) (a : Nat) : Byte := look 0 m a

/-- One byte written. -/
def wrByte (m : Mem) (a : Nat) (b : Byte) : Mem := put 0 m a b

/-- `n` bytes from address `a` up. -/
def rdBytes (m : Mem) (a : Nat) : Nat → List Byte
  | 0 => []
  | n + 1 => rdByte m a :: rdBytes m (a + 1) n

/-- The bytes written from address `a` up. -/
def wrBytes (m : Mem) (a : Nat) : List Byte → Mem
  | [] => m
  | b :: r => wrBytes (wrByte m a b) (a + 1) r

/-- A memory without its entries from `a` to `a + n - 1`, which then read 0. -/
def clearRange (m : Mem) (a n : Nat) : Mem := m.filter (fun c => !(decide (a ≤ c.1) && decide (c.1 < a + n)))

/-- The entries of a memory from `a` to `a + n - 1`. -/
def inRange (m : Mem) (a n : Nat) : Mem := m.filter (fun c => decide (a ≤ c.1) && decide (c.1 < a + n))

/-- Write listed bytes, each moved from offset `a` to offset `b`. -/
def pourFrom (a b : Nat) : Mem → Mem → Mem
  | [], m => m
  | (k, v) :: r, m => pourFrom a b r (wrByte m (b + (k - a)) v)

/-- `dst` with `n` bytes from `b` up replaced by the `n` bytes of `src` from `a` up. -/
def copyRange (src : Mem) (a : Nat) (dst : Mem) (b n : Nat) : Mem :=
  pourFrom a b (inRange src a n) (clearRange dst b n)

/-- The little-endian bytes of a number, lowest address first (R9). -/
def leBytes : Nat → Nat → List Byte
  | 0, _ => []
  | n + 1, v => BitVec.ofNat 8 (v % 256) :: leBytes n (v / 256)

/-- The number that little-endian bytes spell (R9). -/
def ofLe : List Byte → Nat
  | [] => 0
  | b :: r => b.toNat + 256 * ofLe r

/-- The big-endian bytes of a number, as keys and signatures are written (16). -/
def beBytes (n v : Nat) : List Byte := (leBytes n v).reverse

/-- The number that big-endian bytes spell. -/
def ofBe (l : List Byte) : Nat := ofLe l.reverse

/-- `n` bytes of a byte array from offset `o`. -/
def slice (l : List Byte) (o n : Nat) : List Byte := (l.drop o).take n

/-- The little-endian field of `n` bytes at offset `o` of a byte array; bytes beyond its end read 0. -/
def fld (l : List Byte) (o n : Nat) : Nat := ofLe (slice l o n)

/-- The bytes from `o` to `o + n - 1` of a byte array are all 0. -/
def zeros (l : List Byte) (o n : Nat) : Bool := (slice l o n).all (fun b => b == 0)

/-- `n` bytes of value 0. -/
def zeroBytes (n : Nat) : List Byte := List.replicate n 0

/-- A byte array padded with 0 to `n` bytes, or cut there. -/
def fit (n : Nat) (l : List Byte) : List Byte := (l ++ zeroBytes (n - l.length)).take n

/-- A byte array with the bytes from offset `o` replaced. -/
def overlay (l : List Byte) (o : Nat) (p : List Byte) : List Byte :=
  fit o l ++ p ++ l.drop (o + p.length)

/-- Bits [hi:lo] of a number. -/
def bitsOf (v hi lo : Nat) : Nat := (v / 2 ^ lo) % 2 ^ (hi + 1 - lo)

/-- Bit `i` of a number. -/
def bitAt (v i : Nat) : Bool := v.testBit i

/-- 1 for true. -/
def b2n (b : Bool) : Nat := if b then 1 else 0

/-- Rounded up to a multiple of 64 KiB (R199, R302). -/
def up64k (n : Nat) : Nat := (n + 65535) / 65536 * 65536

/-- The quotient rounded up. -/
def ceilDiv (a b : Nat) : Nat := (a + b - 1) / b

/-- The two's-complement value of the low `w` bits. -/
def signed (w v : Nat) : Int :=
  let m := v % 2 ^ w
  if m < 2 ^ (w - 1) then (m : Int) else (m : Int) - (2 : Int) ^ w

/-- An integer modulo 2^w, as a number. -/
def wrapTo (w : Nat) (x : Int) : Nat := (x % ((2 : Int) ^ w)).toNat

/-- The elements of a list at which a test holds, by position from `i` up. -/
def posWhere {α : Type} (p : α → Bool) : Nat → List α → List Nat
  | _, [] => []
  | i, a :: r => if p a then i :: posWhere p (i + 1) r else posWhere p (i + 1) r

/-- A list with `f` applied at position `i`. -/
def setAt {α : Type} (l : List α) (i : Nat) (f : α → α) : List α :=
  match l, i with
  | [], _ => []
  | a :: r, 0 => f a :: r
  | a :: r, i + 1 => a :: setAt r i f

/-- The numbers of the set bits of a 64-bit map, lowest first. -/
def members (m : DWord) : List Nat := (List.range 64).filter (fun i => m.getLsbD i)

/-- The 64-bit map of a list of numbers. -/
def mapOf : List Nat → DWord
  | [] => 0
  | i :: r => (mapOf r) ||| BitVec.ofNat 64 (if i < 64 then 2 ^ i else 0)

/-- One bit of a 64-bit map set or cleared. -/
def withBit (m : DWord) (i : Nat) (b : Bool) : DWord :=
  if b then m ||| BitVec.ofNat 64 (2 ^ i) else m &&& ~~~ (BitVec.ofNat 64 (2 ^ i))

end Sys2Proof.Machine
end

