-- ==== Sys2Proof/Machine/Crypto.lean ====
section
/-! DEFINITION. The published checksums, hashes, ciphers and signatures the manual names: CRC-32C, CRC-64/ECMA-182
(R211), SHA-256, HKDF-SHA-256 (R258, R417), AES-256-GCM (R258, R425, R426), ECDH and ECDSA on P-256 (R259, R288, R422),
and Philox-4x32 with 10 rounds (R110). The manual writes out CRC-64's parameters and Philox; the others are taken from
their publications (PRESUMED, log entry 8). -/

namespace Sys2Proof.Machine

/-- Exclusive or of two byte strings, as long as the shorter. -/
def xorBytes (a b : List Byte) : List Byte := List.zipWith (fun x y => x ^^^ y) a b

/-- One bit step of a reflected CRC-32. -/
def crc32Bit (c : Nat) : Nat := if c % 2 = 1 then Nat.xor (c / 2) 0x82F63B78 else c / 2

/-- One byte of CRC-32C. -/
def crc32Byte (c : Nat) (b : Byte) : Nat :=
  crc32Bit (crc32Bit (crc32Bit (crc32Bit (crc32Bit (crc32Bit (crc32Bit (crc32Bit (Nat.xor c b.toNat))))))))

/-- CRC-32C (Castagnoli) of a byte string (R254, R365). -/
def crc32c (l : List Byte) : Nat := Nat.xor (l.foldl crc32Byte 0xFFFFFFFF) 0xFFFFFFFF

/-- One bit step of CRC-64/ECMA-182, not reflected. -/
def crc64Bit (c : Nat) : Nat :=
  if c / 2 ^ 63 % 2 = 1 then Nat.xor (c * 2 % 2 ^ 64) 0x42F0E1EBA9EA3693 else c * 2 % 2 ^ 64

/-- One byte of CRC-64/ECMA-182. -/
def crc64Byte (c : Nat) (b : Byte) : Nat :=
  crc64Bit (crc64Bit (crc64Bit (crc64Bit (crc64Bit (crc64Bit (crc64Bit (crc64Bit (Nat.xor c (b.toNat * 2 ^ 56)))))))))

/-- CRC-64/ECMA-182 of a byte string, with the parameters R211 gives. -/
def crc64 (l : List Byte) : Nat := l.foldl crc64Byte 0

/-- Rotate a 32-bit number right. -/
def rotr (x n : Nat) : Nat := Nat.lor (x / 2 ^ n) (x * 2 ^ (32 - n) % 2 ^ 32)

/-- The 64 round constants of SHA-256. -/
def shaK : List Nat :=
  [0x428a2f98, 0x71374491, 0xb5c0fbcf, 0xe9b5dba5, 0x3956c25b, 0x59f111f1, 0x923f82a4, 0xab1c5ed5,
   0xd807aa98, 0x12835b01, 0x243185be, 0x550c7dc3, 0x72be5d74, 0x80deb1fe, 0x9bdc06a7, 0xc19bf174] ++
  [0xe49b69c1, 0xefbe4786, 0x0fc19dc6, 0x240ca1cc, 0x2de92c6f, 0x4a7484aa, 0x5cb0a9dc, 0x76f988da,
   0x983e5152, 0xa831c66d, 0xb00327c8, 0xbf597fc7, 0xc6e00bf3, 0xd5a79147, 0x06ca6351, 0x14292967] ++
  [0x27b70a85, 0x2e1b2138, 0x4d2c6dfc, 0x53380d13, 0x650a7354, 0x766a0abb, 0x81c2c92e, 0x92722c85,
   0xa2bfe8a1, 0xa81a664b, 0xc24b8b70, 0xc76c51a3, 0xd192e819, 0xd6990624, 0xf40e3585, 0x106aa070] ++
  [0x19a4c116, 0x1e376c08, 0x2748774c, 0x34b0bcb5, 0x391c0cb3, 0x4ed8aa4a, 0x5b9cca4f, 0x682e6ff3,
   0x748f82ee, 0x78a5636f, 0x84c87814, 0x8cc70208, 0x90befffa, 0xa4506ceb, 0xbef9a3f7, 0xc67178f2]

/-- The eight working words of SHA-256. -/
structure ShaSt where
  a : Nat
  b : Nat
  c : Nat
  d : Nat
  e : Nat
  f : Nat
  g : Nat
  h : Nat
  deriving DecidableEq, Repr

/-- The initial words of SHA-256. -/
def shaInit : ShaSt :=
  ⟨0x6a09e667, 0xbb67ae85, 0x3c6ef372, 0xa54ff53a, 0x510e527f, 0x9b05688c, 0x1f83d9ab, 0x5be0cd19⟩

/-- One round, on the round constant and the schedule word. -/
def shaRound (s : ShaSt) (k w : Nat) : ShaSt :=
  let s1 := Nat.xor (Nat.xor (rotr s.e 6) (rotr s.e 11)) (rotr s.e 25)
  let ch := Nat.xor (Nat.land s.e s.f) (Nat.land (0xFFFFFFFF - s.e) s.g)
  let t1 := s.h + s1 + ch + k + w
  let s0 := Nat.xor (Nat.xor (rotr s.a 2) (rotr s.a 13)) (rotr s.a 22)
  let mj := Nat.xor (Nat.xor (Nat.land s.a s.b) (Nat.land s.a s.c)) (Nat.land s.b s.c)
  ⟨(t1 + s0 + mj) % 2 ^ 32, s.a, s.b, s.c, (s.d + t1) % 2 ^ 32, s.e, s.f, s.g⟩

/-- The rounds over the constants left; `w` holds the next 16 schedule words. -/
def shaRounds : List Nat → List Nat → ShaSt → ShaSt
  | [], _, s => s
  | k :: ks, w, s =>
    let w0 := w.getD 0 0
    let x := w.getD 1 0
    let y := w.getD 14 0
    let q0 := Nat.xor (Nat.xor (rotr x 7) (rotr x 18)) (x / 8)
    let q1 := Nat.xor (Nat.xor (rotr y 17) (rotr y 19)) (y / 1024)
    let nw := (w0 + q0 + w.getD 9 0 + q1) % 2 ^ 32
    shaRounds ks (w.tail ++ [nw]) (shaRound s k w0)

/-- The big-endian words of a block of 64 bytes. -/
def shaWords : Nat → List Byte → List Nat
  | 0, _ => []
  | n + 1, l => ofBe (l.take 4) :: shaWords n (l.drop 4)

/-- One block absorbed. -/
def shaBlock (s : ShaSt) (blk : List Byte) : ShaSt :=
  let t := shaRounds shaK (shaWords 16 blk) s
  ⟨(s.a + t.a) % 2 ^ 32, (s.b + t.b) % 2 ^ 32, (s.c + t.c) % 2 ^ 32, (s.d + t.d) % 2 ^ 32,
   (s.e + t.e) % 2 ^ 32, (s.f + t.f) % 2 ^ 32, (s.g + t.g) % 2 ^ 32, (s.h + t.h) % 2 ^ 32⟩

/-- `n` blocks absorbed. -/
def shaBlocks : Nat → List Byte → ShaSt → ShaSt
  | 0, _, s => s
  | n + 1, l, s => shaBlocks n (l.drop 64) (shaBlock s (l.take 64))

/-- SHA-256 of a byte string. -/
def sha256 (l : List Byte) : List Byte :=
  let n := l.length
  let padded := l ++ [0x80] ++ zeroBytes ((119 - n % 64) % 64) ++ beBytes 8 (8 * n)
  let s := shaBlocks (padded.length / 64) padded shaInit
  beBytes 4 s.a ++ beBytes 4 s.b ++ beBytes 4 s.c ++ beBytes 4 s.d ++
  beBytes 4 s.e ++ beBytes 4 s.f ++ beBytes 4 s.g ++ beBytes 4 s.h

/-- HMAC-SHA-256. -/
def hmacSha256 (key msg : List Byte) : List Byte :=
  let k := fit 64 (if key.length > 64 then sha256 key else key)
  sha256 (k.map (fun b => b ^^^ 0x5C) ++ sha256 (k.map (fun b => b ^^^ 0x36) ++ msg))

/-- The expansion of HKDF: `n` more blocks after `t`, numbered from `i`. -/
def hkdfExpand (prk info : List Byte) : Nat → Nat → List Byte → List Byte
  | 0, _, _ => []
  | n + 1, i, t =>
    let u := hmacSha256 prk (t ++ info ++ [BitVec.ofNat 8 i])
    u ++ hkdfExpand prk info n (i + 1) u

/-- HKDF-SHA-256. An empty salt is 32 zero bytes. -/
def hkdf (ikm salt info : List Byte) (len : Nat) : List Byte :=
  let prk := hmacSha256 (if salt = [] then zeroBytes 32 else salt) ikm
  (hkdfExpand prk info ((len + 31) / 32) 1 []).take len

/-- The ASCII bytes of a string. -/
def ascii (s : String) : List Byte := s.toList.map (fun c => BitVec.ofNat 8 c.toNat)

/-- Multiplication by x in AES's field. -/
def aesX (a : Nat) : Nat := if a ≥ 128 then Nat.xor (a * 2 % 256) 0x1B else a * 2

/-- Multiplication in AES's field, over the low `n` bits of `b`. -/
def aesMulN : Nat → Nat → Nat → Nat
  | 0, _, _ => 0
  | n + 1, a, b => Nat.xor (if b % 2 = 1 then a else 0) (aesMulN n (aesX a) (b / 2))

/-- Multiplication in AES's field. -/
def aesMul (a b : Nat) : Nat := aesMulN 8 a b

/-- The inverse in AES's field, a^254, and 0 for 0. -/
def aesInv (a : Nat) : Nat :=
  let a2 := aesMul a a
  let a4 := aesMul a2 a2
  let a8 := aesMul a4 a4
  let a16 := aesMul a8 a8
  let a32 := aesMul a16 a16
  let a64 := aesMul a32 a32
  let a128 := aesMul a64 a64
  aesMul a128 (aesMul a64 (aesMul a32 (aesMul a16 (aesMul a8 (aesMul a4 a2)))))

/-- Rotate a byte left. -/
def rotl8 (x n : Nat) : Nat := Nat.lor (x * 2 ^ n % 256) (x / 2 ^ (8 - n))

/-- AES's substitution. -/
def aesSub (a : Nat) : Nat :=
  let b := aesInv a
  Nat.xor (Nat.xor (Nat.xor (Nat.xor (Nat.xor b (rotl8 b 1)) (rotl8 b 2)) (rotl8 b 3)) (rotl8 b 4)) 0x63

/-- The substitution of every byte value. -/
def aesSbox : List Nat := (List.range 256).map aesSub

/-- Substitution through the table. -/
def sb (a : Nat) : Nat := aesSbox.getD a 0

/-- The words of an AES-256 key schedule after the first eight: `n` more, numbered from `i`, `w` newest first. -/
def aesExpand : Nat → Nat → Nat → List (List Nat) → List (List Nat)
  | 0, _, _, w => w
  | n + 1, i, rc, w =>
    let t := w.getD 0 []
    let u := w.getD 7 []
    let t' :=
      if i % 8 = 0 then
        match (t.tail ++ t.take 1).map sb with
        | x :: r => Nat.xor x rc :: r
        | [] => []
      else if i % 8 = 4 then t.map sb else t
    aesExpand n (i + 1) (if i % 8 = 0 then aesX rc else rc) (List.zipWith Nat.xor u t' :: w)

/-- The 15 round keys of AES-256, 16 bytes each. -/
def aesKeys (key : List Byte) : List (List Nat) :=
  let k := (fit 32 key).map BitVec.toNat
  let w0 := (List.range 8).map (fun i => (k.drop (4 * i)).take 4)
  let w := (aesExpand 52 8 1 w0.reverse).reverse
  (List.range 15).map (fun r => ((w.drop (4 * r)).take 4).flatten)

/-- ShiftRows on 16 bytes held column by column. -/
def aesShift (s : List Nat) : List Nat := (List.range 16).map (fun i => s.getD ((i + 4 * (i % 4)) % 16) 0)

/-- MixColumns on one column. -/
def aesMixCol (c : List Nat) : List Nat :=
  let a := c.getD 0 0
  let b := c.getD 1 0
  let d := c.getD 2 0
  let e := c.getD 3 0
  let x := fun p q r s => Nat.xor (Nat.xor (aesX p) (Nat.xor (aesX q) q)) (Nat.xor r s)
  [x a b d e, x b d e a, x d e a b, x e a b d]

/-- MixColumns. -/
def aesMix (s : List Nat) : List Nat :=
  ((List.range 4).map (fun i => aesMixCol ((s.drop (4 * i)).take 4))).flatten

/-- The rounds of AES over the round keys left. -/
def aesRounds : List (List Nat) → List Nat → List Nat
  | [], s => s
  | [k], s => List.zipWith Nat.xor (aesShift (s.map sb)) k
  | k :: r, s => aesRounds r (List.zipWith Nat.xor (aesMix (aesShift (s.map sb))) k)

/-- One block encrypted under expanded keys. -/
def aesBlock (keys : List (List Nat)) (b : List Byte) : List Byte :=
  let s := List.zipWith Nat.xor (b.map BitVec.toNat) (keys.getD 0 [])
  (aesRounds keys.tail s).map (BitVec.ofNat 8)

/-- Multiplication in GCM's field: the bits of `x` left to use, from the most significant down. -/
def gcmMulN : Nat → Nat → Nat → Nat → Nat
  | 0, _, _, z => z
  | n + 1, x, v, z =>
    gcmMulN n x (if v % 2 = 1 then Nat.xor (v / 2) (0xE1 * 2 ^ 120) else v / 2)
      (if x / 2 ^ n % 2 = 1 then Nat.xor z v else z)

/-- Multiplication in GCM's field. -/
def gcmMul (x y : Nat) : Nat := gcmMulN 128 x y 0

/-- GHASH over `n` blocks. -/
def ghash (h : Nat) : Nat → List Byte → Nat → Nat
  | 0, _, y => y
  | n + 1, l, y => ghash h n (l.drop 16) (gcmMul (Nat.xor y (ofBe (fit 16 (l.take 16)))) h)

/-- Counter mode over `n` blocks from counter value `c`. -/
def gcmCtr (keys : List (List Nat)) (nonce : List Byte) : Nat → Nat → List Byte → List Byte
  | 0, _, _ => []
  | n + 1, c, l =>
    xorBytes (l.take 16) (aesBlock keys (nonce ++ beBytes 4 c)) ++ gcmCtr keys nonce n (c + 1) (l.drop 16)

/-- The tag of AES-256-GCM with a 12-byte nonce. -/
def gcmTag (keys : List (List Nat)) (nonce aad ct : List Byte) : List Byte :=
  let h := ofBe (aesBlock keys (zeroBytes 16))
  let y := ghash h ((aad.length + 15) / 16) aad 0
  let y := ghash h ((ct.length + 15) / 16) ct y
  let y := ghash h 1 (beBytes 8 (8 * aad.length) ++ beBytes 8 (8 * ct.length)) y
  xorBytes (beBytes 16 y) (aesBlock keys (nonce ++ beBytes 4 1))

/-- AES-256-GCM sealing: ciphertext and tag. -/
def gcmSeal (key nonce aad pt : List Byte) : List Byte × List Byte :=
  let keys := aesKeys key
  let ct := gcmCtr keys nonce ((pt.length + 15) / 16) 2 pt
  (ct, gcmTag keys nonce aad ct)

/-- AES-256-GCM opening: the plaintext, or none where the tag does not verify. -/
def gcmOpen (key nonce aad ct tag : List Byte) : Option (List Byte) :=
  let keys := aesKeys key
  if gcmTag keys nonce aad ct = tag then some (gcmCtr keys nonce ((ct.length + 15) / 16) 2 ct) else none

/-- The prime of P-256. -/
def p256P : Nat := 0xFFFFFFFF00000001000000000000000000000000FFFFFFFFFFFFFFFFFFFFFFFF
/-- The order of P-256. -/
def p256N : Nat := 0xFFFFFFFF00000000FFFFFFFFFFFFFFFFBCE6FAADA7179E84F3B9CAC2FC632551
/-- The coefficient b of P-256. -/
def p256B : Nat := 0x5AC635D8AA3A93E7B3EBBD55769886BC651D06B0CC53B0F63BCE3C3E27D2604B
/-- The generator of P-256. -/
def p256G : Nat × Nat :=
  (0x6B17D1F2E12C4247F8BCE6E563A440F277037D812DEB33A0F4A13945D898C296,
   0x4FE342E2FE1A7F9B8EE7EB4A7C0F9E162BCE33576B315ECECBB6406837BF51F5)

/-- Exponentiation modulo `m`, over the low `n` bits of the exponent. -/
def powModN : Nat → Nat → Nat → Nat → Nat
  | 0, _, _, m => 1 % m
  | n + 1, b, e, m =>
    let r := powModN n (b * b % m) (e / 2) m
    if e % 2 = 1 then b * r % m else r

/-- The inverse modulo a prime of at most 256 bits. -/
def invMod (a m : Nat) : Nat := powModN 256 (a % m) (m - 2) m

/-- Subtraction modulo `m`, of numbers below `m`. -/
def subMod (a b m : Nat) : Nat := (a + m - b) % m

/-- A point in Jacobian coordinates; z = 0 is the point at infinity. -/
structure JPoint where
  x : Nat
  y : Nat
  z : Nat
  deriving DecidableEq, Repr

/-- Doubling on P-256. -/
def jDouble (q : JPoint) : JPoint :=
  if q.z = 0 then q else
  let p := p256P
  let yy := q.y * q.y % p
  let s := 4 * q.x * yy % p
  let zz := q.z * q.z % p
  let m := 3 * (subMod q.x zz p) * (q.x + zz) % p
  let x := subMod (m * m % p) (2 * s % p) p
  let y := subMod (m * subMod s x p % p) (8 * yy * yy % p) p
  ⟨x, y, 2 * q.y * q.z % p⟩

/-- Addition on P-256. -/
def jAdd (q r : JPoint) : JPoint :=
  if q.z = 0 then r else if r.z = 0 then q else
  let p := p256P
  let qz := q.z * q.z % p
  let rz := r.z * r.z % p
  let u1 := q.x * rz % p
  let u2 := r.x * qz % p
  let s1 := q.y * rz % p * r.z % p
  let s2 := r.y * qz % p * q.z % p
  if u1 = u2 then (if s1 = s2 then jDouble q else ⟨1, 1, 0⟩) else
  let h := subMod u2 u1 p
  let w := subMod s2 s1 p
  let hh := h * h % p
  let hhh := hh * h % p
  let v := u1 * hh % p
  let x := subMod (subMod (w * w % p) hhh p) (2 * v % p) p
  let y := subMod (w * subMod v x p % p) (s1 * hhh % p) p
  ⟨x, y, q.z * r.z % p * h % p⟩

/-- Multiplication of a point by the top bits of `k` down to bit 0; `n` bits. -/
def jMulN (q : JPoint) (k : Nat) : Nat → JPoint → JPoint
  | 0, acc => acc
  | n + 1, acc =>
    let d := jDouble acc
    jMulN q k n (if k / 2 ^ n % 2 = 1 then jAdd d q else d)

/-- The multiple k of an affine point. -/
def pointMul (k : Nat) (q : Nat × Nat) : JPoint := jMulN ⟨q.1, q.2, 1⟩ k 256 ⟨1, 1, 0⟩

/-- The affine coordinates of a point; none at infinity. -/
def toAffine (q : JPoint) : Option (Nat × Nat) :=
  if q.z = 0 then none else
  let i := invMod q.z p256P
  let ii := i * i % p256P
  some (q.x * ii % p256P, q.y * ii % p256P * i % p256P)

/-- The pair is a point on P-256. -/
def onCurve (q : Nat × Nat) : Bool :=
  decide (q.1 < p256P) && decide (q.2 < p256P) &&
  decide (q.2 * q.2 % p256P = (subMod (q.1 * q.1 % p256P * q.1 % p256P) (3 * q.1 % p256P) p256P + p256B) % p256P)

/-- A public key of 64 bytes, X then Y, big-endian (16). -/
def keyOf (l : List Byte) : Nat × Nat := (ofBe (l.take 32), ofBe (slice l 32 32))

/-- ECDSA verification on a 32-byte hash: r or s outside 1 to n - 1 fails, and so does a key off the curve (R422). -/
def ecdsaVerify (key hash sig : List Byte) : Bool :=
  let q := keyOf key
  let r := ofBe (sig.take 32)
  let s := ofBe (slice sig 32 32)
  if !(onCurve q) || r = 0 || s = 0 || decide (r ≥ p256N) || decide (s ≥ p256N) then false else
  let w := invMod s p256N
  let u1 := ofBe hash * w % p256N
  let u2 := r * w % p256N
  match toAffine (jAdd (pointMul u1 p256G) (pointMul u2 q)) with
  | some v => v.1 % p256N = r
  | none => false

/-- ECDSA signing with the secret key `d` and the nonce `k` (taken modulo n, never 0). -/
def ecdsaSign (d k : Nat) (hash : List Byte) : List Byte :=
  let k := k % (p256N - 1) + 1
  match toAffine (pointMul k p256G) with
  | some v =>
    let r := v.1 % p256N
    let s := invMod k p256N * ((ofBe hash + r * d) % p256N) % p256N
    beBytes 32 r ++ beBytes 32 s
  | none => zeroBytes 64

/-- The X coordinate of the ECDH product, 32 bytes big-endian; none off the curve. -/
def ecdhX (d : Nat) (key : List Byte) : Option (List Byte) :=
  let q := keyOf key
  if onCurve q then (toAffine (pointMul d q)).map (fun v => beBytes 32 v.1) else none

/-- One round of Philox-4x32 (R110). -/
def philoxRound (c : List Nat) (k0 k1 : Nat) : List Nat :=
  let p0 := 0xD2511F53 * c.getD 0 0
  let p1 := 0xCD9E8D57 * c.getD 2 0
  [Nat.xor (Nat.xor (p1 / 2 ^ 32) (c.getD 1 0)) k0, p1 % 2 ^ 32,
   Nat.xor (Nat.xor (p0 / 2 ^ 32) (c.getD 3 0)) k1, p0 % 2 ^ 32]

/-- `n` rounds of Philox-4x32, the key bumped between rounds (R110). -/
def philoxN : Nat → List Nat → Nat → Nat → List Nat
  | 0, c, _, _ => c
  | n + 1, c, k0, k1 => philoxN n (philoxRound c k0 k1) ((k0 + 0x9E3779B9) % 2 ^ 32) ((k1 + 0xBB67AE85) % 2 ^ 32)

/-- The word r that an output element draws (R110): session seed, schedule seed, step counter, tensor identifier and
element index. -/
def srWord (sess sched step tid e : Nat) : Nat :=
  let k := Nat.xor sess sched
  let g := e % 2 ^ 64 / 4
  let ctr := [g % 2 ^ 32, g / 2 ^ 32, tid % 2 ^ 32, step % 2 ^ 32]
  (philoxN 10 ctr (k % 2 ^ 32) (Nat.xor (k / 2 ^ 32 % 2 ^ 32) (step / 2 ^ 32 % 2 ^ 32))).getD (e % 4) 0

end Sys2Proof.Machine
end

