-- ==== Sys2Proof/Machine/Arith.lean ====
section
/-! DEFINITION. Arithmetic, formats and rounding (04): the element encodings (R86 to R91), WA48 (R92, R93), the K-block
sum (R94 to R98), the FP32 split (R99), the chain and tree (R101, R102) and the output conversion (R104 to R109). -/

namespace Sys2Proof.Machine

/-- The format codes of R86. -/
inductive Fmt where
  | none | fp32 | fp16 | bf16 | e4m3 | e5m2 | int8 | mxE4m3 | mxE5m2 | mxE3m2 | mxE2m3 | mxInt8
  | e2m1 | int4 | mxFp4 | wa48
  deriving DecidableEq, Repr

/-- The format a code names; every other code is reserved (R86). -/
def Fmt.ofCode (c : Nat) : Option Fmt :=
  if c = 0x00 then some .none
  else if c = 0x01 then some .fp32
  else if c = 0x02 then some .fp16
  else if c = 0x03 then some .bf16
  else if c = 0x10 then some .e4m3
  else if c = 0x11 then some .e5m2
  else if c = 0x12 then some .int8
  else if c = 0x14 then some .mxE4m3
  else if c = 0x15 then some .mxE5m2
  else if c = 0x16 then some .mxE3m2
  else if c = 0x17 then some .mxE2m3
  else if c = 0x18 then some .mxInt8
  else if c = 0x20 then some .e2m1
  else if c = 0x21 then some .int4
  else if c = 0x22 then some .mxFp4
  else if c = 0x30 then some .wa48
  else Option.none

/-- The operand class of a format (R60): products per cell per cycle; 0 for a format that is no operand. -/
def Fmt.cls : Fmt → Nat
  | .fp32 | .fp16 | .bf16 => 1
  | .e4m3 | .e5m2 | .int8 | .mxE4m3 | .mxE5m2 | .mxE3m2 | .mxE2m3 | .mxInt8 => 2
  | .e2m1 | .int4 | .mxFp4 => 4
  | .none | .wa48 => 0

/-- The format is a microscaling one. -/
def Fmt.isMx : Fmt → Bool
  | .mxE4m3 | .mxE5m2 | .mxE3m2 | .mxE2m3 | .mxInt8 | .mxFp4 => true
  | _ => false

/-- The format is an integer one, as R60 pairs them. -/
def Fmt.isInt : Fmt → Bool
  | .int8 | .int4 | .mxInt8 => true
  | _ => false

/-- Bits per element in the operand store, the queues and the cluster buffer (R61, R91). -/
def Fmt.bits : Fmt → Nat
  | .fp32 => 32
  | .fp16 | .bf16 => 16
  | .e4m3 | .e5m2 | .int8 | .mxE4m3 | .mxE5m2 | .mxE3m2 | .mxE2m3 | .mxInt8 => 8
  | .e2m1 | .int4 | .mxFp4 => 4
  | .wa48 => 64
  | .none => 0

/-- The parameters of a floating-point element format (R87): exponent bits, fraction bits, bias, smallest normal and
largest exponent, the significand of the largest finite value, and whether it has infinities and NaNs as IEEE does. -/
structure FltP where
  eb : Nat
  fb : Nat
  bias : Int
  emin : Int
  emax : Int
  top : Nat
  ieee : Bool
  deriving DecidableEq, Repr

/-- The floating-point parameters of R87; none for integer formats, WA48 and the empty code. -/
def Fmt.flt : Fmt → Option FltP
  | .fp32 => some ⟨8, 23, 127, -126, 127, 2 ^ 24 - 1, true⟩
  | .fp16 => some ⟨5, 10, 15, -14, 15, 2 ^ 11 - 1, true⟩
  | .bf16 => some ⟨8, 7, 127, -126, 127, 2 ^ 8 - 1, true⟩
  | .e4m3 | .mxE4m3 => some ⟨4, 3, 7, -6, 8, 14, false⟩
  | .e5m2 | .mxE5m2 => some ⟨5, 2, 15, -14, 15, 7, true⟩
  | .mxE3m2 => some ⟨3, 2, 3, -2, 4, 7, false⟩
  | .mxE2m3 => some ⟨2, 3, 1, 0, 2, 15, false⟩
  | .e2m1 | .mxFp4 => some ⟨2, 1, 1, 0, 2, 3, false⟩
  | .int8 | .mxInt8 | .int4 | .wa48 | .none => Option.none

/-- The exact meaning of an element or an accumulator: NaN, an infinity, or (-1)^s x m x 2^q (R88). -/
inductive Val where
  | nan
  | inf (neg : Bool)
  | fin (neg : Bool) (m : Nat) (q : Int)
  deriving DecidableEq, Repr

/-- A floating-point element decoded (R88). E4M3's only NaN is S.1111.111 (R87). -/
def decodeFlt (p : FltP) (isE4m3 : Bool) (x : Nat) : Val :=
  let neg := bitAt x (p.eb + p.fb)
  let e : Nat := x / 2 ^ p.fb % 2 ^ p.eb
  let f : Nat := x % 2 ^ p.fb
  if isE4m3 && e = 15 && f = 7 then .nan
  else if p.ieee && e = 2 ^ p.eb - 1 then (if f = 0 then .inf neg else .nan)
  else if e = 0 then .fin neg f (p.emin - p.fb)
  else .fin neg (2 ^ p.fb + f) ((e : Int) - p.bias - p.fb)

/-- An integer element decoded (R88). -/
def decodeInt (w : Nat) (q : Int) (x : Nat) : Val :=
  let i := signed w x
  .fin (decide (i < 0)) i.natAbs q

/-- An element's bits decoded (R88, R91: bits [7:6] of an FP6 byte are ignored). -/
def decodeElem (f : Fmt) (x : Nat) : Val :=
  match f with
  | .int8 => decodeInt 8 0 x
  | .int4 => decodeInt 4 0 x
  | .mxInt8 => decodeInt 8 (-6) x
  | .e4m3 | .mxE4m3 => decodeFlt ⟨4, 3, 7, -6, 8, 14, false⟩ true x
  | .none | .wa48 => .fin false 0 0
  | g => match g.flt with
    | some p => decodeFlt p false (x % 2 ^ (1 + p.eb + p.fb))
    | Option.none => .fin false 0 0

/-- A WA48 value's bits decoded (R92): exponent field 0 reads as signed zero. -/
def decode48 (x : BitVec 48) : Val :=
  let neg := x.getLsbD 47
  let e : Nat := x.toNat / 2 ^ 36 % 2 ^ 11
  let f : Nat := x.toNat % 2 ^ 36
  if e = 0 then .fin neg 0 0
  else if e = 0x7FF then (if f = 0 then .inf neg else .nan)
  else .fin neg (2 ^ 36 + f) ((e : Int) - 1023 - 36)

/-- The canonical quiet NaN of WA48 (R89). -/
def qnan48 : BitVec 48 := 0x7FF800000000#48

/-- A signed zero of WA48. -/
def zero48 (neg : Bool) : BitVec 48 := if neg then 0x800000000000#48 else 0#48

/-- A signed infinity of WA48. -/
def inf48 (neg : Bool) : BitVec 48 := if neg then 0xFFF000000000#48 else 0x7FF000000000#48

/-- The rounding modes of R105; stochastic rounding carries its word r. -/
inductive Rnd where
  | rne
  | zero
  | stoch (r : Nat)
  deriving DecidableEq, Repr

/-- The magnitude m x 2^q as a whole number of units of 2^g, rounded (R105). -/
def roundTo (mode : Rnd) (m : Nat) (q g : Int) : Nat :=
  if q ≥ g then m * 2 ^ (q - g).toNat else
  let k := (g - q).toNat
  let lo := m / 2 ^ k
  let rem := m % 2 ^ k
  match mode with
  | .rne =>
    if 2 * rem > 2 ^ k then lo + 1
    else if 2 * rem = 2 ^ k then lo + lo % 2
    else lo
  | .zero => lo
  | .stoch r => if rem * 2 ^ 32 / 2 ^ k + r ≥ 2 ^ 32 then lo + 1 else lo

/-- The exponent of a nonzero magnitude m x 2^q: floor(log2). -/
def expOf (m : Nat) (q : Int) : Int := (Nat.log2 m : Int) + q

/-- A nonzero exact value rounded and encoded in WA48: steps 5 to 7 of R93. -/
def encode48 (neg : Bool) (m : Nat) (q : Int) : BitVec 48 :=
  if m = 0 then zero48 neg else
  let g := expOf m q - 36
  let n := roundTo .rne m q g
  let (n, g) := if n ≥ 2 ^ 37 then (n / 2, g + 1) else (n, g)
  let e := g + 36
  if e ≥ 1024 then inf48 neg
  else if e < -1022 then zero48 neg
  else (if neg then 0x800000000000#48 else 0#48) |||
    BitVec.ofNat 48 ((e + 1023).toNat * 2 ^ 36 + (n - 2 ^ 36))

/-- The bits of a value: NaN, infinity, zero or a finite value rounded into WA48. -/
def toWa48 : Val → BitVec 48
  | .nan => qnan48
  | .inf s => inf48 s
  | .fin s m q => encode48 s m q

/-- The signed integer of units of 2^g that a finite value is, where g is at most its own exponent. -/
def unitsAt (neg : Bool) (m : Nat) (q g : Int) : Int :=
  let t : Int := (m * 2 ^ (q - g).toNat : Nat)
  if neg then -t else t

/-- A WA48 add (R93). -/
def waAdd (x y : BitVec 48) : BitVec 48 :=
  match decode48 x, decode48 y with
  | .nan, _ => qnan48
  | _, .nan => qnan48
  | .inf a, .inf b => if a = b then x else qnan48
  | .inf _, _ => x
  | _, .inf _ => y
  | .fin s m q, .fin t n r =>
    let g := if q ≤ r then q else r
    let sum := unitsAt s m q g + unitsAt t n r g
    if sum = 0 then zero48 (s && t && m = 0 && n = 0)
    else encode48 (decide (sum < 0)) sum.natAbs g

/-- One product of a K-block (R94), its MX scale exponents given; a scale of none is the NaN scale 0xFF (R90). -/
def product (a b : Val) (sa sb : Option Int) : Val :=
  match sa, sb with
  | some ea, some eb =>
    match a, b with
    | .nan, _ => .nan
    | _, .nan => .nan
    | .inf s, .inf t => .inf (s != t)
    | .inf s, .fin t n _ => if n = 0 then .nan else .inf (s != t)
    | .fin s m _, .inf t => if m = 0 then .nan else .inf (s != t)
    | .fin s m q, .fin t n r => .fin (s != t) (m * n) (q + r + ea + eb)
  | _, _ => .nan

/-- The largest exponent among the nonzero finite products (R95). -/
def qMax : List Val → Option Int
  | [] => Option.none
  | .fin _ m q :: r =>
    if m = 0 then qMax r else
    match qMax r with
    | Option.none => some q
    | some x => some (if q ≥ x then q else x)
  | _ :: r => qMax r

/-- One aligned product in units of 2^(qmax - 3), truncated toward zero on the magnitude (R95). -/
def aligned (qm : Int) : Val → Int
  | .fin neg m q =>
    let d := (qm - q).toNat
    let t : Int := if d ≤ 3 then (m * 2 ^ (3 - d) : Nat) else (m / 2 ^ (d - 3) : Nat)
    if neg then -t else t
  | _ => 0

/-- The product is a NaN. -/
def Val.isNan : Val → Bool
  | .nan => true
  | _ => false

/-- The value is an infinity of the given sign. -/
def Val.isInf (neg : Bool) : Val → Bool
  | .inf s => s == neg
  | _ => false

/-- The value is an exact zero of negative sign. -/
def Val.isNegZero : Val → Bool
  | .fin true 0 _ => true
  | _ => false

/-- The value is finite. -/
def Val.isFin : Val → Bool
  | .fin _ _ _ => true
  | _ => false

/-- The sum of a K-block's present products as one WA48 value (R95 to R97). -/
def kBlock (ps : List Val) : BitVec 48 :=
  if ps.any Val.isNan then qnan48
  else if ps.any (Val.isInf false) && ps.any (Val.isInf true) then qnan48
  else if ps.any (Val.isInf false) then inf48 false
  else if ps.any (Val.isInf true) then inf48 true
  else match qMax ps with
    | Option.none => zero48 (!ps.isEmpty && ps.all Val.isNegZero)
    | some qm =>
      let acc := (ps.map (aligned qm)).foldl (· + ·) 0
      if acc = 0 then zero48 false else encode48 (decide (acc < 0)) acc.natAbs (qm - 3)

/-- The chain of a chunk: links added left to right (R101). -/
def chain : List (BitVec 48) → BitVec 48
  | [] => 0
  | x :: r => r.foldl waAdd x

/-- One level of the pairwise tree (R102). -/
def treeLevel : List (BitVec 48) → List (BitVec 48)
  | x :: y :: r => waAdd x y :: treeLevel r
  | l => l

/-- Levels of the tree, at most as many as given. -/
def treeN : Nat → List (BitVec 48) → List (BitVec 48)
  | 0, l => l
  | n + 1, l => treeN n (treeLevel l)

/-- The pairwise tree over chunk results (R102). -/
def tree (l : List (BitVec 48)) : BitVec 48 := (treeN l.length l).headD 0

/-- The high BF16 part of an FP32 element (R99). -/
def splitHi (x : Nat) : Nat :=
  if x / 2 ^ 23 % 256 = 255 && x % 2 ^ 23 ≠ 0 then 0x7FC0 else x / 2 ^ 16

/-- Rounding and encoding of a finite magnitude in a floating-point target (R104, R105): its code without the sign, or
none where it overflows the largest finite value. -/
def encodeFlt (p : FltP) (mode : Rnd) (m : Nat) (q : Int) : Option Nat :=
  if m = 0 then some 0 else
  let e := expOf m q
  let g := (if e ≥ p.emin then e else p.emin) - p.fb
  let n := roundTo mode m q g
  let (n, g) := if n ≥ 2 ^ (p.fb + 1) then (n / 2, g + 1) else (n, g)
  if g > p.emax - p.fb || (g = p.emax - p.fb && n > p.top) then Option.none
  else if n < 2 ^ p.fb then some n
  else some ((g + p.fb + p.bias).toNat * 2 ^ p.fb + (n - 2 ^ p.fb))

/-- The low BF16 part of an FP32 element: the exact difference from the high part, rounded (R99). -/
def splitLo (x : Nat) : Nat :=
  if x / 2 ^ 23 % 256 = 255 then 0 else
  match decodeElem .fp32 x, decodeElem .bf16 (x / 2 ^ 16) with
  | .fin s m q, .fin _ n r =>
    if m = 0 then 0 else
    let d := unitsAt false m q q - unitsAt false (n * 2 ^ (r - q).toNat) q q
    match encodeFlt ⟨8, 7, 127, -126, 127, 2 ^ 8 - 1, true⟩ .rne d.natAbs q with
    | some c => if d = 0 then 0 else if s then c + 2 ^ 15 else c
    | Option.none => 0
  | _, _ => 0

/-- The sign bit of an element placed above its other bits. -/
def withSign (p : FltP) (neg : Bool) (c : Nat) : Nat := if neg then c + 2 ^ (p.eb + p.fb) else c

/-- Infinity's code in a format that has one. -/
def infCode (p : FltP) : Nat := (2 ^ p.eb - 1) * 2 ^ p.fb

/-- The canonical quiet NaN of a target format (R89), and 0 where it has none. -/
def nanCode : Fmt → Nat
  | .fp32 => 0x7FC00000
  | .fp16 => 0x7E00
  | .bf16 => 0x7FC0
  | .e4m3 | .mxE4m3 => 0x7F
  | .e5m2 | .mxE5m2 => 0x7E
  | .wa48 => 0x7FF800000000
  | _ => 0

/-- An integer target: rounded to a multiple of 2^u, saturated to w bits; the flag says whether it is counted (R107). -/
def convInt (w : Nat) (u : Int) (mode : Rnd) : Val → Nat × Bool
  | .nan => (0, true)
  | .inf s => (if s then 2 ^ (w - 1) else 2 ^ (w - 1) - 1, true)
  | .fin s m q =>
    let n := roundTo mode m q u
    if s then (if n > 2 ^ (w - 1) then (2 ^ (w - 1), true) else ((2 ^ w - n) % 2 ^ w, false))
    else (if n > 2 ^ (w - 1) - 1 then (2 ^ (w - 1) - 1, true) else (n, false))

/-- Output conversion of one value (R104 to R107): the element's code and whether R79 counts it. The microscaling
element formats are converted here after the division by the block's scale. -/
def convert (f : Fmt) (mode : Rnd) (v : Val) : Nat × Bool :=
  match f with
  | .none => (0, false)
  | .wa48 => ((toWa48 v).toNat, false)
  | .int8 => convInt 8 0 mode v
  | .int4 => convInt 4 0 mode v
  | .mxInt8 => convInt 8 (-6) mode v
  | .e2m1 | .mxFp4 | .mxE3m2 | .mxE2m3 =>
    match f.flt with
    | Option.none => (0, false)
    | some p =>
      match v with
      | .nan => (0, true)
      | .inf s => (withSign p s (2 ^ (p.eb + p.fb) - 1), true)
      | .fin s m q =>
        match encodeFlt p mode m q with
        | some c => (withSign p s c, false)
        | Option.none => (withSign p s (2 ^ (p.eb + p.fb) - 1), true)
  | .e4m3 | .mxE4m3 =>
    match v with
    | .nan => (0x7F, false)
    | .inf _ => (0x7F, false)
    | .fin s m q =>
      match encodeFlt ⟨4, 3, 7, -6, 8, 14, false⟩ mode m q with
      | some c => (if s then c + 128 else c, false)
      | Option.none => (0x7F, true)
  | g =>
    match g.flt with
    | Option.none => (0, false)
    | some p =>
      match v with
      | .nan => (nanCode g, false)
      | .inf s => (withSign p s (infCode p), false)
      | .fin s m q =>
        match encodeFlt p mode m q with
        | some c => (withSign p s c, false)
        | Option.none => (withSign p s (infCode p), true)

/-- The larger of two magnitudes m x 2^q. -/
def magMax (a b : Nat × Int) : Nat × Int :=
  let g := if a.2 ≤ b.2 then a.2 else b.2
  if a.1 * 2 ^ (a.2 - g).toNat ≥ b.1 * 2 ^ (b.2 - g).toNat then a else b

/-- The largest magnitude among the finite values (R108, R133); (0, 0) with none. -/
def aMax (vs : List Val) : Nat × Int :=
  vs.foldl (fun acc v => match v with
    | .fin _ m q => if m = 0 then acc else if acc.1 = 0 then (m, q) else magMax acc (m, q)
    | _ => acc) (0, 0)

/-- The exponent and significand unit of the largest element of a microscaling format (R108): emax_el, top, and the
exponent of its unit. -/
def mxTop : Fmt → Int × Nat × Int
  | .mxInt8 => (0, 127, -6)
  | g => match g.flt with
    | some p => (p.emax, p.top, p.emax - p.fb)
    | Option.none => (0, 0, 0)

/-- The magnitude m x 2^q exceeds n x 2^r. -/
def magGt (m : Nat) (q : Int) (n : Nat) (r : Int) : Bool :=
  let g := if q ≤ r then q else r
  decide (m * 2 ^ (q - g).toNat > n * 2 ^ (r - g).toNat)

/-- The shared scale exponent X of a row of present values (R108), before R109. -/
def mxX (f : Fmt) (vs : List Val) : Int :=
  let (m, q) := aMax vs
  if m = 0 then -127 else
  let (ee, top, u) := mxTop f
  let x := expOf m q - ee
  let x := if magGt m (q - x) top u then x + 1 else x
  if x < -127 then -127 else x

/-- A value divided by 2^x, exactly. -/
def scaleVal (x : Int) : Val → Val
  | .fin s m q => .fin s m (q - x)
  | v => v

/-- The format is one of the two MXFP8 ones, which can carry NaN (R109). -/
def Fmt.isMxFp8 : Fmt → Bool
  | .mxE4m3 | .mxE5m2 => true
  | _ => false

/-- One microscaling block: the scale byte, the elements' codes and the count of R79 (R108, R109). Each value comes with
its own rounding mode, since stochastic words differ by element. -/
def mxBlock (f : Fmt) (vs : List (Val × Rnd)) : Nat × List Nat × Nat :=
  let x := mxX f (vs.map Prod.fst)
  let special := (vs.map Prod.fst).any (fun v => !v.isFin)
  if !f.isMxFp8 && (special || x > 127) then
    (0xFF, vs.map (fun _ => 0), if special then 0 else 1)
  else
    let x := if x > 127 then 127 else x
    let es := vs.map (fun v => convert f v.2 (scaleVal x v.1))
    ((x + 127).toNat, es.map Prod.fst, (es.filter Prod.snd).length)

/-- A 16-bit result from the integer that rounding gave, under the saturation mode; the flag says it was outside the
range (R130). -/
def fit16 (sat : Bool) (n : Int) : BitVec 16 × Bool :=
  if n > 32767 then (if sat then 0x7FFF#16 else BitVec.ofInt 16 n, true)
  else if n < -32768 then (if sat then 0x8000#16 else BitVec.ofInt 16 n, true)
  else (BitVec.ofInt 16 n, false)

/-- The integer nearest to x / 2^k, ties to even (R130). -/
def rneShift (x : Int) (k : Nat) : Int :=
  let n := roundTo .rne x.natAbs 0 k
  if x < 0 then -(n : Int) else n

/-- Redundant sign bits of a w-bit integer (R129). -/
def rsb (w : Nat) (x : Int) : Nat :=
  let m := if x < 0 then (-x - 1).toNat else x.toNat
  if m = 0 then w - 1 else w - 2 - Nat.log2 m

end Sys2Proof.Machine
end

