-- ==== Sys2Proof/Machine/TileParts.lean ====
section
/-! DEFINITION. The state of one physical tile slot: its local memory (R17), its operand queues (R160), its array (03),
its sequencer's contexts (R113) and its column-result queue (R77, R121). Every field's default is what it holds after
a changeover (R47); the registers of the slot keep theirs. -/

namespace Sys2Proof.Machine

/-- A vector of 32 lanes of 16 bits, all 0. -/
def lanes0 : List (BitVec 16) := List.replicate 32 0

/-- 32 accumulator lanes, all 0. -/
def acc0 : List (BitVec 40) := List.replicate 32 0

/-- 32 wide lanes, all +0. -/
def wide0 : List (BitVec 48) := List.replicate 32 0

/-- One entry of a context's loop stack (R140). -/
structure LoopEnt where
  first : Nat
  last : Nat
  left : Nat
  deriving DecidableEq, Repr

/-- A branch whose delay slot is still to run (R138): its target if it is taken, and whether it is `RTE`. -/
structure DelayedBranch where
  target : Option Nat
  rte : Bool
  deriving DecidableEq, Repr

/-- The registers of one task context (R113, R120, R123, R127, R140), with what the hazards of R143 need of the bundle
before the last one. -/
structure CtxRegs where
  d : Tab (List (BitVec 16)) := []
  accA : List (BitVec 40) := acc0
  accB : List (BitVec 40) := acc0
  w : List (BitVec 48) := wide0
  a : Tab (BitVec 20) := []
  b : Tab (BitVec 20) := []
  c : Tab (BitVec 12) := []
  m : Tab Word := []
  vexp : BitVec 16 := 0
  bexp : BitVec 4 := 0
  srTid : Word := 0
  srEidx : DWord := 0
  srStep : Word := 0
  mxsa : BitVec 19 := 0
  evb : BitVec 13 := 0
  emask : BitVec 4 := 0
  er : BitVec 13 := 0
  es : BitVec 16 := 0
  cstat : BitVec 3 := 0
  accPrevA : List (BitVec 40) := acc0
  accPrevB : List (BitVec 40) := acc0
  aPrev : Tab (BitVec 20) := []
  deriving DecidableEq, Repr

/-- One task context: its registers and where its sequencing stands (R115, R116, R138 to R140). `leaving` says that the
branch in flight is `EXIT`'s, and `repHeld` keeps the count of a `REP` that the error event has broken into (R142). -/
structure Ctx where
  r : CtxRegs := {}
  task : Bool := false
  ended : Bool := false
  progAddr : Nat := 0
  arg : Nat := 0
  budget : Nat := 0
  pc : Nat := 0
  loops : List LoopEnt := []
  rep : Nat := 0
  branch : Option DelayedBranch := none
  leaving : Bool := false
  repHeld : Nat := 0
  ldcr : Option (Nat × Word) := none
  waitp : Bool := false
  waitCrd : Bool := false
  late : Bool := false
  yield : Bool := false
  safe : Bool := true
  deriving DecidableEq, Repr

/-- One pass-list entry of the tile in the present tick (R37) with its descriptor (R80), and what became of it. -/
structure PassWork where
  seq : Nat := 0
  ctx : Nat := 0
  waitArm : Bool := false
  budget : Nat := 0
  desc : List Byte := []
  released : Bool := false
  started : Bool := false
  committed : Bool := false
  withdrawn : Bool := false
  discarded : Bool := false
  replay : Bool := false
  delivered : Nat := 0
  deriving DecidableEq, Repr

/-- One pass in the array: its position among the tile's passes, the streaming rows fed so far and those of them taken
from the queue (R67, R83). -/
structure ArrJob where
  idx : Nat := 0
  fed : Nat := 0
  held : Bool := false
  deriving DecidableEq, Repr

/-- One row of the column-result queue (R121). -/
structure CrqRow where
  ctx : Nat
  vals : List (BitVec 48)
  deriving DecidableEq, Repr

/-- Whose tick the slot is running: the session and image of the work, the image tile and cluster the slot stands for,
the slice of the cluster buffer (R42), and the seeds and the counter of R110. -/
structure TileJob where
  sess : Nat := 0
  image : Nat := 0
  tile : Nat := 0
  sub : Nat := 0
  sliceBase : Nat := 0
  sessSeed : Nat := 0
  schedSeed : Nat := 0
  counter : Nat := 0
  carry : Bool := false
  deriving DecidableEq, Repr

/-- The registers of the slot's `TILE_` window (03, 05), which stay with the slot; `W1C` flags are kept here too. -/
structure TileRegs where
  discard : Bool := false
  qstall : Bool := false
  kind : Nat := 0
  subpass : Nat := 0
  commits : Nat := 0
  lastCount : Nat := 0
  ovf : Bool := false
  err : Bool := false
  fatal : Bool := false
  spec : Bool := false
  dlate : BitVec 4 := 0
  switches : Nat := 0
  cause : Nat := 0
  errCtx : Nat := 0
  taken : Bool := false
  valid : Bool := false
  errPc : Nat := 0
  switchesAll : Nat := 0
  lateAll : Nat := 0
  deriving DecidableEq, Repr

/-- One physical tile slot. The queues are kept as rows of 64 bytes, oldest first; the rows that started passes have
consumed stay in front until those passes commit (R160). `sq0` and `tq0` are the queues as they stood when the tick was
issued, which a rerun of the tick's work takes up again (R59, R336). -/
structure Tile where
  loc : Mem := []
  sq : List (List Byte) := []
  sqTaken : Nat := 0
  tq : List (List Byte) := []
  tqTaken : Nat := 0
  sq0 : List (List Byte) := []
  tq0 : List (List Byte) := []
  job : Option TileJob := none
  passes : List PassWork := []
  array : List ArrJob := []
  crq : List CrqRow := []
  cur : Nat := 0
  ctx0 : Ctx := {}
  ctx1 : Ctx := {}
  ctx2 : Ctx := {}
  ctx3 : Ctx := {}
  tickOvf : Nat := 0
  r : TileRegs := {}
  deriving DecidableEq, Repr

/-- A context of a tile by number. -/
def Tile.ctx (t : Tile) (c : Nat) : Ctx :=
  if c = 0 then t.ctx0 else if c = 1 then t.ctx1 else if c = 2 then t.ctx2 else t.ctx3

/-- A tile with one context changed. -/
def Tile.setCtx (t : Tile) (c : Nat) (x : Ctx) : Tile :=
  if c = 0 then { t with ctx0 := x }
  else if c = 1 then { t with ctx1 := x }
  else if c = 2 then { t with ctx2 := x }
  else { t with ctx3 := x }

/-- Offsets of the parts of local memory in the order of R17 and R179: operand store, queue memory, X, Y, program. -/
def xBase : Nat := 0x90000

/-- Where Y memory begins in local memory (R17, R179). -/
def yBase : Nat := 0xA0000

/-- Where program memory begins in local memory (R17, R179). -/
def progBase : Nat := 0xB0000

end Sys2Proof.Machine
end

