-- ==== Sys2Proof/Machine/Sequencer.lean ====
section
/-! DEFINITION. The tile sequencer (05): control registers (R123), addressing (R125 to R127), the vector operations
(R128 to R136), the control operations (R137 to R140), events and errors (R141, R142) and the hazards of R143. One
bundle is executed by `runBundle`; every operation command of the block is such an execution. -/

namespace Sys2Proof.Machine

/-- A data register of a context. -/
def CtxRegs.dreg (r : CtxRegs) (n : Nat) : List (BitVec 16) := look lanes0 r.d n

/-- An address register's value. -/
def CtxRegs.areg (r : CtxRegs) (n : Nat) : Nat := (look 0 r.a n).toNat

/-- An address register written by a control operation: its companions follow (R127). -/
def CtxRegs.setA (r : CtxRegs) (n : Nat) (v : BitVec 20) : CtxRegs :=
  { r with a := put 0 r.a n v, b := put 0 r.b n v, c := put 0 r.c n 0 }

/-- `SAT`, the saturation mode (R123). -/
def CtxRegs.sat (r : CtxRegs) : Bool := r.cstat.getLsbD 0

/-- `ES.INH`: in a handler (R123). -/
def CtxRegs.inh (r : CtxRegs) : Bool := r.es.getLsbD 9

/-- Iterations left in the innermost active loop, the one in progress counted (R123, R140; log entry 17). -/
def Ctx.lrem (x : Ctx) : Nat :=
  match x.loops with
  | [] => 0
  | l :: _ => l.left

/-- A control register read as 32 bits (R123); numbers 29 to 31 read 0. -/
def ctlRead (x : Ctx) (n : Nat) : Word :=
  if n < 8 then (look 0 x.r.a n).setWidth 32
  else if n < 16 then look 0 x.r.m (n - 8)
  else if n = 16 then x.r.vexp.signExtend 32
  else if n = 17 then x.r.bexp.setWidth 32
  else if n = 18 then x.r.srTid
  else if n = 19 then x.r.srEidx.setWidth 32
  else if n = 20 then (x.r.srEidx >>> 32).setWidth 32
  else if n = 21 then x.r.srStep
  else if n = 22 then x.r.mxsa.setWidth 32
  else if n = 23 then x.r.evb.setWidth 32
  else if n = 24 then x.r.emask.setWidth 32
  else if n = 25 then x.r.er.setWidth 32
  else if n = 26 then x.r.es.setWidth 32
  else if n = 27 then x.r.cstat.setWidth 32
  else if n = 28 then BitVec.ofNat 32 x.lrem
  else 0

/-- A control register written (R123, R127). Reserved bits of `ES` stay 0. -/
def ctlWrite (r : CtxRegs) (n : Nat) (v : Word) : CtxRegs :=
  if n < 8 then r.setA n (v.setWidth 20)
  else if n < 16 then { r with m := put 0 r.m (n - 8) v }
  else if n = 16 then { r with vexp := v.setWidth 16 }
  else if n = 17 then { r with bexp := v.setWidth 4 }
  else if n = 18 then { r with srTid := v }
  else if n = 19 then { r with srEidx := (r.srEidx &&& 0xFFFFFFFF00000000#64) ||| v.setWidth 64 }
  else if n = 20 then { r with srEidx := (r.srEidx &&& 0xFFFFFFFF#64) ||| (v.setWidth 64 <<< 32) }
  else if n = 21 then { r with srStep := v }
  else if n = 22 then { r with mxsa := v.setWidth 19 }
  else if n = 23 then { r with evb := v.setWidth 13 }
  else if n = 24 then { r with emask := v.setWidth 4 }
  else if n = 25 then { r with er := v.setWidth 13 }
  else if n = 26 then { r with es := v.setWidth 16 &&& 0xF23F#16 }
  else if n = 27 then { r with cstat := v.setWidth 3 }
  else r

/-- The addressing mode of an address register: its modifier's `MODE` (R127). -/
def modOf (r : CtxRegs) (n : Nat) : Nat := bitsOf (look 0 r.m n).toNat 31 30

/-- `LEN` of a modifier register (R127). -/
def lenOf (r : CtxRegs) (n : Nat) : Nat := bitsOf (look 0 r.m n).toNat 29 20

/-- `INC` of a modifier register, signed (R127). -/
def incOf (r : CtxRegs) (n : Nat) : Int := signed 20 (look 0 r.m n).toNat

/-- The order of the k low bits reversed (R127). -/
def revBits : Nat → Nat → Nat
  | 0, _ => 0
  | k + 1, c => (c % 2) * 2 ^ k + revBits k (c / 2)

/-- The order of the k/2 two-bit digits reversed (R127); j digits. -/
def revDigits : Nat → Nat → Nat
  | 0, _ => 0
  | j + 1, c => (c % 4) * 4 ^ j + revDigits j (c / 4)

/-- Whether the modifier of An is one R127 allows. -/
def modOk (r : CtxRegs) (n : Nat) : Bool :=
  let mode := modOf r n
  let l := lenOf r n
  if mode < 2 then true
  else decide (1 ≤ l) && decide (l ≤ 12) && (mode == 2 || l % 2 == 0)

/-- The effective address of a move through An (R127). -/
def eaOf (r : CtxRegs) (n : Nat) : Nat :=
  let a := r.areg n
  let c := (look 0 r.c n).toNat
  let k := lenOf r n
  if modOf r n = 2 then (a + revBits k (c % 2 ^ k) * 64) % 2 ^ 20
  else if modOf r n = 3 then (a + revDigits (k / 2) (c % 2 ^ k) * 64) % 2 ^ 20
  else a

/-- What an advance through An writes: a new An or a new walk counter (R127). -/
inductive Advance where
  | a (v : BitVec 20)
  | c (v : BitVec 12)
  deriving DecidableEq, Repr

/-- The advance of R127. -/
def advOf (r : CtxRegs) (n : Nat) : Advance :=
  let inc := incOf r n
  let mode := modOf r n
  if mode = 0 then .a (BitVec.ofInt 20 ((r.areg n : Int) + inc))
  else if mode = 1 then
    let len : Int := ((lenOf r n + 1) * 64 : Nat)
    let off := (r.areg n : Int) - (look 0 r.b n).toNat + inc
    let off := if off ≥ len then off - len else off
    let off := if off < 0 then off + len else off
    .a (BitVec.ofInt 20 (((look 0 r.b n).toNat : Int) + off))
  else
    .c (BitVec.ofNat 12 (wrapTo (lenOf r n) (((look 0 r.c n).toNat : Int) + inc)))

/-- An advance applied. -/
def putAdv (r : CtxRegs) (n : Nat) : Advance → CtxRegs
  | .a v => { r with a := put 0 r.a n v }
  | .c v => { r with c := put 0 r.c n v }

/-- The 64 bytes of a vector of lanes (05, R120 mapping: lane n holds bytes 2n and 2n + 1). -/
def laneBytes (l : List (BitVec 16)) : List Byte := l.flatMap (fun v => leBytes 2 v.toNat)

/-- A vector of lanes from local memory. -/
def readLanes (m : Mem) (a : Nat) : List (BitVec 16) :=
  (List.range 32).map (fun n => BitVec.ofNat 16 (ofLe (rdBytes m (a + 2 * n) 2)))

/-- What one move field does (R124 to R126). -/
structure MovAct where
  cause : Option Nat := none
  load : Option (Nat × List (BitVec 16)) := none
  store : Option (Nat × List Byte) := none
  adv : Option Nat := none
  toStore : Bool := false

/-- A move field evaluated (R125, R126): `isX` for the X move. -/
def movAct (m : Mem) (r : CtxRegs) (isX : Bool) (f : Nat) : MovAct :=
  let kind := bitsOf f 11 10
  let d := bitsOf f 9 7
  let n := bitsOf f 6 4
  if f % 8 ≠ 0 then { cause := some 1 }
  else if kind = 0 then (if f = 0 then {} else { cause := some 1 })
  else if !modOk r n then { cause := some 1, toStore := kind == 3 && !isX }
  else
    let ea := eaOf r n
    let lim := if kind = 3 then 0x80000 else 0x10000
    if ea % 64 ≠ 0 || ea ≥ lim then { cause := some 2, toStore := kind == 3 && !isX }
    else
      let base := if kind = 3 then 0 else if isX then xBase else yBase
      let adv := if bitAt f 3 then some n else none
      if kind = 1 || (kind = 3 && isX) then { load := some (d, readLanes m (base + ea)), adv := adv }
      else { store := some (base + ea, laneBytes (r.dreg d)), adv := adv, toStore := kind == 3 }

/-- What the vector field does (R128 to R136). -/
structure VecAct where
  cause : Option Nat := none
  d : Option (Nat × List (BitVec 16)) := none
  acc : Option (Bool × List (BitVec 40)) := none
  w : Option (List (BitVec 48)) := none
  vexp : Option (BitVec 16) := none
  bexp : Option (BitVec 4) := none
  qsat : Bool := false
  spec : Bool := false
  mxsa : Option (BitVec 19) := none
  eidx : Option DWord := none
  adv : Option Nat := none
  store : List (Nat × List Byte) := []
  pop : Bool := false
  wait : Bool := false
  ovf : Option Nat := none

/-- Lane by lane over two vectors. -/
def lanes2 (f : Int → Int → Int) (a b : List (BitVec 16)) : List Int :=
  List.zipWith (fun x y => f x.toInt y.toInt) a b

/-- An accumulator with an integer added in each lane, modulo 2^40 (R128). -/
def accAdd (acc : List (BitVec 40)) (v : List Int) : List (BitVec 40) :=
  List.zipWith (fun x y => x + BitVec.ofInt 40 y) acc v

/-- A shift of an accumulator lane: left if positive, arithmetic right with truncation if negative (R128). -/
def accShift (k : Int) (x : BitVec 40) : BitVec 40 :=
  if k ≥ 0 then x <<< k.toNat else x.sshiftRight (-k).toNat

/-- The shift of `NORM`: D[S1] - 9, its magnitude saturating at 39 (R128). -/
def normBy (d : BitVec 16) : Int :=
  let k := d.toInt - 9
  if k > 39 then 39 else if k < -39 then -39 else k

/-- A data-register result with r16's saturation (R130) and the block-exponent detector (R131). -/
def dResult (r : CtxRegs) (dd : Nat) (det : Bool) (q : Bool) (l : List (BitVec 16)) : VecAct :=
  let low := l.foldl (fun m v => Nat.min m (rsb 16 v.toInt)) r.bexp.toNat
  { d := some (dd, l), qsat := q, bexp := if det then some (BitVec.ofNat 4 low) else none }

/-- r16 over exact integers (R130). -/
def fitLanes (r : CtxRegs) (dd : Nat) (det : Bool) (l : List Int) : VecAct :=
  let f := l.map (fit16 r.sat)
  dResult r dd det (f.any Prod.snd) (f.map Prod.fst)

/-- The shared exponent of `BFC` (R133). -/
def bfcExp (w : List (BitVec 48)) : Int :=
  let (m, q) := aMax (w.map decode48)
  if m = 0 then 0 else expOf m q + 1 - 15

/-- One lane of `BFC` (R133). -/
def bfcLane (e : Int) (v : BitVec 48) : BitVec 16 :=
  match decode48 v with
  | .nan => 0
  | .inf s => if s then 0x8000#16 else 0x7FFF#16
  | .fin s m q =>
    let t := roundTo .rne m q e
    if s then BitVec.ofInt 16 (-(t : Int)) else if t > 32767 then 0x7FFF#16 else BitVec.ofNat 16 t

/-- One lane of `FLT` (R134). -/
def fltLane (e : Int) (d : BitVec 16) : BitVec 48 :=
  if d = 0 then zero48 false else encode48 (decide (d.toInt < 0)) d.toInt.natAbs e

/-- The bytes of a row of element codes, packed as R61 gives: two per byte for 4-bit formats. -/
def packCodes (bits : Nat) : List Nat → List Byte
  | [] => []
  | [a] => if bits = 4 then [BitVec.ofNat 8 (a % 16)] else leBytes (bits / 8) a
  | a :: b :: r =>
    if bits = 4 then BitVec.ofNat 8 (a % 16 + 16 * (b % 16)) :: packCodes bits r
    else leBytes (bits / 8) a ++ packCodes bits (b :: r)

/-- The rounding of a conversion: code 0, 1 or 2 (R80, R105); stochastic words come from R110. -/
def rndOf (code word : Nat) : Rnd := if code = 0 then .rne else if code = 1 then .zero else .stoch word

/-- `CST` (R135, R136); the count of its outputs goes to `TILE_ARR_OVF` as a pass's does (log entry 56). -/
def cstAct (j : TileJob) (r : CtxRegs) (f : Nat) : VecAct :=
  let rnd := bitsOf f 7 6
  let n := bitsOf f 5 3
  match Fmt.ofCode (bitsOf f 13 8) with
  | Option.none => { cause := some 1 }
  | some fmt =>
    if fmt = .none || rnd = 3 || f % 4 ≠ 0 then { cause := some 1 }
    else if bitAt f 2 && !modOk r n then { cause := some 1 }
    else
      let size := fmt.bits * 4
      let a := r.areg n
      if a % (if size < 64 then size else 64) ≠ 0 || a + size > 0x80000 then { cause := some 2 }
      else
        let word := fun i => srWord j.sessSeed j.schedSeed j.counter r.srTid.toNat ((r.srEidx.toNat + i) % 2 ^ 64)
        let vs := (List.range 32).map (fun i =>
          (decode48 (r.w.getD i 0), rndOf rnd (if rnd = 2 then word i else 0)))
        let adv := if bitAt f 2 then some n else none
        let eidx := if rnd = 2 then some (r.srEidx + r.srStep.signExtend 64) else none
        if fmt.isMx then
          let (sc, codes, cnt) := mxBlock fmt vs
          { store := [(a, packCodes fmt.bits codes), (r.mxsa.toNat, [BitVec.ofNat 8 sc])],
            mxsa := some (r.mxsa + 1), adv := adv, eidx := eidx, ovf := some cnt }
        else
          let es := vs.map (fun v => convert fmt v.2 v.1)
          { store := [(a, packCodes fmt.bits (es.map Prod.fst))], adv := adv, eidx := eidx,
            ovf := some (es.filter Prod.snd).length }

/-- Whether the context has a pass still to deliver rows to the column-result queue (R142, cause 6). -/
def PassWork.rowsDue (p : PassWork) : Bool :=
  bitsOf (fld p.desc 5 1) 1 0 == 3 && !p.withdrawn && !p.discarded &&
    decide (p.delivered < fld p.desc 6 2 * (1 + bitsOf (fld p.desc 0 1) 2 2))

/-- `CRD` (R121): the oldest row of the context, a wait, or cause 6. -/
def crdAct (t : Tile) (c : Nat) : VecAct :=
  match t.crq.find? (fun q => q.ctx == c) with
  | some q => { w := some q.vals, pop := true }
  | none => if t.passes.any (fun p => p.ctx == c && p.rowsDue) then { wait := true } else { cause := some 6 }

/-- The vector field evaluated (R128). -/
def vecAct (t : Tile) (c : Nat) (f : Nat) : VecAct :=
  let x := t.ctx c
  let r := x.r
  let op := bitsOf f 19 14
  let d1 := r.dreg (bitsOf f 13 11)
  let d2 := r.dreg (bitsOf f 10 8)
  let isB := bitAt f 7
  let dd := bitsOf f 6 4
  let det := bitAt f 3
  let sh := bitsOf f 10 8
  let acc := if isB then r.accB else r.accA
  let accOld := if isB then r.accPrevB else r.accPrevA
  let p := lanes2 (· * ·) d1 d2
  let neg := fun (l : List Int) => l.map (fun v => -v)
  let wide := d1.map (fun v => v.toInt * 2 ^ 15)
  if op = 0x13 then cstAct (t.job.getD {}) r f
  else if op > 0x13 || f % 8 ≠ 0 then { cause := some 1 }
  else if op = 0 then {}
  else if op = 1 then { acc := some (isB, p.map (BitVec.ofInt 40)) }
  else if op = 2 then { acc := some (isB, accAdd acc p) }
  else if op = 3 then { acc := some (isB, accAdd acc (neg p)) }
  else if op = 4 then { acc := some (isB, wide.map (BitVec.ofInt 40)) }
  else if op = 5 then { acc := some (isB, accAdd acc wide) }
  else if op = 6 then { acc := some (isB, accAdd acc (neg wide)) }
  else if op = 7 then { acc := some (isB, acc.map (accShift (signed 6 (bitsOf f 13 8)))) }
  else if op = 8 then fitLanes r dd det (accOld.map (fun v => rneShift v.toInt (15 + sh)))
  else if op = 9 then dResult r dd det false (accOld.map (fun v => BitVec.ofNat 16 (rsb 40 v.toInt)))
  else if op = 10 then { acc := some (isB, List.zipWith (fun v d => accShift (normBy d) v) accOld d1) }
  else if op = 11 then fitLanes r dd det (lanes2 (· + ·) d1 d2)
  else if op = 12 then fitLanes r dd det (lanes2 (· - ·) d1 d2)
  else if op = 13 then fitLanes r dd det (d1.map (fun v => -v.toInt))
  else if op = 14 then dResult r dd det false (d1.map (fun v => BitVec.ofInt 16 (rneShift v.toInt sh)))
  else if op = 15 then dResult r dd det false d1
  else if op = 16 then crdAct t c
  else if op = 17 then
    let e := bfcExp r.w
    let v := dResult r dd det false (r.w.map (bfcLane e))
    { v with vexp := some (BitVec.ofInt 16 e), spec := r.w.any (fun x => !(decode48 x).isFin) }
  else { w := some (d1.map (fltLane r.vexp.toInt)) }

/-- How a control operation moves the context on (R137 to R140). -/
inductive Flow where
  | next
  | branch (b : DelayedBranch) (leaves : Bool)
  | rep (n : Nat)
  | skipOne
  | skipBody (last : Nat)
  | push (l : LoopEnt)
  | pass
  | waitp
  | yield
  | done
  deriving DecidableEq, Repr

/-- What the control field does. -/
structure CtlAct where
  cause : Option Nat := none
  flow : Flow := .next
  areg : Option (Nat × BitVec 20) := none
  creg : Option (Nat × Word) := none
  ldcr : Option (Nat × Word) := none
  sat : Option Bool := none
  store : Option (Nat × List Byte) := none

/-- The operand bits that R137 leaves unused for each code. -/
def unusedBits (cop : Nat) : Nat :=
  if cop = 0x01 || cop = 0x02 then 0x6000
  else if cop = 0x03 || cop = 0x06 then 0x0FFF
  else if cop = 0x04 || cop = 0x05 || cop = 0x07 || cop = 0x0F || cop = 0x11 then 0
  else if cop = 0x08 then 0x0E00
  else if cop = 0x10 then 0x0F00
  else if cop = 0x12 then 0x001F
  else if cop = 0x13 || cop = 0x14 then 0x003F
  else if cop = 0x16 then 0x7FFE
  else if cop = 0x17 then 0x7000
  else 0x7FFF

/-- The value of An that `BR` and `JMPR` read: that before the bundle before this one (R143). -/
def aLate (r : CtxRegs) (n : Nat) : Nat := (look 0 r.aPrev n).toNat

/-- A `DO` or `DOA` of `n` iterations and the given end offset at `pc` (R140; log entry 25). -/
def loopAct (x : Ctx) (pc off n : Nat) : CtlAct :=
  if off = 0 then { cause := some 1 }
  else if x.loops.length ≥ 3 then { cause := some 3 }
  else if (match x.loops with | [] => false | l :: _ => decide (pc + off > l.last)) then { cause := some 3 }
  else if n = 0 then { flow := .skipBody (pc + off) }
  else { flow := .push ⟨pc + 1, pc + off, n⟩ }

/-- The control field evaluated (R137); `left` tells whether the context has a pass left to release. -/
def ctlAct (m : Mem) (x : Ctx) (left : Bool) (f : Nat) : CtlAct :=
  let cop := f / 2 ^ 15
  let o := f % 2 ^ 15
  let r := x.r
  let n := bitsOf o 14 12
  let pc := x.pc
  if cop > 0x17 || Nat.land o (unusedBits cop) ≠ 0 then { cause := some 1 }
  else if cop = 0x00 then {}
  else if cop = 0x01 then { flow := .branch ⟨some (o % 8192), false⟩ false }
  else if cop = 0x02 then
    { flow := .branch ⟨some (o % 8192), false⟩ false, areg := some (7, BitVec.ofNat 20 (pc + 2)) }
  else if cop = 0x03 then { flow := .branch ⟨some (aLate r n % 8192), false⟩ false }
  else if cop = 0x04 then
    let cc := bitsOf o 14 13
    let v := aLate r (bitsOf o 12 10)
    let taken := cc == 0 || (cc == 1 && v == 0) || (cc == 2 && v != 0) || (cc == 3 && bitAt v 19)
    { flow := .branch ⟨if taken then some (wrapTo 13 ((pc : Int) + signed 10 o)) else none, false⟩ false }
  else if cop = 0x05 then { flow := .rep (o + 1) }
  else if cop = 0x06 then
    (if r.areg n % 2 ^ 16 = 0 then { flow := .skipOne } else { flow := .rep (r.areg n % 2 ^ 16) })
  else if cop = 0x07 then loopAct x pc (bitsOf o 8 0) (bitsOf o 14 9 + 1)
  else if cop = 0x08 then loopAct x pc (bitsOf o 8 0) (r.areg n % 2 ^ 16)
  else if cop = 0x09 then
    (match x.loops with
    | [] => { cause := some 3 }
    | l :: _ => { flow := .branch ⟨some ((l.last + 1)), false⟩ true })
  else if cop = 0x0A then (if left then { flow := .pass } else { cause := some 5 })
  else if cop = 0x0B then { flow := .waitp }
  else if cop = 0x0C then { flow := .yield }
  else if cop = 0x0D then { flow := .done }
  else if cop = 0x0E then
    (if r.inh then { flow := .branch ⟨some r.er.toNat, true⟩ false } else { cause := some 8 })
  else if cop = 0x0F then { areg := some (n, BitVec.ofNat 20 (o % 4096)) }
  else if cop = 0x10 then { areg := some (n, BitVec.ofNat 20 (r.areg n % 4096 + (o % 256) * 4096)) }
  else if cop = 0x11 then { areg := some (n, BitVec.ofInt 20 ((r.areg n : Int) + signed 12 o)) }
  else if cop = 0x12 then
    (let rd := bitsOf o 14 10
    if rd ≥ 28 then { cause := some 1 } else { creg := some (rd, ctlRead x (bitsOf o 9 5)) })
  else if cop = 0x13 || cop = 0x14 then
    (let q := bitsOf o 14 10
    let an := bitsOf o 9 7
    let a := r.areg an
    let inc := if bitAt o 6 then some (an, BitVec.ofNat 20 (a + 4)) else none
    if cop = 0x13 && q ≥ 28 then { cause := some 1 }
    else if a % 4 ≠ 0 || a ≥ 0x10000 then { cause := some 2 }
    else if cop = 0x13 then
      { areg := inc, ldcr := some (q, BitVec.ofNat 32 (ofLe (rdBytes m (xBase + a) 4))) }
    else { areg := inc, store := some (xBase + a, leBytes 4 (ctlRead x q).toNat) })
  else if cop = 0x15 then { creg := some (17, 15) }
  else if cop = 0x16 then { sat := some (bitAt o 0) }
  else { creg := some (16, (BitVec.ofInt 16 (r.vexp.toInt + signed 12 o)).setWidth 32) }

/-- The operations that a delay slot must not hold (R138). -/
def notInSlot (cop : Nat) : Bool :=
  (decide (1 ≤ cop) && decide (cop ≤ 9)) || cop == 0x0D || cop == 0x0E

/-- The context's next pass to release: the lowest SEQ not released (R118). -/
def nextRelease (ps : List PassWork) (c : Nat) : Option Nat :=
  (posWhere (fun (p : PassWork) => p.ctx == c && !p.released && !p.withdrawn && !p.discarded) 0 ps).head?

/-- A pass released (R118). -/
def releaseAt (ps : List PassWork) (i : Nat) : List PassWork := setAt ps i (fun p => { p with released := true })

/-- Every pass of the context released (R118, `END`). -/
def releaseAll (ps : List PassWork) (c : Nat) : List PassWork :=
  ps.map (fun p => if p.ctx = c && !p.withdrawn then { p with released := true } else p)

/-- The passes of a context stopped by a fatal error that it has not released, withdrawn (R142). -/
def withdrawAll (ps : List PassWork) (c : Nat) : List PassWork :=
  ps.map (fun p => if p.ctx = c && !p.released then { p with withdrawn := true } else p)

/-- The lowest of the causes a bundle raises (R142). -/
def lowest : List (Option Nat) → Option Nat
  | [] => none
  | none :: r => lowest r
  | some c :: r =>
    match lowest r with
    | none => some c
    | some d => some (if c ≤ d then c else d)

/-- The bundle after the last one executed, with loops ended or begun again (R138, R140): the next address, the loops
left and whether an iteration ended. -/
def loopEnd (at_ : Nat) : List LoopEnt → Nat × List LoopEnt × Bool
  | [] => (at_ + 1, [], false)
  | l :: r =>
    if at_ = l.last then
      if l.left > 1 then (l.first, { l with left := l.left - 1 } :: r, true)
      else let (n, q, _) := loopEnd at_ r; (n, q, true)
    else (at_ + 1, l :: r, false)

/-- The context moved on sequentially from the bundle at `at_`; the safe point of R138. -/
def goOn (x : Ctx) (at_ : Nat) : Ctx :=
  let (n, q, hit) := loopEnd at_ x.loops
  { x with pc := n, loops := q, safe := hit || q.isEmpty }

/-- Where the context continues after a bundle whose control field asks for `fl` (R138 to R140). -/
def advanceCtx (x : Ctx) (fl : Flow) : Ctx :=
  match x.branch with
  | some b =>
    let safe := x.loops.isEmpty || x.leaving
    let x := { x with branch := none, leaving := false }
    let x := if b.rte then { x with r := { x.r with es := x.r.es &&& 0xFDFF#16 }, rep := x.repHeld, repHeld := 0 } else x
    match b.target with
    | none => goOn x x.pc
    | some t => { x with pc := t, safe := safe && x.rep == 0 }
  | none =>
    match fl with
    | .branch b leaves =>
      { x with branch := some b, leaving := leaves, loops := if leaves then x.loops.tail else x.loops, pc := x.pc + 1,
               safe := false }
    | .rep n => { x with rep := n, pc := x.pc + 1, safe := false }
    | .skipOne => goOn x (x.pc + 1)
    | .skipBody last => goOn x last
    | .push l => { x with loops := l :: x.loops, pc := x.pc + 1, safe := false }
    | _ =>
      if x.rep > 1 then { x with rep := x.rep - 1, safe := false }
      else goOn { x with rep := 0 } x.pc

/-- An event taken (R141): `ER`, `INH`, the event handled, its pending bit, and the handler's address. Only the error event
can break into a `REP`, whose count goes on when the handler returns (R142; log entry 56). -/
def takeEvent (x : Ctx) (e : Nat) : Ctx :=
  let es := (x.r.es &&& ~~~(BitVec.ofNat 16 (0x30 + 2 ^ e))) ||| BitVec.ofNat 16 (0x200 + 16 * e)
  { x with
    r := { x.r with er := BitVec.ofNat 13 x.pc, es := es }
    pc := (x.r.evb.toNat + 4 * e) % 8192
    repHeld := x.rep
    rep := 0
    branch := none
    safe := x.loops.isEmpty }

/-- The error event of a bundle (R142): recorded, then taken at once or fatal. -/
def raiseError (t : Tile) (c : Nat) (x : Ctx) (cause pc : Nat) : Tile :=
  let x := { x with r := { x.r with es := (x.r.es &&& 0x0FFF#16) ||| BitVec.ofNat 16 (cause * 4096 + 1) } }
  let taken := x.r.emask.getLsbD 0 && !x.r.inh
  let g := t.r
  let g := { g with err := true }
  let g := if g.valid then g
    else { g with valid := true, cause := cause, errCtx := c, taken := taken, errPc := pc % 8192 }
  if taken then ({ t with r := g }).setCtx c (takeEvent x 0)
  else ({ t with r := { g with fatal := true }, passes := withdrawAll t.passes c }).setCtx c
    { x with ended := true, rep := 0, branch := none }

/-- The registers a bundle writes at the end of its cycle (R124). The value a pending `LDCR` brings goes in first, so
that a write of this bundle to the same register stays (R143; log entry 18). -/
def writeBack (r : CtxRegs) (due : Option (Nat × Word)) (k : CtlAct) (v : VecAct) (mx my : MovAct) : CtxRegs :=
  let ctlReg := fun (n : Nat) => (match k.creg with | some (q, _) => q == n | none => false) ||
    (match k.ldcr with | some (q, _) => q == n | none => false) ||
    (match k.areg with | some (q, _) => q == n | none => false)
  let advs := [mx.adv, my.adv, v.adv].filterMap id
  let news := advs.map (fun n => (n, advOf r n))
  let a0 := r.accA
  let b0 := r.accB
  let r := match due with | some (n, w) => ctlWrite r n w | none => r
  let r := { r with accPrevA := a0, accPrevB := b0, aPrev := r.a }
  let r := match v.acc with
    | some (isB, l) => if isB then { r with accB := l } else { r with accA := l }
    | none => r
  let r := match v.w with | some l => { r with w := l } | none => r
  let r := match v.d with | some (n, l) => { r with d := put lanes0 r.d n l } | none => r
  let r := match mx.load with | some (n, l) => { r with d := put lanes0 r.d n l } | none => r
  let r := match my.load with | some (n, l) => { r with d := put lanes0 r.d n l } | none => r
  let r := match v.vexp with | some e => if ctlReg 16 then r else { r with vexp := e } | none => r
  let r := match v.bexp with | some e => if ctlReg 17 then r else { r with bexp := e } | none => r
  let r := match v.eidx with | some e => if ctlReg 19 || ctlReg 20 then r else { r with srEidx := e } | none => r
  let r := match v.mxsa with | some e => if ctlReg 22 then r else { r with mxsa := e } | none => r
  let r := if ctlReg 27 then r else
    { r with cstat := r.cstat ||| BitVec.ofNat 3 (4 * b2n v.spec + 2 * b2n v.qsat) }
  let r := news.foldl (fun r p => if ctlReg p.1 then r else putAdv r p.1 p.2) r
  let r := match k.sat with
    | some b => { r with cstat := (r.cstat &&& 6#3) ||| BitVec.ofNat 3 (b2n b) }
    | none => r
  let r := match k.areg with | some (n, w) => r.setA n w | none => r
  match k.creg with | some (n, w) => ctlWrite r n w | none => r

/-- Bytes written to local memory in turn. -/
def wrAll (m : Mem) (ws : List (Nat × List Byte)) : Mem := ws.foldl (fun m w => wrBytes m w.1 w.2) m

/-- The first row of a context's in the column-result queue taken out (R121). -/
def popRow (c : Nat) : List CrqRow → List CrqRow
  | [] => []
  | q :: r => if q.ctx = c then r else q :: popRow c r

/-- One bundle of context `c` executed (R124), its own control, vector and move fields given by the 64-bit word. -/
def runBundle (t : Tile) (c word : Nat) : Tile :=
  let x := t.ctx c
  let pc := x.pc
  let x := { x with waitp := false, waitCrd := false, safe := true }
  let kf := bitsOf word 63 44
  let cop := kf / 2 ^ 15
  let xf := bitsOf word 23 12
  let yf := bitsOf word 11 0
  let k := ctlAct t.loc x (nextRelease t.passes c).isSome kf
  let v := vecAct t c (bitsOf word 43 24)
  let mx := movAct t.loc x.r true xf
  let my := movAct t.loc x.r false yf
  let inLast := match x.loops with | [] => false | l :: _ => l.last == pc
  let misplaced := (cop != 0 && (decide (x.rep > 0) || inLast)) || (x.branch.isSome && notInSlot cop)
  let bothLoad := (bitsOf xf 11 10 == 1 || bitsOf xf 11 10 == 3) && bitsOf yf 11 10 == 1 &&
    bitsOf xf 9 7 == bitsOf yf 9 7
  let twoStores := bitsOf word 43 38 == 0x13 && bitsOf yf 11 10 == 3
  let cause4 := if misplaced || bothLoad || twoStores then some 4 else none
  let past := k.flow != .done && !v.wait && decide ((advanceCtx x k.flow).pc ≥ 8192)
  match lowest [k.cause, v.cause, mx.cause, my.cause, cause4, if past then some 7 else none] with
  | some cause =>
    let r := match x.ldcr with | some (n, w) => ctlWrite x.r n w | none => x.r
    let r := { r with accPrevA := r.accA, accPrevB := r.accB, aPrev := r.a }
    let x := advanceCtx { x with r := r, ldcr := none } .next
    raiseError t c { x with pc := x.pc % 8192 } cause pc
  | none =>
    if v.wait then t.setCtx c { t.ctx c with waitCrd := true }
    else
      let r := writeBack x.r x.ldcr k v mx my
      let stores := [k.store, mx.store, my.store].filterMap id ++ v.store
      let x := advanceCtx { x with r := r, ldcr := k.ldcr } k.flow
      let x := { x with waitp := k.flow == .waitp, yield := x.yield || k.flow == .yield, ended := k.flow == .done }
      let ps := if k.flow = .pass then
          (match nextRelease t.passes c with | some i => releaseAt t.passes i | none => t.passes)
        else if k.flow = .done then releaseAll t.passes c else t.passes
      let g := t.r
      let g := { g with spec := g.spec || v.spec, ovf := g.ovf || decide (v.ovf.getD 0 > 0)
                        lastCount := match v.ovf with | none => g.lastCount | some n => Nat.min n 0xFFFF }
      let t := { t with loc := wrAll t.loc stores, passes := ps, r := g,
                        crq := if v.pop then popRow c t.crq else t.crq }
      t.setCtx c x

/-- A released pass of the context that has neither committed nor been discarded: `WAITP` waits for it (R115, R137). -/
def passesOut (t : Tile) (c : Nat) : Bool :=
  t.passes.any (fun p => p.ctx == c && p.released && !p.committed && !p.discarded && !p.withdrawn)

/-- The context is ready (R115). -/
def ready (t : Tile) (c : Nat) : Bool :=
  let x := t.ctx c
  x.task && !x.ended && !x.late && !(x.waitp && passesOut t c) &&
    !(x.waitCrd && !t.crq.any (fun q => q.ctx == c) && t.passes.any (fun p => p.ctx == c && p.rowsDue))

/-- The event that the running context would take now (R141): the lowest enabled pending one at a safe point. -/
def eventDue (x : Ctx) : Option Nat :=
  if x.safe && !x.r.inh then
    (List.range 4).find? (fun e => x.r.emask.getLsbD e && x.r.es.getLsbD e)
  else none

/-- The running context may execute its next bundle: it is ready, holds no due event and has not yielded (R116, R141). -/
def mayExecute (t : Tile) : Bool :=
  ready t t.cur && (eventDue (t.ctx t.cur)).isNone && !((t.ctx t.cur).yield && (t.ctx t.cur).safe)

/-- The bundle that program memory holds at an address (R452). -/
def bundleAt (t : Tile) (pc : Nat) : Nat := ofLe (rdBytes t.loc (progBase + 8 * pc) 8)

/-- The context the sequencer goes to next: the first ready one of c + 1, c + 2, c + 3, c (R116). -/
def nextCtx (t : Tile) : Option Nat :=
  ([1, 2, 3, 0].map (fun i => (t.cur + i) % 4)).find? (fun c => ready t c)

/-- A switch is due (R116): the running context stands at a safe point and has ended, yielded or is not ready. -/
def switchDue (t : Tile) : Bool :=
  let x := t.ctx t.cur
  x.ended || !x.task || (x.safe && (x.yield || !ready t t.cur))

/-- A switch to the next ready context (R116); going back to the same context is no switch and costs nothing. -/
def switchCtx (t : Tile) : Tile :=
  if switchDue t then
    match nextCtx t with
    | none => t
    | some c =>
      let t := t.setCtx t.cur { t.ctx t.cur with yield := false }
      if c = t.cur then t
      else
        let g := t.r
        { t with cur := c, r := { g with switches := (g.switches + 1) % 65536, switchesAll := g.switchesAll + 1 } }
  else t

/-- An event raised in a context with a task that has not ended (R141). -/
def raiseEvent (t : Tile) (c e : Nat) : Tile :=
  let x := t.ctx c
  if x.task && !x.ended then t.setCtx c { x with r := { x.r with es := x.r.es ||| BitVec.ofNat 16 (2 ^ e) } } else t

/-- An event raised in every context holding a task (R141). -/
def raiseAll (t : Tile) (e : Nat) : Tile := [0, 1, 2, 3].foldl (fun t c => raiseEvent t c e) t

/-- A context set up for its task at the issue of a tick (R113). -/
def startCtx (progAddr arg budget : Nat) : Ctx :=
  let a := BitVec.ofNat 20 arg
  let r : CtxRegs := {}
  let r := { r.setA 0 a with aPrev := put 0 [] 0 a }
  { r := r, task := true, progAddr := progAddr, arg := arg, budget := budget, pc := progAddr }

end Sys2Proof.Machine
end

