-- ==== Sys2Proof/Machine/Array.lean ====
section
/-! DEFINITION. The matrix array (03): the pass descriptor (R80), the operands of a pass in their layouts (R61), the
values it forms (R63, R65, R73 to R76), where they go (R77, R78) and its cycle costs (R67 to R69, R73). -/

namespace Sys2Proof.Machine

/-- The fields of a pass descriptor (R80). -/
structure PDesc where
  kind : Nat
  cplx : Nat
  prec : Nat
  chain : Bool
  fmtA : Nat
  fmtB : Nat
  fmtOut : Nat
  rnd : Nat
  dest : Nat
  accWr : Bool
  aQueue : Bool
  bQueue : Bool
  mx : Bool
  m : Nat
  kValid : Nat
  nValid : Nat
  convR : Nat
  convS : Nat
  pitch : Nat
  aAddr : Nat
  bAddr : Nat
  elemBase : Nat
  accIn : Nat
  accOut : Nat
  outAddr : Nat
  outStride : Nat
  scaleA : Nat
  scaleB : Nat
  tid : Nat
  aStride : Nat
  deriving DecidableEq, Repr

/-- A descriptor's 64 bytes read (R80). -/
def parseDesc (b : List Byte) : PDesc :=
  let mode := fld b 0 1
  let fl := fld b 5 1
  { kind := bitsOf mode 1 0, cplx := bitsOf mode 2 2, prec := bitsOf mode 4 3, chain := bitAt mode 5,
    fmtA := fld b 1 1, fmtB := fld b 2 1, fmtOut := fld b 3 1, rnd := bitsOf (fld b 4 1) 1 0,
    dest := bitsOf fl 1 0, accWr := bitAt fl 2, aQueue := bitAt fl 3, bQueue := bitAt fl 4, mx := bitAt fl 5,
    m := fld b 6 2, kValid := fld b 8 1, nValid := fld b 9 1, convR := fld b 0xA 1, convS := fld b 0xB 1,
    pitch := fld b 0xC 4, aAddr := fld b 0x10 4, bAddr := fld b 0x14 4, elemBase := fld b 0x18 8,
    accIn := fld b 0x20 4, accOut := fld b 0x24 4, outAddr := fld b 0x28 4, outStride := fld b 0x2C 4,
    scaleA := fld b 0x30 4, scaleB := fld b 0x34 4, tid := fld b 0x38 4, aStride := fld b 0x3C 2 }

/-- A format code's format; reserved codes are as the empty one. -/
def fmtOf (c : Nat) : Fmt := (Fmt.ofCode c).getD .none

/-- The pack factor of a descriptor: elements per operand unit (R60, R61). -/
def PDesc.pack (d : PDesc) : Nat := (fmtOf d.fmtB).cls

/-- The K-block: products per column per cycle (R60). -/
def PDesc.kBlk (d : PDesc) : Nat := 32 * d.pack

/-- MX blocks per K-block (R61). -/
def PDesc.nb (d : PDesc) : Nat := d.kBlk / 32

/-- Bytes of a streaming row (R61). -/
def PDesc.aRow (d : PDesc) : Nat := if fmtOf d.fmtA = .fp32 then 128 else 64

/-- Bytes of a stationary block (R61). -/
def PDesc.bBlock (d : PDesc) : Nat := if fmtOf d.fmtB = .fp32 then 4096 else 2048

/-- Sub-passes of a descriptor (R73). -/
def PDesc.subPasses (d : PDesc) : Nat := (1 + 3 * d.cplx) * d.prec

/-- Streaming cycles of one sub-pass (R67). -/
def PDesc.streaming (d : PDesc) : Nat := if d.kind = 1 then d.m * d.convS else d.m

/-- The cost of a descriptor that another pass follows (R68, R69, R73). -/
def PDesc.cost (d : PDesc) : Nat :=
  if d.kind = 2 then d.m * (1 + d.cplx) + 8 else d.subPasses * (32 + d.streaming)

/-- The cost of a descriptor that is the last before idle, a combine or a step (R68, R73). -/
def PDesc.costLast (d : PDesc) : Nat := if d.kind = 2 then d.cost else d.cost + 32

/-- Rows a descriptor delivers to the column-result queue (R121). -/
def PDesc.crqRows (d : PDesc) : Nat := d.m * (1 + d.cplx)

/-- Streaming rows a descriptor takes from the streaming queue (R60, R82). -/
def PDesc.queueRows (d : PDesc) : Nat := if d.aQueue then d.m else 0

/-- Element `k` of a packed run of elements that begins at byte `a` (R61). -/
def elemAt (m : Mem) (f : Fmt) (a k : Nat) : Nat :=
  if f.bits = 4 then
    let b := (rdByte m (a + k / 2)).toNat
    if k % 2 = 0 then b % 16 else b / 16
  else ofLe (rdBytes m (a + k * (f.bits / 8)) (f.bits / 8))

/-- Element `k` of column `c` of a stationary block at `a` (R61). -/
def stationaryAt (m : Mem) (f : Fmt) (a k c : Nat) : Nat :=
  let p := f.cls
  if f = .fp32 then ofLe (rdBytes m (a + k * 128 + 4 * c) 4)
  else
    let base := a + (k / p) * 64 + 2 * c
    if p = 1 then ofLe (rdBytes m base 2)
    else if p = 2 then (rdByte m (base + k % 2)).toNat
    else bitsOf (ofLe (rdBytes m base 2)) (4 * (k % 4) + 3) (4 * (k % 4))

/-- A WA48 entry of an accumulator area (R61). -/
def accAt (m : Mem) (a row col : Nat) : BitVec 48 :=
  BitVec.ofNat 48 (ofLe (rdBytes m (a + row * 256 + col * 8) 6))

/-- An E8M0 scale's exponent; none for the NaN scale 0xFF (R90). -/
def scaleExp (b : Byte) : Option Int := if b = 0xFF then none else some ((b.toNat : Int) - 127)

/-- Which part of an FP32 element a precision term takes (R74, R99). -/
inductive Part where
  | whole | hi | lo
  deriving DecidableEq, Repr

/-- An element's exact value, or that of its hi or lo part (R74, R99). -/
def partVal (f : Fmt) (p : Part) (x : Nat) : Val :=
  match p with
  | .whole => decodeElem f x
  | .hi => decodeElem .bf16 (splitHi x)
  | .lo => decodeElem .bf16 (splitLo x)

/-- A value with its sign changed, NaN excepted (R74, term 2). -/
def Val.neg : Val → Val
  | .nan => .nan
  | .inf s => .inf (!s)
  | .fin s m q => .fin (!s) m q

/-- The precision terms of one complex term, in order (R74). -/
def precTerms (prec : Nat) : List (Part × Part) :=
  if prec = 2 then [(.lo, .whole), (.hi, .whole)]
  else if prec = 3 then [(.lo, .hi), (.hi, .lo), (.hi, .hi)]
  else [(.whole, .whole)]

/-- The complex terms of a plane: the planes of A and B, and whether B's sign is changed (R74). -/
def cplxTerms (cplx plane : Nat) : List (Nat × Nat × Bool) :=
  if cplx = 0 then [(0, 0, false)]
  else if plane = 0 then [(0, 0, false), (1, 1, true)]
  else [(0, 1, false), (1, 0, false)]

/-- Where a pass's operands lie: A and B as memories with base addresses, so that queue operands read alike. -/
structure Operands where
  loc : Mem
  aMem : Mem
  aBase : Nat
  bMem : Mem
  bBase : Nat

/-- One GEMM K-block sum of row `m`, column `n` (R63, R94). -/
def gemmBlock (o : Operands) (d : PDesc) (pa pb : Nat) (neg : Bool) (ta tb : Part) (m n : Nat) : BitVec 48 :=
  let fa := fmtOf d.fmtA
  let fb := fmtOf d.fmtB
  let a := o.aBase + pa * (d.m * d.aRow) + m * d.aRow
  let b := o.bBase + pb * d.bBlock
  kBlock ((List.range d.kValid).map (fun k =>
    let va := partVal fa ta (elemAt o.aMem fa a k)
    let vb := partVal fb tb (stationaryAt o.bMem fb b k n)
    let sa := if d.mx then scaleExp (rdByte o.loc (d.scaleA + pa * (d.m * d.nb) + m * d.nb + k / 32)) else some 0
    let sb := if d.mx then scaleExp (rdByte o.loc (d.scaleB + pb * (32 * d.nb) + k / 32 * 32 + n)) else some 0
    product va (if neg then vb.neg else vb) sa sb))

/-- One convolution K-block: tap `s` of output row `c` at position `x` (R64 to R66). -/
def convBlock (o : Operands) (d : PDesc) (s c x : Nat) : BitVec 48 :=
  let fa := fmtOf d.fmtA
  let fb := fmtOf d.fmtB
  let p := d.pack
  let g := if d.convR = 0 then 0 else 32 / d.convR
  kBlock ((List.range (Nat.min d.kValid (g * p))).flatMap (fun ch =>
    (List.range d.convR).map (fun f =>
      let unit := ch / p
      let a := o.aBase + (unit * (d.nValid + d.convR - 1) + (c + f)) * d.aStride + 2 * (x + s)
      product (decodeElem fa (elemAt o.aMem fa a (ch % p)))
        (decodeElem fb (stationaryAt o.bMem fb o.bBase ((unit * d.convR + f) * p + ch % p) s)) (some 0) (some 0))))

/-- The final value of one present entry (R76): row `m`, column `n` of a plane. -/
def entryVal (o : Operands) (d : PDesc) (plane m n : Nat) : BitVec 48 :=
  let accIn := accAt o.loc (d.accIn + plane * (d.m * 256)) m n
  if d.kind = 2 then waAdd accIn (accAt o.loc (d.bAddr + plane * (d.m * 256)) m n)
  else
    let links :=
      if d.kind = 1 then (List.range d.convS).map (fun s => convBlock o d s n m)
      else (cplxTerms d.cplx plane).flatMap (fun t =>
        (precTerms d.prec).map (fun q => gemmBlock o d t.1 t.2.1 t.2.2 q.1 q.2 m n))
    Sys2Proof.Machine.chain (if d.chain then accIn :: links else links)

/-- The present entries of a row of a plane. -/
def rowVals (o : Operands) (d : PDesc) (plane m : Nat) : List (BitVec 48) :=
  (List.range d.nValid).map (fun n => entryVal o d plane m n)

/-- The element index of output (m, n) for stochastic rounding (R78).
DESIGN CHOICE: a combine's outputs take the formula of GEMM, also where it combines results of convolutions (log entry
56). -/
def elemIndex (d : PDesc) (m n : Nat) : Nat :=
  (if d.kind = 1 then d.elemBase + n * d.pitch + m else d.elemBase + m * d.pitch + n) % 2 ^ 64

/-- One converted output row: its codes, the scale byte of an MX row, and the count of R79. -/
structure OutRow where
  codes : List Nat
  scale : Option Nat
  count : Nat

/-- A row converted to the output format (R77, R78, R104 to R109). -/
def convertRow (j : TileJob) (d : PDesc) (plane m : Nat) (vals : List (BitVec 48)) : OutRow :=
  let f := fmtOf d.fmtOut
  let word := fun n => srWord j.sessSeed j.schedSeed j.counter ((d.tid + plane) % 2 ^ 32) (elemIndex d m n)
  let vs := (List.range vals.length).map (fun n =>
    (decode48 (vals.getD n 0), rndOf d.rnd (if d.rnd = 2 then word n else 0)))
  if f.isMx then
    let (sc, codes, cnt) := mxBlock f vs
    ⟨codes, some sc, cnt⟩
  else
    let es := vs.map (fun v => convert f v.2 v.1)
    ⟨es.map Prod.fst, none, (es.filter Prod.snd).length⟩

/-- A packed row written at byte `a`: an absent half of the last byte of a 4-bit row keeps its value (R71). -/
def putRow (m : Mem) (bits a : Nat) (codes : List Nat) : Mem :=
  let bytes := packCodes bits codes
  if bits = 4 && codes.length % 2 = 1 then
    let i := bytes.length - 1
    let keep := (rdByte m (a + i)).toNat / 16 * 16
    let last := (bytes.getD i 0).toNat
    wrBytes m a (bytes.take i ++ [BitVec.ofNat 8 (last % 16 + keep)])
  else wrBytes m a bytes

/-- The offset of row `m` of a plane's outputs (R75, R77). -/
def outOffset (d : PDesc) (plane m : Nat) : Nat := d.outAddr + plane * (d.m * d.outStride) + m * d.outStride

/-- The offset of the scale byte of that row (R77). -/
def scaleOffset (d : PDesc) (plane m : Nat) : Nat :=
  d.outAddr + (1 + d.cplx) * (d.m * d.outStride) + plane * d.m + m

/-- WA48 values written to the accumulator output (R61, R71, R77). -/
def putAcc (m : Mem) (d : PDesc) (plane row : Nat) (vals : List (BitVec 48)) : Mem :=
  wrBytes m (d.accOut + plane * (d.m * 256) + row * 256) (vals.flatMap (fun v => leBytes 8 v.toNat))

/-- What a committing pass leaves (R77, R84, R210): the tile's local memory, the rows it writes to the cluster buffer by
image offset, the digest blocks of those rows, and the count of R79. -/
structure PassOut where
  loc : Mem
  cb : List (Nat × Nat × List Nat) := []
  blocks : List (Nat × List Byte) := []
  count : Nat := 0

/-- One row's results put where `OUT_DEST` and `ACC_WR` direct (R77). -/
def putOut (j : TileJob) (d : PDesc) (plane m : Nat) (vals : List (BitVec 48)) (w : PassOut) : PassOut :=
  let loc := if d.dest = 0 || d.accWr then putAcc w.loc d plane m vals else w.loc
  if d.dest = 1 || d.dest = 2 then
    let bits := (fmtOf d.fmtOut).bits
    let r := convertRow j d plane m vals
    let at_ := outOffset d plane m
    let sc := match r.scale with | some x => [(scaleOffset d plane m, x)] | none => []
    if d.dest = 1 then
      { w with loc := sc.foldl (fun l p => wrBytes l p.1 (leBytes 1 p.2)) (putRow loc bits at_ r.codes),
               count := w.count + r.count }
    else
      { loc := loc, count := w.count + r.count,
        cb := w.cb ++ [(at_, bits, r.codes)] ++ sc.map (fun p => (p.1, 8, [p.2])),
        blocks := w.blocks ++ [(at_, packCodes bits r.codes)] ++ sc.map (fun p => (p.1, leBytes 1 p.2)) }
  else { w with loc := loc }

/-- The rows of a pass in the order they leave: the real plane, then the imaginary one (R69, R121). -/
def rowOrder (d : PDesc) : List (Nat × Nat) :=
  (List.range (1 + d.cplx)).flatMap (fun p => (List.range d.m).map (fun m => (p, m)))

/-- Everything a pass commits (R84). Every row is formed from the operands as they stand before the pass writes. -/
def passOut (j : TileJob) (o : Operands) (d : PDesc) : PassOut :=
  (rowOrder d).foldl (fun w pm => putOut j d pm.1 pm.2 (rowVals o d pm.1 pm.2) w) { loc := o.loc }

/-- A row as the column-result queue takes it: columns at or beyond `N_VALID` arrive as +0 (R121). -/
def padRow (vals : List (BitVec 48)) : List (BitVec 48) := (vals ++ wide0).take 32

/-- Row `i` of what a pass delivers to the column-result queue (R77, R121). -/
def crqRowOf (o : Operands) (d : PDesc) (i : Nat) : List (BitVec 48) :=
  padRow (rowVals o d (i / d.m) (i % d.m))

/-- Row `i` of a replay, taken from the pass's accumulator output (R144). -/
def replayRow (loc : Mem) (d : PDesc) (i : Nat) : List (BitVec 48) :=
  padRow ((List.range d.nValid).map (fun n => accAt loc (d.accOut + (i / d.m) * (d.m * 256)) (i % d.m) n))

/-- A list of byte rows as a memory from address 0 up. -/
def rowsMem (rows : List (List Byte)) : Mem := wrBytes [] 0 rows.flatten

/-- The operands of a pass in the tile: from the operand store, or from the front of the queues (R60, R160). -/
def operandsOf (t : Tile) (d : PDesc) : Operands :=
  { loc := t.loc,
    aMem := if d.aQueue then rowsMem (t.sq.take d.m) else t.loc, aBase := if d.aQueue then 0 else d.aAddr,
    bMem := if d.bQueue then rowsMem (t.tq.take 32) else t.loc, bBase := if d.bQueue then 0 else d.bAddr }

/-- The pass the array would start next: the lowest SEQ that has not started and is not withdrawn or discarded
(R118, R142); the list is in SEQ order. -/
def nextPass (t : Tile) : Option Nat :=
  (posWhere (fun (p : PassWork) => !p.started && !p.withdrawn && !p.discarded && !(p.committed && !p.replay)) 0
    t.passes).head?

/-- A released pass finds what R82 asks for: its stationary operand whole and, from the queue, its first streaming row;
`ringsDone` says whether the rings of R161 have completed. A replay needs neither (R144). -/
def operandsReady (t : Tile) (p : PassWork) (ringsDone : Bool) : Bool :=
  let d := parseDesc p.desc
  p.replay ||
    ((!d.bQueue || decide (t.tqTaken + 32 ≤ t.tq.length)) && (!d.aQueue || decide (t.sqTaken < t.sq.length)) &&
      (!p.waitArm || ringsDone))

/-- Whether the array can take another pass now (R68, R69, R144): it is empty, or holds one GEMM or convolution pass
that has taken all its streaming rows, and the new pass is one too. -/
def roomFor (t : Tile) (p : PassWork) : Bool :=
  match t.array with
  | [] => true
  | [job] =>
    match t.passes[job.idx]? with
    | none => false
    | some q =>
      let dq := parseDesc q.desc
      !job.held && dq.kind != 2 && !q.replay && (parseDesc p.desc).kind != 2 && !p.replay
  | _ => false

/-- Streaming rows taken from the queue by the pass in front of the array's last position, as many as there are. -/
def feed (t : Tile) (job : ArrJob) : Tile × ArrJob :=
  match t.passes[job.idx]? with
  | none => (t, job)
  | some p =>
    let need := if p.replay then 0 else (parseDesc p.desc).queueRows
    let n := Nat.min (need - job.fed) (t.sq.length - t.sqTaken)
    let job := { job with fed := job.fed + n, held := decide (job.fed + n < need) }
    ({ t with sqTaken := t.sqTaken + n }, job)

/-- A pass put into the array (R67, R82): its stationary block is taken and, in an empty array, the streaming rows present;
behind another pass its first streaming row is due only after that pass has left (R67, R68). With a row missing that is due
the array holds (R83).
DESIGN CHOICE: with two passes in the array `KIND` is the newer one's, and `SUBPASS` reads 0 from a pass's start until a
row of it is delivered or it commits (log entry 56). -/
def startPass (t : Tile) (i : Nat) : Tile :=
  match t.passes[i]? with
  | none => t
  | some p =>
    let d := parseDesc p.desc
    let t := { t with
      passes := setAt t.passes i (fun p => { p with started := true })
      tqTaken := if d.bQueue && !p.replay then t.tqTaken + 32 else t.tqTaken
      r := if p.replay then t.r else { t.r with kind := d.kind, subpass := 0 } }
    let (t, job) := if t.array.isEmpty then feed t { idx := i } else (t, { idx := i })
    { t with array := t.array ++ [job], r := { t.r with qstall := t.r.qstall || job.held } }

/-- The oldest pass of the array takes the streaming rows that have arrived (R67, R83); with the next one missing the array
holds. -/
def resumeArray (t : Tile) : Tile :=
  match t.array with
  | [] => t
  | job :: rest =>
    let (t, j) := feed t job
    { t with array := j :: rest, r := { t.r with qstall := t.r.qstall || j.held } }

/-- The oldest pass in the array has a row that can leave now: the array does not hold (R83), the pass owes a row and the
queue has room (R77, R122, R144). -/
def rowReady (t : Tile) : Bool :=
  match t.array with
  | [] => false
  | job :: _ =>
    match t.passes[job.idx]? with
    | none => false
    | some p =>
      let d := parseDesc p.desc
      !job.held && d.dest == 3 && decide (t.crq.length < 64) && decide (p.delivered < d.crqRows)

/-- One row of the oldest pass in the array delivered to the column-result queue (R77, R122, R144). -/
def deliverRow (t : Tile) : Tile :=
  match t.array with
  | [] => t
  | job :: _ =>
    match t.passes[job.idx]? with
    | none => t
    | some p =>
      let d := parseDesc p.desc
      let vals := if p.replay then replayRow t.loc d p.delivered else crqRowOf (operandsOf t d) d p.delivered
      let sub := if p.delivered < d.m then (if d.cplx = 0 then d.prec else 2 * d.prec) - 1 else 4 * d.prec - 1
      { t with
        crq := t.crq ++ [⟨p.ctx, vals⟩]
        passes := setAt t.passes job.idx (fun p => { p with delivered := p.delivered + 1 })
        r := if p.replay || d.kind = 2 then t.r else { t.r with subpass := sub } }

/-- The oldest pass of the array has taken every row and delivered every result it owes: it may commit (R67, R83). -/
def mayCommit (t : Tile) : Bool :=
  match t.array with
  | [] => false
  | job :: _ =>
    match t.passes[job.idx]? with
    | none => false
    | some p =>
      let d := parseDesc p.desc
      !job.held && (d.dest != 3 || decide (p.delivered ≥ d.crqRows))

/-- The oldest pass of the array committed (R84): its outputs written, its queue rows given back (R160), its counts
recorded (R79); the pass behind it takes its first streaming rows (R67). What goes to the cluster buffer is answered beside
the tile. -/
def commitPass (t : Tile) : Tile × PassOut :=
  match t.array with
  | [] => (t, { loc := t.loc })
  | job :: rest =>
    match t.passes[job.idx]? with
    | none => (t, { loc := t.loc })
    | some p =>
      let d := parseDesc p.desc
      let ps := setAt t.passes job.idx (fun p => { p with committed := true, replay := false })
      if p.replay then (resumeArray { t with array := rest, passes := ps }, { loc := t.loc })
      else
        let o := passOut (t.job.getD {}) (operandsOf t d) d
        let g := t.r
        let g := { g with
          commits := (g.commits + 1) % 65536
          lastCount := Nat.min o.count 0xFFFF
          ovf := g.ovf || decide (o.count > 0)
          subpass := if d.kind = 2 then 0 else d.subPasses - 1 }
        (resumeArray { t with
            loc := o.loc
            array := rest
            passes := ps
            sq := if d.aQueue then t.sq.drop d.m else t.sq
            sqTaken := if d.aQueue then t.sqTaken - d.m else t.sqTaken
            tq := if d.bQueue then t.tq.drop 32 else t.tq
            tqTaken := if d.bQueue then t.tqTaken - 32 else t.tqTaken
            tickOvf := t.tickOvf + o.count
            r := g }, o)

/-- The tile has no work left in the tick (05, done for the tick): every pass committed, withdrawn or discarded and
every task ended. -/
def tileDone (t : Tile) : Bool :=
  t.passes.all (fun p => (p.committed && !p.replay) || p.withdrawn || p.discarded) &&
    (List.range 4).all (fun c => !(t.ctx c).task || (t.ctx c).ended)

/-- The rows that the oldest pass of the array has already put where `OUT_DEST` and `ACC_WR` direct, of which an emergency
leaves the writes in place (R84): those delivered to the column-result queue, or else any number that time allows, which
`n` stands for, of those whose streaming rows have been taken. A pass behind it has put out none (R67). -/
def partialOut (t : Tile) (n : Nat) : PassOut :=
  match t.array with
  | [] => { loc := t.loc }
  | job :: _ =>
    match t.passes[job.idx]? with
    | none => { loc := t.loc }
    | some p =>
      if p.replay then { loc := t.loc }
      else
        let d := parseDesc p.desc
        let o := operandsOf t d
        let rows := rowOrder d
        let most := if d.aQueue then job.fed else rows.length
        let k := if d.dest = 3 then p.delivered else n % (most + 1)
        (rows.take k).foldl (fun w pm => putOut (t.job.getD {}) d pm.1 pm.2 (rowVals o d pm.1 pm.2) w) { loc := t.loc }

/-- The passes in the array are discarded (R84), their partial writes to the tile's own memory left in place. -/
def dropArray (n : Nat) (t : Tile) : Tile :=
  { t with loc := (partialOut t n).loc, array := [], r := { t.r with discard := t.r.discard || !t.array.isEmpty } }

/-- An emergency stops the tile (R56, R84, R144): passes in the array are discarded and run again, every task restarts
from its program address, and the rows delivered to restarted contexts are withdrawn and will be replayed. -/
def stopTile (n : Nat) (t : Tile) : Tile :=
  let again := fun (c : Nat) => (t.ctx c).task
  let ps := t.passes.map (fun p =>
    if p.withdrawn || p.discarded then p
    else if p.committed then
      (if bitsOf (fld p.desc 5 1) 1 0 = 3 && again p.ctx
       then { p with replay := true, started := false, delivered := 0, released := false }
       else { p with released := p.released && !again p.ctx })
    else { p with started := false, delivered := 0, released := p.released && !again p.ctx })
  let restart := fun (x : Ctx) => if x.task then startCtx x.progAddr x.arg x.budget else x
  { dropArray n t with
    passes := ps
    sqTaken := 0
    tqTaken := 0
    crq := t.crq.filter (fun q => !again q.ctx)
    cur := ((List.range 4).find? (fun c => (t.ctx c).task)).getD t.cur
    ctx0 := restart t.ctx0
    ctx1 := restart t.ctx1
    ctx2 := restart t.ctx2
    ctx3 := restart t.ctx3 }

/-- What a tile holds after a changeover (R47), its registers kept. -/
def clearTile (t : Tile) : Tile := { r := t.r }

end Sys2Proof.Machine
end

