-- ==== Sys2Proof/Config.lean ====
section
/-! DEFINITION. What an implementation fixes and what the manual leaves free. A constant without a body has no value
that a proof can see: a claim about it holds for every value (log entry 7). -/

namespace Sys2Proof.Config

/-- The n-th free value of a run: a number nothing constrains, drawn by `State.free` (log entry 7). -/
opaque freeValue : Nat → Nat

/-- The silicon stepping that `DEVICE_INFO` reports (R299): the part's own, not given by the manual. -/
opaque stepping : BitVec 16

/-- How many entries the event log keeps (R214: the most recent only; no number is given). -/
opaque logDepth : Nat

/-- The code of each kind of event-log entry (R313: the field is given, its codes are not; log entry 26). -/
opaque logCode : Nat → BitVec 16

/-- The stack on which the spare of a 2 KiB granule of a retired pseudo-channel lies, by the free value that tells its
spare space apart: firmware's choice (R194; log entry 58). -/
opaque spareStack : Nat → Nat → Nat

/-- What a number of the tools' bits of a frame says: by frame, field and index. The manual keeps the meaning of these
bits to itself (R255; log entry 21). -/
opaque frameField : List (BitVec 8) → Nat → Nat → Nat

/-- What the nets of a region's design carry at one of its clock edges: by region, edge and group of nets (R204; log entry
60). -/
opaque designNet : Nat → Nat → Nat → Nat

/-- The supply of a user I/O bank, 1.2 V or, where true, 1.8 V: the board's (R232). -/
opaque bankHigh : Nat → Bool

/-- A free byte from a free value. -/
def freeByte (n i : Nat) : Byte := BitVec.ofNat 8 (freeValue n / 256 ^ i)

/-- A run of free bytes from a free value. -/
def freeBytes (n len : Nat) : List Byte := (List.range len).map (freeByte n)

end Sys2Proof.Config
end

