-- ==== Sys2Proof/Machine/EngineParts.lean ====
section
/-! DEFINITION. The state of the stream engines (06), of the memory controllers (07) and of the cluster buffers (R17,
R161). -/

namespace Sys2Proof.Machine

/-- A ring armed on a hardware stream (R146, R147): its place in the image's descriptor section, the tick and the order
of its arming (R171, R212), and the image it belongs to. -/
structure Ring where
  off : Nat
  count : Nat
  tick : Nat
  seq : Nat
  sess : Nat
  image : Nat
  imgCluster : Nat
  deriving DecidableEq, Repr

/-- A granted burst in staging (R149, R163): its descriptor, the bursts it is counted for (from `num`, `span` of them),
the place of its first byte among the descriptor's delivered bytes, its bytes, whether it ends its row, the index that
named the row, and whether that index is out of range (R153), the read met an uncorrectable error or an error
response (R176), or the row is skipped (null index of a scatter). `beats` are the beats taken from a port for it, and
`before` what was left of an earlier one. -/
structure Burst where
  desc : Nat := 0
  num : Nat := 0
  span : Nat := 1
  start : Nat := 0
  data : List Byte := []
  ends : Bool := true
  idx : Option Nat := none
  badIdx : Bool := false
  memUe : Bool := false
  bus : Bool := false
  skip : Bool := false
  beats : List (List Byte) := []
  before : List Byte := []
  deriving DecidableEq, Repr

/-- The `STRM_` flags and counters of one stream (R178, R312), kept when its ring state is cleared (R175 resets the
register fields only). -/
structure StreamRegs where
  done : Bool := false
  rearmOverrun : Bool := false
  stall : Bool := false
  aborted : Bool := false
  idxRange : Bool := false
  bus : Bool := false
  memUe : Bool := false
  errDesc : Nat := 0
  tte : Nat := 0xFFFF
  deriving DecidableEq, Repr

/-- One hardware stream of an engine (06). `part` is what has been delivered toward the next row of a queue or the next
beat of a port, of whose front burst `rxSent` beats are out; `txPart` is what is left of a beat taken from a port, and
`portBack` the beats of bursts that an emergency discarded, by port, which are taken again before new ones (R174). -/
structure Stream where
  bound : Option Nat := none
  ring : Option Ring := none
  shadow : Option Ring := none
  fetched : Nat := 0
  gDesc : Nat := 0
  gBurst : Nat := 0
  dDesc : Nat := 0
  dBurst : Nat := 0
  dRow : Nat := 0
  idxGot : Nat := 0
  idx : List Nat := []
  portIdx : Tab (List Nat) := []
  staged : List Burst := []
  part : List Byte := []
  rxSent : Nat := 0
  txPart : List Byte := []
  portBack : Tab (List (List Byte)) := []
  rowBuf : List Byte := []
  reserve : Nat := 0
  sharedMax : Nat := 0
  rate : Nat := 0
  stopped : Bool := false
  kept : Bool := false
  grants : Nat := 0
  lateCnt : Nat := 0
  stallCnt : Nat := 0
  overruns : Nat := 0
  r : StreamRegs := {}
  deriving DecidableEq, Repr

/-- One region's stream engine: its streams and `STRM_LATE`. -/
structure Engine where
  streams : Tab Stream := []
  late : Word := 0
  deriving DecidableEq, Repr

/-- One cluster buffer: its two banks and which of them is readable (R17, R161); `lost` after an uncorrectable error
(R369). -/
structure ClusterBuf where
  bank0 : Mem := []
  bank1 : Mem := []
  rd : Bool := false
  lost : Bool := false
  deriving DecidableEq, Repr

/-- The bank a stream or the next image tick reads (R161). -/
def ClusterBuf.read (b : ClusterBuf) : Mem := if b.rd then b.bank1 else b.bank0

/-- The bank that the present image tick writes (R161). -/
def ClusterBuf.write (b : ClusterBuf) : Mem := if b.rd then b.bank0 else b.bank1

/-- A cluster buffer with the bank being written changed. -/
def ClusterBuf.setWrite (b : ClusterBuf) (m : Mem) : ClusterBuf :=
  if b.rd then { b with bank0 := m } else { b with bank1 := m }

/-- One memory controller: HBM stack n for n below 16, LPDDR5X interface n - 16 above (07). `units` are its retired
pseudo-channels; `allCounts` and `ceTicks` hold, by pseudo-channel or channel, its corrected errors and the ticks in which
they came (R193, R194); `wrote` that it has accepted a write in the tick, `inorder` that a read came behind one (R189). -/
structure MemCtl where
  frozen : Bool := false
  hot : Bool := false
  trained : Bool := false
  populated : Bool := false
  ue : Bool := false
  retireBusy : Bool := false
  temp : Nat := 0
  ceCount : Nat := 0
  ueAddr : Nat := 0
  ueCmd : Bool := false
  units : Word := 0
  allCounts : Tab Nat := []
  ceTicks : Tab (List Nat) := []
  wrote : Bool := false
  inorder : Bool := false
  refreshes : Nat := 0
  deriving DecidableEq, Repr

/-- The self-refresh of a tier (R197, R198): in it, and leaving it. -/
structure TierSr where
  inSr : Bool := false
  leaving : Bool := false
  deriving DecidableEq, Repr

/-- What a held access does (R198): a host's read, a write, a range zeroed, or the fetch of a command's payload, whose
bytes the command has. -/
inductive HeldKind where
  | read | write | zero | fetch
  deriving DecidableEq, Repr

/-- An access held by its tier (R198) or by a panic (R191), with the mailbox whose command it serves, if any. -/
structure HeldAccess where
  kind : HeldKind
  addr : Nat
  len : Nat
  data : List Byte := []
  mb : Option Nat := none
  deriving DecidableEq, Repr

/-- The spare space of a pseudo-channel (R194): `pages` of its pages have been remapped to granules that firmware has
chosen, told apart by a free value. -/
structure Spare where
  stack : Nat
  pc : Nat
  seed : Nat
  pages : Nat
  deriving DecidableEq, Repr

/-- A pseudo-channel retirement in progress (R194): its next page, the free value of its spare space, and the mailbox
whose command waits for it, if any. -/
structure RetireJob where
  stack : Nat
  pc : Nat
  page : Nat
  seed : Nat
  mb : Option Nat
  deriving DecidableEq, Repr

/-- Package-wide memory state (07): the two tiers, the real-time port, retirement and the flags of the package window. -/
structure MemPkg where
  lpN : Nat := 0
  lpCap : Nat := 0
  hbm : TierSr := {}
  lp : TierSr := {}
  held : List HeldAccess := []
  panicMark : Nat := 0xC
  panic : Bool := false
  panicSeen : Bool := false
  panics : Nat := 0
  ingress : List (Nat × List Byte) := []
  retireThresh : Nat := 0x400
  retired : Nat := 0
  retiring : List RetireJob := []
  spares : List Spare := []
  unmapped : Bool := false
  served : Bool := false
  deriving DecidableEq, Repr

end Sys2Proof.Machine
end

