-- ==== Sys2Proof/Machine/HostParts.lean ====
section
/-! DEFINITION. The state of the mailboxes (11), and of the tick source and the Roosters (02). -/

namespace Sys2Proof.Machine

/-- What a command answers (R284): status code, `DETAIL`, `SHORTFALL`, the response fields by offset, and the bytes of an
output payload. -/
structure Outcome where
  code : Nat := 0
  detail : Nat := 0
  shortfall : Nat := 0
  fields : List (Nat × List Byte) := []
  out : List Byte := []
  deriving DecidableEq, Repr

/-- What a busy command waits for (R298). -/
inductive WaitFor where
  | ready
  | grant (sess : Nat)
  | close (sess : Nat)
  | limits (sess : Nat)
  | stepStop (sess : Nat)
  | replay (sess : Nat)
  | load (slot : Nat)
  | unit
  | retire (stack pc : Nat)
  | pairOrder
  | pairConfigure
  | pairPromote
  | pairRejoin
  | restart
  deriving DecidableEq, Repr

/-- The command in service on a mailbox (R281): its opcode, the copy of what was written with it, what it waits for,
whether its answer is ready and its output delivered, and that answer. -/
structure BusyCmd where
  opcode : Nat
  go : Go
  wait : WaitFor
  acc : Outcome := {}
  done : Bool := false
  placed : Bool := false
  deriving DecidableEq, Repr

/-- One mailbox (R273, R276 to R283): `hdr` are the header and the parameters as the host last wrote them. -/
structure Mailbox where
  claims : Nat := 0
  claimed : Bool := false
  tag : Nat := 0
  sess : Nat := 0
  seq : Nat := 0
  state : Nat := 0
  code : Nat := 0
  statusSeq : Nat := 0
  mask : Word := 0
  pend : Word := 0
  hdr : Mem := []
  resp : List Byte := []
  inl : Mem := []
  busy : Option BusyCmd := none
  opened : Bool := false
  goIgnored : Nat := 0
  ignored : Bool := false
  ringBad : Bool := false
  deriving DecidableEq, Repr

/-- One hardened region: its partition (R46, R47: the ticks of changeover left), its digest of the tick, its operating
point with the target, the step under way (1 being prepared, 2 ready) and whether the standby PLL is locked (R390), and its
telemetry (R312). -/
structure Region where
  owner : Nat := 0
  change : Nat := 0
  digest : DWord := 0
  op : Nat := 0
  target : Nat := 0
  step : Nat := 0
  locked : Bool := false
  steps : Nat := 0
  stretches : Nat := 0
  stretchTotal : Nat := 0
  lastStretch : Nat := 0
  changeovers : Nat := 0
  deriving DecidableEq, Repr

/-- The tick source and its registers (02, 08): `on` once stage 1 has started it, the tick in progress (`closed` when
every Rooster is done, `settled` when the steps have advanced by it), the Roosters that are done and those that were late
when the next tick fell due, the records of each cluster and the digests of R213; `trouble` when the tick met an
emergency, a stream error or a fatal error of a sequencer (R337). -/
structure Tick where
  on : Bool := false
  period : Nat := 0x20
  warnLead : Nat := 0x20
  ovrThresh : Nat := 0x10
  hang : Bool := false
  stretch : Bool := false
  emerg : Bool := false
  lastLate : Nat := 0
  lastStretch : Nat := 0
  count : Nat := 0
  active : Bool := false
  due : Bool := false
  held : Bool := false
  closed : Bool := false
  settled : Bool := false
  done : DWord := 0
  late : DWord := 0
  cdig : Tab DWord := []
  warned : DWord := 0
  copying : Nat := 0
  armSeq : Nat := 0
  pkgDigest : DWord := 0
  digestTick : Nat := 0
  trouble : Bool := false
  deriving DecidableEq, Repr

/-- A change of units waiting for the boundary (R48, R52, R53, R58, R368 to R373). -/
inductive UnitChange where
  | slot (cluster slot : Nat)
  | cluster (c : Nat)
  | region (r : Nat)
  | die (d : Nat)
  | lane (l : Nat)
  | restoreSlot (cluster slot : Nat)
  | restoreCluster (c : Nat) (fails : List Nat)
  | restoreRegion (r : Nat) (fails : List (Nat × Nat))
  | restoreDie (d : Nat) (fails : List (Nat × Nat))
  | restoreLane (l : Nat)
  deriving DecidableEq, Repr

/-- The placement of logical tiles and the units in or out of service (R5, R26, R368 to R373). `place` holds, for a
cluster that differs from reset, the slot of each of its eight logical tiles. `capMap` and `oldFence` are the clusters that
count and the regions that stand fenced as the last boundary found them: capacity changes there only (R27). -/
structure Units where
  place : Tab (List Nat) := []
  retiredSlots : List Nat := []
  retiredClusters : List Nat := []
  fencedRegions : DWord := 0
  dieFenced : Word := 0
  fabFenced : DWord := 0
  retiredLanes : Word := 0
  coreFail : BitVec 8 := 0
  meshFault : Bool := false
  tickFault : Bool := false
  capMap : BitVec 256 := BitVec.allOnes 256
  oldFence : DWord := 0
  pend : List UnitChange := []
  overruns : Tab (List Nat) := []
  ovrTotal : Tab Nat := []
  deriving DecidableEq, Repr

end Sys2Proof.Machine
end

