-- ==== Sys2Proof/Machine/FabricParts.lean ====
section
/-! DEFINITION. The state of the programmable fabric (09), of fabric loading (10), of the three kinds of serial lane (15)
and of a Strait pair (12). -/

namespace Sys2Proof.Machine

/-- One regional tree (R226, R228): its source and divider, a change in progress and one queued behind it (R386). -/
structure Tree where
  sel : Nat := 0xF
  div : Nat := 0
  runtime : Bool := false
  switching : Option (Nat × Nat) := none
  queued : Option (Nat × Nat) := none
  switches : Nat := 0
  deriving DecidableEq, Repr

/-- One beat as an RX channel presents it (R235): `RX_DATA`, `RX_EOR` and `RX_EOD`. -/
structure RxBeat where
  data : List Byte
  eor : Bool
  eod : Bool
  deriving DecidableEq, Repr

/-- One stream port (R235 to R240): the engine's credits for RX, the beats it presented last, the TX buffer and the
design's credits. -/
structure Port where
  rxDepth : Nat := 0
  rxCred : Nat := 0
  rxBeats : Nat := 0
  rxLast : List RxBeat := []
  txBuf : List (List Byte) := []
  txCred : Nat := 0
  txBeats : Nat := 0
  credErrs : Nat := 0
  credOvf : Bool := false
  noCred : Bool := false
  deriving DecidableEq, Repr

/-- One I/O cell's delay line (R234). -/
structure DelayLine where
  tap : Nat := 0
  target : Nat := 0
  deriving DecidableEq, Repr

/-- One fabric PLL's configuration (R225): its reference, the crystal or, where `pin`, the clock-capable pin, its multiplier
and its four dividers. -/
structure Pll where
  pin : Bool := false
  mult : Nat := 0
  divs : List Nat := []
  deriving DecidableEq, Repr

/-- One I/O cell (R230, R232, R233): its register mode (0 SDR, 1 DDR, 2 gearbox), whether it is one half of a differential
pair, its standard (0 LVCMOS, 1 SSTL, 2 LVDS), the PLL output (0 or 1) that is its edge clock, whether its delay line lies
in the output path (R234), its hold-last marking (R244), and its registers: a group of bits in, one out, and the output
enable. -/
structure Pin where
  mode : Nat := 0
  pair : Bool := false
  std : Nat := 0
  pll : Nat := 0
  out1 : Bool := false
  dlyOut : Bool := false
  hold : Bool := false
  inReg : Nat := 0
  outReg : Nat := 0
  oe : Bool := false
  deriving DecidableEq, Repr

/-- What a block RAM port's last access was (R223): the contents before it, where, and whether it wrote. -/
structure RamAcc where
  before : Nat := 0
  width : Nat := 0
  addr : Nat := 0
  wrote : Bool := false
  deriving DecidableEq, Repr

/-- What a region's cells hold while its design runs (R219 to R224, R229 to R233, R244, R245). `edges`: clock edges of the
design so far (the model's own counter); `leaving`: the rising edges of each tree since set/reset was released (R221);
`ffs`: the flip-flops of each column, bit 16 x block + position; `ramOut`, `ramReg`: what each block RAM port has read and
its output register, at 2 x RAM + port; `ramFlag`: ECC outputs of each; `ramErr`: bits in error of each ECC word; `wires`: what the
design last drove on its outgoing border wires; `holds` and `pins`: the hold choices and I/O cells in force, `newHolds` and
`newPins` those that the image being loaded brings; `clocks`: the tree of each stream port channel, control port and I/O
cell. -/
structure Cells where
  edges : Nat := 0
  leaving : Tab Nat := []
  ffs : Tab Nat := []
  ramOut : Tab Nat := []
  ramReg : Tab Nat := []
  ramFlag : Tab Nat := []
  ramErr : Tab Nat := []
  ramLast : Tab RamAcc := []
  wires : Nat := 0
  holds : Nat := 0
  newHolds : Nat := 0
  pins : Tab Pin := []
  newPins : Tab Pin := []
  plls : Tab Pll := []
  clocks : Tab Nat := []
  deriving DecidableEq, Repr

/-- The start-up order of a region (R263, R264): the load that began it, its trailer, the actions done, and how it ended. -/
structure Startup where
  slot : Option Nat := none
  order : Nat := 0
  tree : Nat := 0
  delays : List Nat := []
  running : Bool := false
  steps : Nat := 0
  done : Bool := false
  timedOut : Bool := false
  deriving DecidableEq, Repr

/-- One fabric region (09, 10). Frames are kept as the stream gives them, a block RAM's with its present contents; only the
summary of a control frame has a meaning in the manual (R255; log entry 21). -/
structure FabRegion where
  configured : Bool := false
  isolated : Bool := true
  loading : Bool := false
  clearing : Bool := false
  isoSeen : Bool := false
  borderOpen : Bool := false
  gsr : Bool := true
  writes : Bool := false
  control : List Byte := []
  columns : Tab (List Byte) := []
  brams : Tab (List Byte) := []
  imageId : Nat := 0
  startup : Startup := {}
  pllLock : BitVec 2 := 0
  trees : Tab Tree := []
  ports : Tab Port := []
  cps : Tab (Option (Bool × Nat)) := []
  cpErr : BitVec 4 := 0
  lastCp : Nat := 0
  lastSel : Bool := false
  lastAddr : Nat := 0
  delays : Tab DelayLine := []
  eccFix : Nat := 0
  eccSeen : Nat := 0
  cells : Cells := {}
  deriving DecidableEq, Repr

/-- What one covered region has received of a load (R256), and how the start-up order that the load began there ended. -/
structure RegionLoad where
  region : Nat
  ctl : Bool := false
  trailer : List Byte := []
  cols : List Nat := []
  rams : List Nat := []
  dropped : Bool := false
  done : Bool := false
  late : Bool := false
  deriving DecidableEq, Repr

/-- A fabric load in the configuration engine (R250 to R264): its stream and header, the key chain, the bytes verified
and not yet dispatched, the counts of R257, the progress of each region, and how it ended. -/
structure Load where
  slot : Nat := 0
  mb : Option Nat := none
  sess : Nat := 0
  kind : Nat := 0
  target : Nat := 0xFF
  covered : DWord := 0
  stream : List Byte := []
  short : Bool := false
  imageId : Nat := 0
  plainLen : Nat := 0
  key : List Byte := []
  seg : Nat := 0
  plain : List Byte := []
  used : Nat := 0
  records : Nat := 0
  resent : Bool := false
  begun : Bool := false
  ended : Bool := false
  parts : List RegionLoad := []
  fail : Option Nat := none
  decided : Bool := false
  deriving DecidableEq, Repr

/-- The package window of `FAB_` (10) and the chains. -/
structure FabCfg where
  trunc : Bool := false
  auth : Bool := false
  format : Bool := false
  crc : Bool := false
  timeout : Bool := false
  aborted : Bool := false
  reject : Bool := false
  failValid : Bool := false
  failCause : Nat := 0
  failRegion : Nat := 0
  failSegment : Nat := 0
  chainRegion : Tab Nat := []
  chainSent : Tab Nat := []
  flashStatus : Nat := 0
  flashRan : Bool := false
  nextSlot : Nat := 0
  deriving DecidableEq, Repr

/-- One HDM decoder (R400). -/
structure HdmDecoder where
  base : Nat := 0
  committed : Bool := false
  err : Bool := false
  deriving DecidableEq, Repr

/-- The CXL port (R397 to R404). -/
structure CxlPort where
  up : Bool := false
  cxlMode : Bool := false
  ideKeyed : BitVec 3 := 0
  ideStopped : BitVec 3 := 0
  l1 : Bool := false
  down : Bool := false
  ideFail : Bool := false
  retrain : Bool := false
  rate : Nat := 0
  width : Nat := 0
  replays : Nat := 0
  d3 : Bool := false
  dec0 : HdmDecoder := {}
  dec1 : HdmDecoder := {}
  cohBase : Nat := 0
  cohLimit : Nat := 0
  snooped : List Nat := []
  deriving DecidableEq, Repr

/-- One Strait lane (R405 to R408): `kept` that its coefficients are kept (R414), `back` that it was removed in service
and retrains, `rejoin` that it is trained again and waits for the boundary. -/
structure StrLane where
  up : Bool := false
  removed : Bool := false
  training : Bool := false
  step : Nat := 0
  idle : Bool := true
  pre2 : Nat := 0
  pre1 : Nat := 4
  post1 : Nat := 6
  fecUe : Nat := 0
  requests : Nat := 0
  kept : Bool := false
  back : Bool := false
  rejoin : Bool := false
  deriving DecidableEq, Repr

/-- The Strait link (R405, R416): its lanes, the number of the next frame to receive in sequence, and the replays seen. -/
structure StraitLink where
  lanes : Tab StrLane := []
  reversed : Bool := false
  laneDrop : Bool := false
  down : Bool := false
  wasUp : Bool := false
  replays : Nat := 0
  rxSeq : Nat := 0
  deriving DecidableEq, Repr

/-- One fabric transceiver lane (R409 to R415), with its mirror buffer and the outputs of its last word cycle (R326,
R327). -/
structure FabLane where
  rxLock : Bool := false
  txIdle : Bool := true
  designIdle : Bool := true
  holdIdle : Bool := false
  rxIdle : Bool := true
  coefErr : Bool := false
  lockLost : Bool := false
  mirrored : Bool := false
  pam4 : Bool := false
  runtime : Bool := false
  slipPos : Nat := 0
  post : Nat := 0
  pre : Nat := 0
  rate : Nat := 0
  mirrorBuf : List (Option (List Byte)) := []
  rxWord : List Byte := []
  rxValid : Bool := false
  rxDrop : Bool := false
  deriving DecidableEq, Repr

/-- An ordered command that one part of the pair has reported (R330): mailbox, go value, digest and verdict. -/
structure OrderRec where
  mb : Nat
  go : Nat
  digest : List Byte
  verdict : Nat
  deriving DecidableEq, Repr

/-- A Strait pair as this part sees it (12). `waits`: formed, its service beginning at the next boundary (R320);
`lostRole`: the role held when the partner was declared lost (R343); `lastWindow`: what the last heartbeat window showed,
edge and message (R338); `toSend` and `marked`: the 64 KiB pages of a transfer's present pass and of the next (R347);
`unacked`: what the primary has forwarded and the secondary not yet acknowledged (R324); `told` and `toldLive`: the done,
twice the tick and 1 for a rerun, and the live clusters last sent (R322); `outcomes` and `theirOut`: admission outcomes to
be compared (R334); `diverging` to `theirCheck`: the exchange of R337; `partnerFull`: mirror buffers full (R326);
`theirHeld` and `theirOcc`: what the secondary's own sessions hold in checkpoint mode (R348); `got`: what has arrived of a
transfer or checkpoint that is not complete; `standby`: the sessions of the last complete checkpoints (R350). -/
structure Pair where
  mode : Nat := 0
  role : Nat := 0
  formed : Bool := false
  waits : Bool := false
  partnerLost : Bool := false
  linkLost : Bool := false
  hbFault : Bool := false
  diverged : Bool := false
  left : Bool := false
  secWrite : Bool := false
  laneOvf : Bool := false
  cmpTick : Nat := 0
  reruns : Nat := 0
  unmatched : Nat := 0
  phase : Nat := 0
  passes : Nat := 0
  bytesSent : Nat := 0
  marked : List Nat := []
  toSend : List Nat := []
  partnerDone : Nat := 0
  partnerDigest : DWord := 0
  partnerLive : Tab Nat := []
  partnerSeqHeld : Nat := 0
  seq : Nat := 0
  seqHeld : Nat := 0
  inputs : List Forwarded := []
  mine : List OrderRec := []
  theirs : List OrderRec := []
  ringDone : Tab Nat := []
  suppressed : Tab (List (List Byte)) := []
  lastWindow : Option (Bool × Bool) := none
  lostRole : Nat := 0
  promoteIn : Nat := 0
  joinHold : Bool := false
  rerun : Bool := false
  noticeSent : Bool := false
  unacked : List Forwarded := []
  told : Nat := 0
  toldLive : Tab Nat := []
  partnerAgain : Bool := false
  outcomes : List OrderOutcome := []
  theirOut : List OrderOutcome := []
  diverging : Bool := false
  theirRegions : List DWord := []
  myCheck : Option Bool := none
  theirCheck : Option Bool := none
  partnerFull : Word := 0
  theirHeld : DWord := 0
  theirOcc : List (Nat × Nat) := []
  got : List Input := []
  standby : List SessCopy := []
  deriving DecidableEq, Repr

end Sys2Proof.Machine
end

