-- ==== Sys2Proof/Machine/BoardParts.lean ====
section
/-! DEFINITION. The state of start-up, settings and board management (13, 18), of clocks and power (14), of identity and
the sealed key store (16), of the event log (11) and what stands on the part's outgoing interfaces. -/

namespace Sys2Proof.Machine

/-- One firmware slot of the configuration flash (R353, R420): the header's bytes of a whole image, and whether the
checks of R421 that the model takes as operands pass for it (log entry 9). -/
structure FwImage where
  header : List Byte := []
  authOk : Bool := false
  deriving DecidableEq, Repr

/-- One slot of the sealed key store (R425): its generation and, when occupied, ciphertext and tag under k_seal. -/
structure SealSlot where
  gen : Nat := 0
  cipher : Option (List Byte × List Byte) := none
  deriving DecidableEq, Repr

/-- The configuration flash (13, 16). -/
structure Flash where
  fwA : Option FwImage := none
  fwB : Option FwImage := none
  active : Bool := false
  setA : List Byte := []
  setB : List Byte := []
  chain : List Byte := []
  seals : Tab SealSlot := []
  enrolment : Option (List Byte) := none
  fabOff : Nat := 0
  fabImage : List Byte := []
  deriving DecidableEq, Repr

/-- Where start-up stands (R354): waiting for the first qualification, for the boot ROM, for stage 1's steps, done. -/
inductive Phase where
  | off
  | qualify
  | boot
  | stage1
  | open1
  | full
  deriving DecidableEq, Repr

/-- The entries of R313; `dump` marks the dump of a controller freeze (R195). -/
structure LogEntry where
  seq : Nat
  tick : Nat
  code : Nat
  source : Nat
  sess : Nat
  data : List Byte
  dump : Bool := false
  deriving DecidableEq, Repr

/-- The device's start-up state, settings and logs (13). `settings` is the copy in use with its defaults put in, `atStart`
what it was when stage 1 began, for the fields that take effect at a restart (R365). -/
structure Dev where
  pwrGood : Bool := false
  uvHold : Bool := false
  stage : Nat := 0
  held : Nat := 0
  phase : Phase := .off
  qualified : Bool := false
  setDefaulted : Bool := false
  fieldDefaulted : Bool := false
  setCopy : Nat := 0
  fwSlot : Bool := false
  fwFallback : Bool := false
  smbRefused : Bool := false
  bootErr : Nat := 0
  pkgFault : Bool := false
  flagSel : Word := 0
  strap : Nat := 0
  hbOn : Bool := false
  hbLevel : Bool := false
  scan : Bool := false
  fw : List Byte := []
  openCount : Nat := 0
  nonce : List Byte := []
  settings : List Byte := []
  applyAt : Bool := false
  applyPeriod : Bool := false
  staging : List Byte := []
  atStart : List Byte := []
  deriving DecidableEq, Repr

/-- The event log (R214, R313). -/
structure EventLog where
  next : Nat := 0
  base : Nat := 0
  entries : List LogEntry := []
  deriving DecidableEq, Repr

/-- Clocks (14). Gate words are kept as written (R382). -/
structure Clk where
  hold : Bool := false
  stuck : Bool := false
  xtalLost : Bool := false
  refLost : Bool := false
  qualFail : Bool := false
  stuckDomain : Nat := 0
  stuckUnit : Nat := 0
  ppm : Int := 0
  gateRegion : Tab Word := []
  gateIsle : Tab Word := [(0, 0x01000000)]
  mux : Tab Nat := []
  muxNext : Tab Nat := []
  deriving DecidableEq, Repr

/-- Power (14, 18). -/
structure Pwr where
  envelope : Nat := 0x640
  clampSeen : Bool := false
  trip : Bool := false
  inTrip : Bool := false
  hotDie : Bool := false
  uncontrolled : Bool := false
  tjMax : Nat := 0
  lastAvg : Nat := 0
  energy : Nat := 0
  elapsed : Nat := 0
  clamp : Bool := false
  clampTime : Nat := 0
  dieHold : Word := 0
  die95 : Bool := false
  dieHot : Word := 0
  down : Bool := false
  lowTicks : Nat := 0
  uvSeen : Bool := false
  rail : Nat := 0
  deriving DecidableEq, Repr

/-- A secured SPDM session (R428): its number, whether its handshake is finished, and how often its keys were updated. -/
structure SpdmSess where
  id : Nat
  open_ : Bool := false
  updates : Nat := 0
  deriving DecidableEq, Repr

/-- The security block (16). `rbSeen`: the root of trust has answered the boot ROM's `RB_READ`; `rbKey`: the key that it
gave and that is not enrolled yet; `rbRetry`: an `RB_ADVANCE` is due (R424); `spdm`: how far the negotiation of SPDM has
come. -/
structure Sec where
  idKey : Option Nat := none
  kSeal : List Byte := []
  certOk : Bool := false
  rbOn : Bool := false
  rbAdvFail : Bool := false
  schedAuthFail : Bool := false
  rbCounter : Nat := 0
  rbSeen : Bool := false
  rbKey : List Byte := []
  rbRetry : Bool := false
  sealBuf : Tab Word := []
  busy : Bool := false
  sealResult : Nat := 0
  spdm : Nat := 0
  spdmSess : List SpdmSess := []
  romHash : List Byte := []
  deriving DecidableEq, Repr

/-- What last stood on the part's outgoing interfaces: the data and poison of a host read, a claim read's answer, an
SMBus slave's acknowledge and reply, an SMBus master's request, a DOE reply, a latching read's value, every byte the
part has written to host memory, the MSI-X table as the host wrote it (R271), the vectors raised and waiting (R404), the
last pair message and the last parts of a transfer sent to the partner (R322, R347), and how many host writes have
completed to the host (R324). -/
structure Outputs where
  readData : List Byte := []
  poisoned : Bool := false
  claimTag : Nat := 0
  smbAck : Bool := false
  smbReply : List Byte := []
  smbMaster : List Byte := []
  doe : List Byte := []
  regRead : Word := 0
  hostMem : Mem := []
  msix : Mem := []
  vectors : Tab Nat := []
  vecWait : List Nat := []
  cpAck : Option (Nat × Nat × Word × Bool) := none
  trainReply : List Nat := []
  pairMsg : Option PairMsg := none
  sent : List Input := []
  writesDone : Nat := 0
  deriving DecidableEq, Repr

/-- The health record's rewrite count and the last three fields whose change sets event bit 3 (R295, R296). -/
structure Health where
  update : Nat := 0
  record : List Byte := []
  deriving DecidableEq, Repr

end Sys2Proof.Machine
end

