-- ==== Sys2Proof/Machine/State.lean ====
section
/-! DEFINITION. The state of the block: everything the spec gives the part, and the queue of waiting commands. The
parts' own structures stand in the files named `…Parts`; each field's default is its value at reset, so that
`State.reset` is the state of the part before `PWR_GOOD` rises (log entry 2). -/

namespace Sys2Proof.Machine

/-- Why the block stops for good. The manual gives every command an effect (a freeze, a fence, a trip or a refusal
status is a state or an answer), so no meaning raises a fault. -/
inductive Fault where
  /-- Raised by nobody: the type must have a member, and no command of the manual stops the part without an effect.
  Safe. -/
  | neverRaised
  deriving DecidableEq, Repr

/-- Why the model refuses a command. -/
inductive Refusal where
  /-- The command has no meaning yet; raised by the dispatch table for the mnemonic named. Safe: nothing is claimed
  about such a command. -/
  | notModelled (mnemonic : String)
  deriving DecidableEq, Repr

/-- The state of one LQ-3216. -/
structure State where
  /-- The waiting commands, first in, first out. -/
  pending : List Instr := []
  /-- How many free values have been drawn (the model's own counter, log entry 7). -/
  free : Nat := 0
  /-- Start-up, stage and settings (13). -/
  dev : Dev := {}
  /-- The configuration flash (13, 16). -/
  flash : Flash := {}
  /-- The event log (R214, R313). -/
  log : EventLog := {}
  /-- The health record's rewrites (R296). -/
  health : Health := {}
  /-- The mailboxes (11). -/
  mbx : Tab Mailbox := []
  /-- The open sessions (R286). -/
  sess : List Sess := []
  /-- The tick source (02). -/
  tick : Tick := {}
  /-- Placement and units in service (R5, R26, R368). -/
  units : Units := {}
  /-- The 64 hardened regions (R46). -/
  regions : Tab Region := []
  /-- The 2,304 tile slots (R17), slot s of cluster k at k x 9 + s. -/
  tiles : Tab Tile := []
  /-- The 256 cluster buffers (R17). -/
  bufs : Tab ClusterBuf := []
  /-- The 64 stream engines (06). -/
  eng : Tab Engine := []
  /-- Device memory (R179). -/
  mem : Mem := []
  /-- The 40 memory controllers (07). -/
  ctl : Tab MemCtl := []
  /-- Package-wide memory state (07). -/
  mpk : MemPkg := {}
  /-- The 64 fabric regions (09). -/
  fab : Tab FabRegion := []
  /-- The configuration engine's package registers (10). -/
  fcfg : FabCfg := {}
  /-- The fabric loads in progress (R250). -/
  loads : List Load := []
  /-- The CXL port (15). -/
  cxl : CxlPort := {}
  /-- The Strait link (15). -/
  strait : StraitLink := {}
  /-- The fabric transceiver lanes (15). -/
  ftx : Tab FabLane := []
  /-- The Strait pair (12). -/
  pair : Pair := {}
  /-- Clocks and gates (14). -/
  clk : Clk := {}
  /-- Power (14, 18). -/
  pwr : Pwr := {}
  /-- Identity and sealed keys (16). -/
  sec : Sec := {}
  /-- The part's outgoing interfaces. -/
  out : Outputs := {}
  /-- The event counters of every flag (R376), at flag address x 32 + bit. -/
  flagCnt : Tab Nat := []
  /-- High words latched by a read of their low words (R10), by register address. -/
  latch : Tab (Option Word) := []
  deriving DecidableEq, Repr

/-- The part before `PWR_GOOD` rises (R440, R449; log entries 2, 5, 6): every register at the reset value its chapter
gives, memory with nothing listed. -/
def State.reset : State := {}

end Sys2Proof.Machine
end

