-- ==== Sys2Proof/Machine/Ops.lean ====
section
/-! DEFINITION. The named accessors of the state: units by number, the placement of logical tiles (R5), what counts
toward capacity (R26), free values, and the access to memory. -/

namespace Sys2Proof.Machine

/-- The next free value (log entry 7) and the state that has drawn it. -/
def State.draw (s : State) : Nat × State := (Config.freeValue s.free, { s with free := s.free + 1 })

/-- `len` free bytes and the state that has drawn them. -/
def State.drawBytes (s : State) (len : Nat) : List Byte × State :=
  (Config.freeBytes s.free len, { s with free := s.free + 1 })

/-- A mailbox by number. -/
def State.mb (s : State) (n : Nat) : Mailbox := look {} s.mbx n

/-- A mailbox changed. -/
def State.setMb (s : State) (n : Nat) (f : Mailbox → Mailbox) : State := { s with mbx := modify {} s.mbx n f }

/-- A hardened region by number. -/
def State.region (s : State) (r : Nat) : Region := look {} s.regions r

/-- A hardened region changed. -/
def State.setRegion (s : State) (r : Nat) (f : Region → Region) : State :=
  { s with regions := modify {} s.regions r f }

/-- A tile slot by number: cluster x 9 + slot. -/
def State.tile (s : State) (i : Nat) : Tile := look {} s.tiles i

/-- A tile slot put back. -/
def State.putTile (s : State) (i : Nat) (t : Tile) : State := { s with tiles := put {} s.tiles i t }

/-- A cluster buffer by cluster number. -/
def State.buf (s : State) (c : Nat) : ClusterBuf := look {} s.bufs c

/-- A cluster buffer put back. -/
def State.putBuf (s : State) (c : Nat) (b : ClusterBuf) : State := { s with bufs := put {} s.bufs c b }

/-- A stream engine by region. -/
def State.engine (s : State) (r : Nat) : Engine := look {} s.eng r

/-- A hardware stream of a region. -/
def State.stream (s : State) (r n : Nat) : Stream := look {} (s.engine r).streams n

/-- A hardware stream changed. -/
def State.setStream (s : State) (r n : Nat) (f : Stream → Stream) : State :=
  { s with eng := modify {} s.eng r (fun e => { e with streams := modify {} e.streams n f }) }

/-- A memory controller by number (R178 windows: stacks 0 to 15, interface j at 16 + j). -/
def State.memCtl (s : State) (n : Nat) : MemCtl := look {} s.ctl n

/-- A memory controller changed. -/
def State.setCtl (s : State) (n : Nat) (f : MemCtl → MemCtl) : State := { s with ctl := modify {} s.ctl n f }

/-- A fabric region by number. -/
def State.fabric (s : State) (r : Nat) : FabRegion := look {} s.fab r

/-- A fabric region changed. -/
def State.setFab (s : State) (r : Nat) (f : FabRegion → FabRegion) : State := { s with fab := modify {} s.fab r f }

/-- A stream port of a fabric region. -/
def FabRegion.port (f : FabRegion) (p : Nat) : Port := look {} f.ports p

/-- A stream port changed. -/
def State.setPort (s : State) (r p : Nat) (f : Port → Port) : State :=
  s.setFab r (fun x => { x with ports := modify {} x.ports p f })

/-- A regional tree's source as it counts (R226): 12 to 14, and 9 and 10 where the region owns no lane, are off. -/
def treeSource (r sel : Nat) : Nat :=
  if 12 ≤ sel then 15 else if (sel == 9 || sel == 10) && r % 2 == 1 then 15 else sel

/-- A tree's source runs: a PLL output needs its PLL locked (R225). -/
def FabRegion.sourceOn (f : FabRegion) (r sel : Nat) : Bool :=
  let v := treeSource r sel
  if v = 15 then false else if v < 4 then f.pllLock.getLsbD 0 else if v < 8 then f.pllLock.getLsbD 1 else true

/-- A regional tree. -/
def FabRegion.tree (f : FabRegion) (t : Nat) : Tree := look {} f.trees t

/-- Regional tree t runs (R226; `FAB_REG_STATUS.TREES_ON`). -/
def State.treeOn (s : State) (r t : Nat) : Bool :=
  let f := s.fabric r
  f.sourceOn r (f.tree t).sel && !s.clk.hold && !s.pwr.inTrip

/-- The tree of a stream port channel (RX p at p, TX p at 8 + p), a control port (16 + c) or an I/O cell (20 + k) runs (R227,
R234, R235, R241). -/
def State.elemOn (s : State) (r e : Nat) : Bool := s.treeOn r (look 0 (s.fabric r).cells.clocks e)

/-- The event of a design at one of its elements can happen: power is good, the cells are released and the element's tree
runs (R227, R244). -/
def State.elemRuns (s : State) (r e : Nat) : Bool :=
  s.dev.pwrGood && decide (r < 64) && !(s.fabric r).isolated && s.elemOn r e

/-- A fabric transceiver lane. -/
def State.lane (s : State) (l : Nat) : FabLane := look {} s.ftx l

/-- A fabric transceiver lane changed. -/
def State.setLane (s : State) (l : Nat) (f : FabLane → FabLane) : State := { s with ftx := modify {} s.ftx l f }

/-- A Strait lane. -/
def State.strLane (s : State) (l : Nat) : StrLane := look {} s.strait.lanes l

/-- A Strait lane changed. -/
def State.setStrLane (s : State) (l : Nat) (f : StrLane → StrLane) : State :=
  { s with strait := { s.strait with lanes := modify {} s.strait.lanes l f } }

/-- Strait lanes up (R406). -/
def State.lanesUp (s : State) : Nat := ((List.range 32).filter (fun l => (s.strLane l).up)).length

/-- The open session of an identifier. -/
def State.session (s : State) (id : Nat) : Option Sess := s.sess.find? (fun x => x.id == id)

/-- An open session changed. -/
def State.setSess (s : State) (id : Nat) (f : Sess → Sess) : State :=
  { s with sess := s.sess.map (fun x => if x.id = id then f x else x) }

/-- Region r is fenced, by its own fence or its die's (R370). -/
def Units.fenced (u : Units) (r : Nat) : Bool := u.fencedRegions.getLsbD r || u.dieFenced.getLsbD (r / 2)

/-- Cluster c counts toward the capacity that the next boundary computes (R26, R27). -/
def Units.counts (u : Units) (c : Nat) : Bool := !u.retiredClusters.contains c && !u.fenced (c / 4)

/-- The slots of a cluster's eight logical tiles; at reset tile k in slot k (R5). -/
def Units.places (u : Units) (c : Nat) : List Nat := look (List.range 8) u.place c

/-- The physical slot that holds a logical tile (R4, R5, R179). -/
def Units.slotOf (u : Units) (lt : Nat) : Nat := lt / 8 * 9 + (u.places (lt / 8)).getD (lt % 8) 8

/-- The logical tile a physical slot holds, if any. -/
def Units.tileOf (u : Units) (i : Nat) : Option Nat :=
  match (posWhere (fun x => x == i % 9) 0 (u.places (i / 9))).head? with
  | some k => if u.retiredClusters.contains (i / 9) then none else some (i / 9 * 8 + k)
  | none => none

/-- The free mule of a cluster: a slot in service that holds no identity (R18, R52). -/
def Units.mule (u : Units) (c : Nat) : Option Nat :=
  (List.range 9).find? (fun p => !(u.places c).contains p && !u.retiredSlots.contains (c * 9 + p))

/-- Logical capacity (R26) as computed at the last boundary (R27). -/
def Units.capacity (u : Units) : Nat := 8 * ((List.range 256).filter (fun c => u.capMap.getLsbD c)).length

/-- Capacity computed once, after every change of units (R27, R48 step 3, R357). -/
def Units.compute (u : Units) : Units :=
  { u with
    capMap := (List.range 256).foldl (fun m c => if u.counts c then m ||| BitVec.ofNat 256 (2 ^ c) else m) 0
    oldFence := mapOf ((List.range 64).filter u.fenced) }

/-- The partner's live count of a region is in force: shadow service as primary or secondary (R333). -/
def Pair.shadow (p : Pair) : Bool := p.formed && !p.waits && p.mode == 1 && (p.role == 1 || p.role == 2) && !p.left

/-- The live clusters of one region: those that count since the last boundary, at most the common count of a shadow pair
(R27, R40, R333). -/
def State.liveOf (s : State) (r : Nat) : List Nat :=
  let l := ((List.range 4).map (fun k => r * 4 + k)).filter (fun c => s.units.capMap.getLsbD c)
  if s.pair.shadow then l.take (look 4 s.pair.partnerLive r) else l

/-- The live clusters of a partition in increasing number (R40). -/
def State.live (s : State) (regions : DWord) : List Nat := (members regions).flatMap s.liveOf

/-- The fold of an image of `c` clusters on `n` live clusters (R40). -/
def foldOf (c n : Nat) : Nat := if n = 0 then 0 else ceilDiv c n

/-- The part serves commands on mailboxes 1 to 255 (R278, R347, R362): stage 1's last step is done, the part is neither
parked, nor joining a pair. -/
def State.serving (s : State) : Bool :=
  (s.dev.phase == .open1 || s.dev.phase == .full) && s.dev.stage != 3 && s.pair.role != 3 &&
    (s.dev.pwrGood && !s.dev.uvHold)

/-- Tile clocks run: no thermal trip, no clock hold, not parked (R362, R387, R395). -/
def State.tilesRun (s : State) : Bool :=
  s.dev.pwrGood && !s.clk.hold && !s.pwr.inTrip && s.dev.stage != 3

/-- A region's gate word (R382). -/
def State.gateOf (s : State) (r : Nat) : Word := look 0 s.clk.gateRegion r

/-- An isle's gate word (R382). -/
def State.gateIsle (s : State) (i : Nat) : Word := look 0 s.clk.gateIsle i

/-- A cluster's clock is enabled (R382). -/
def State.clusterOn (s : State) (c : Nat) : Bool := (s.gateOf (c / 4)).getLsbD (c % 4)

/-- Bytes of the HBM range outside the reserve begin at 0 and end here (R186). -/
def hbmLimit : Nat := 0x139C0000000

/-- Where the LPDDR5X range begins (R179). -/
def lpBase : Nat := 0x20000000000

/-- The size of the LPDDR5X tier in bytes: N x C (R183). -/
def State.lpSize (s : State) : Nat := s.mpk.lpN * 2 ^ (s.mpk.lpCap + 30)

/-- The LPDDR5X reserve: ceil(0.02 x N x C) GiB (R186). -/
def State.lpReserve (s : State) : Nat := ceilDiv (s.mpk.lpN * 2 ^ s.mpk.lpCap * 2) 100 * 2 ^ 30

/-- The end of the LPDDR5X range outside the reserve (R186). -/
def State.lpLimit (s : State) : Nat :=
  if s.mpk.lpN = 0 then lpBase else lpBase + s.lpSize - s.lpReserve

/-- A device address lies in a DRAM range of the map (R179). -/
def State.isDram (s : State) (a : Nat) : Bool :=
  decide (a < 0x14000000000) || (decide (lpBase ≤ a) && decide (a < lpBase + s.lpSize))

/-- The xor of the successive w-bit groups of a number (R184). -/
def foldBits (w : Nat) : Nat → Nat → Nat
  | 0, _ => 0
  | n + 1, x => Nat.xor (x % 2 ^ w) (foldBits w n (x / 2 ^ w))

/-- The stack of an HBM address (R184). -/
def stackOf (a : Nat) : Nat := Nat.xor (a / 2048 % 16) (foldBits 4 10 (a / 2048 / 16))

/-- The pseudo-channel of an HBM address (R184). -/
def pcOf (a : Nat) : Nat := Nat.xor (a / 2048 / 16 % 32) (foldBits 5 8 (a / 2048 / 16 / 32))

/-- The byte within the pseudo-channel (R184). -/
def byteInPc (a : Nat) : Nat := a / 2048 / 16 / 32 * 2048 + a % 2048

/-- The interface of an LPDDR5X address with n interfaces (R185). -/
def ifaceOf (n a : Nat) : Nat :=
  let g := (a - lpBase) / 4096
  let q := if n = 0 then 0 else g / n
  let slot := if n = 0 then 0 else (g % n + foldBits 8 5 q) % n
  6 * (slot % 4) + slot / 4

/-- The byte within the interface with n interfaces (R185). -/
def byteInIf (n a : Nat) : Nat := (if n = 0 then 0 else (a - lpBase) / 4096 / n) * 4096 + a % 4096

/-- Pages of a pseudo-channel (R182, R194): 2.5 GiB in pages of 64 KiB. -/
def pcPages : Nat := 40960

/-- The spare space that an HBM address has been remapped to (R194): its page is copied. -/
def State.spareOf (s : State) (a : Nat) : Option Spare :=
  s.mpk.spares.find? (fun p => p.stack == stackOf a && p.pc == pcOf a && decide (byteInPc a / 65536 < p.pages))

/-- The stack that serves an HBM address: its own, or that of its spare (R184, R194). -/
def State.hbmCtl (s : State) (a : Nat) : Nat :=
  if s.mpk.spares.isEmpty then stackOf a
  else match s.spareOf a with
    | none => stackOf a
    | some p => Config.spareStack p.seed (byteInPc a / 2048) % 16

/-- The controller that serves a device address (R184, R185, R194). -/
def State.ctlOf (s : State) (a : Nat) : Nat := if a < lpBase then s.hbmCtl a else 16 + ifaceOf s.mpk.lpN a

/-- The controllers that serve a range of device memory, by its 2 KiB granules. -/
def State.ctlsOf (s : State) (a n : Nat) : List Nat :=
  ((List.range ((a % 2048 + n + 2047) / 2048)).map (fun i => s.ctlOf ((a / 2048 + i) * 2048))).eraseDups

/-- Some controller that serves the range is frozen (R195). -/
def State.frozenAt (s : State) (a n : Nat) : Bool := (s.ctlsOf a n).any (fun c => (s.memCtl c).frozen)

/-- Some controller is frozen (R196). -/
def State.anyFrozen (s : State) : Bool := (List.range 40).any (fun c => (s.memCtl c).frozen)

/-- A controller's clock is enabled (R382). -/
def State.ctlOn (s : State) (c : Nat) : Bool :=
  if c < 16 then (s.gateIsle (c / 4)).getLsbD (c % 4) else (s.gateIsle ((c - 16) / 6)).getLsbD (4 + (c - 16) % 6)

/-- The tier of a device address: true for LPDDR5X. -/
def isLp (a : Nat) : Bool := decide (lpBase ≤ a)

/-- The self-refresh state of a tier. -/
def State.tier (s : State) (lp : Bool) : TierSr := if lp then s.mpk.lp else s.mpk.hbm

/-- An access to a device address is held: its tier is in self-refresh or on its way out (R198). -/
def State.tierHeld (s : State) (a : Nat) : Bool := (s.tier (isLp a)).inSr || (s.tier (isLp a)).leaving

/-- A tier's self-refresh state set. -/
def State.setTier (s : State) (lp : Bool) (t : TierSr) : State :=
  if lp then { s with mpk := { s.mpk with lp := t } } else { s with mpk := { s.mpk with hbm := t } }

/-- A controller has accepted a write, or a read, perhaps behind a write of the tick (R189). -/
def MemCtl.accept (c : MemCtl) (write : Bool) : MemCtl :=
  if write then { c with wrote := true } else { c with inorder := c.inorder || c.wrote }

/-- An access to `n` bytes at `a` that the memory serves in the present tick (R189, R198). -/
def State.touch (s : State) (a n : Nat) (write : Bool) : State :=
  (s.ctlsOf a n).foldl (fun s c => s.setCtl c (fun x => x.accept write))
    { s with mpk := { s.mpk with served := s.mpk.served || isLp a } }

/-- In panic the ingress buffer's data outranks an access at any controller that both need (R191, R192). -/
def State.outranked (s : State) (a n : Nat) : Bool :=
  s.mpk.panic && s.mpk.ingress.any (fun e => (s.ctlsOf e.1 e.2.length).any (fun c => (s.ctlsOf a n).contains c))

/-- Two ranges of bytes, each a start and a length, share a byte. -/
def meet (a b : Nat × Nat) : Bool := decide (0 < a.2) && decide (0 < b.2) && decide (a.1 < b.1 + b.2) && decide (b.1 < a.1 + a.2)

/-- An access to `n` bytes at `a` waits: for its tier (R198), for the ingress buffer in panic (R191), or behind an
earlier access to the same bytes that waits. -/
def State.waits (s : State) (a n : Nat) : Bool :=
  s.tierHeld a || s.outranked a n || s.mpk.held.any (fun h => meet (h.addr, h.len) (a, n))

/-- An access that finds its tier in self-refresh starts the exit if none is under way (R198). -/
def State.startExit (s : State) (a : Nat) : State :=
  if (s.tier (isLp a)).leaving then s else s.setTier (isLp a) { leaving := true }

/-- Bytes of device memory. -/
def State.rdMem (s : State) (a n : Nat) : List Byte := rdBytes s.mem a n

/-- The primary marks written pages: a rejoin's transfer runs, or checkpoints are taken (R347, R349). -/
def Pair.marks (p : Pair) : Bool := p.phase != 0 || (p.mode == 2 && p.formed && p.role == 1)

/-- The 64 KiB pages of a range. -/
def pagesOf (a n : Nat) : List Nat := (List.range ((a % 65536 + n + 65535) / 65536)).map (fun i => a / 65536 + i)

/-- The pages of a written range marked (R347, R349). -/
def State.mark (s : State) (a n : Nat) : State :=
  if s.pair.marks then
    { s with pair := { s.pair with marked := s.pair.marked ++ (pagesOf a n).filter (fun p => !s.pair.marked.contains p) } }
  else s

/-- Bytes written to device memory. -/
def State.wrMem (s : State) (a : Nat) (b : List Byte) : State := { s.mark a b.length with mem := wrBytes s.mem a b }

/-- A range of device memory zeroed (R200, R302), but for what a frozen controller keeps (R195). -/
def State.zeroMem (s : State) (a n : Nat) : State :=
  let keeps := fun (c : Host.Cell) => !(decide (a ≤ c.1) && decide (c.1 < a + n)) || (s.memCtl (s.ctlOf c.1)).frozen
  { s.mark a n with mem := if s.anyFrozen then s.mem.filter keeps else clearRange s.mem a n }

/-- The 64-byte lines of a range of device memory. -/
def linesOf (a n : Nat) : List Nat := (List.range ((a % 64 + n + 63) / 64)).map (fun i => a / 64 + i)

/-- A back-invalidate snoop takes the lines of a range out of the snoop filter (R401). -/
def State.untrack (s : State) (a n : Nat) : State :=
  { s with cxl := { s.cxl with snooped := s.cxl.snooped.filter (fun l => !(decide (a / 64 ≤ l) && decide (64 * l < a + n))) } }

/-- The lines that the snoop filter tracks (R401): 16 Mi. -/
def snoopLines : Nat := 16777216

/-- The home host holds the lines of a range (R401): they are tracked, the oldest being dropped when the filter is full. -/
def State.track (s : State) (a n : Nat) : State :=
  let l := (s.untrack a n).cxl.snooped ++ linesOf a n
  { s with cxl := { s.cxl with snooped := (l.reverse.take snoopLines).reverse } }

/-- The controllers of a range serve requests: none is frozen (R195) or gated (R383). -/
def State.served (s : State) (a n : Nat) : Bool := !s.frozenAt a n && (s.ctlsOf a n).all s.ctlOn

/-- A write that a controller receives (R190, R195, R383): dropped by a frozen or gated one. -/
def State.hostStore (s : State) (a : Nat) (b : List Byte) : State :=
  if s.served a b.length then (((s.touch a b.length true).untrack a b.length).wrMem a b) else s

/-- An access has to be held: it waits, and no frozen controller refuses it at once (R195, R198). -/
def State.holds (s : State) (a n : Nat) : Bool := s.waits a n && !s.frozenAt a n

/-- An access held; the tier it finds in self-refresh begins to leave it (R198). -/
def State.holdAccess (s : State) (h : HeldAccess) : State :=
  let s := { s with mpk := { s.mpk with held := s.mpk.held ++ [h] } }
  if s.tierHeld h.addr then s.startExit h.addr else s

/-- A write to device memory by the part itself or one that a pair forwards (R195, R198, R323): held, or made. -/
def State.devStore (s : State) (a : Nat) (b : List Byte) (mb : Option Nat) : State :=
  if s.holds a b.length then s.holdAccess { kind := .write, addr := a, len := b.length, data := b, mb := mb }
  else s.hostStore a b

/-- A range zeroed for a command or a placement (R195, R198, R200, R302): held, or made. -/
def State.devZero (s : State) (a n : Nat) (mb : Option Nat) : State :=
  if s.holds a n then s.holdAccess { kind := .zero, addr := a, len := n, mb := mb } else s.zeroMem a n

/-- Device memory as it stands once every held write is made. -/
def State.memView (s : State) : Mem :=
  s.mpk.held.foldl (fun m h => match h.kind with
    | .write => if s.served h.addr h.len then wrBytes m h.addr h.data else m
    | .zero => clearRange m h.addr h.len
    | .read | .fetch => m) s.mem

/-- The command of a mailbox waits for an access that is held (R198). -/
def State.mbHeld (s : State) (n : Nat) : Bool := s.mpk.held.any (fun h => h.mb == some n)

/-- The sectors of 32 bytes that a range touches. -/
def sectorsOf (a n : Nat) : Nat := (a % 32 + n + 31) / 32

/-- Corrected errors of one pseudo-channel or channel of a controller (R193, R194). -/
def MemCtl.correct (c : MemCtl) (unit k tick : Nat) : MemCtl :=
  if k = 0 then c
  else { c with ceCount := c.ceCount + k, allCounts := modify 0 c.allCounts unit (· + k),
                ceTicks := modify [] c.ceTicks unit (fun l => List.replicate k tick ++ l.filter (fun t => decide (tick < t + 1048576))) }

/-- The errors corrected in a read of device memory (R193): how many of the sectors of each 2 KiB it reads had one is a
free value, as is the channel of an LPDDR5X interface or the pseudo-channel of a spare (log entry 55). -/
def State.correctRead (s : State) (a n : Nat) : State :=
  ((List.range ((a % 2048 + n + 2047) / 2048)).foldl (fun s i =>
    let lo := Nat.max a ((a / 2048 + i) * 2048)
    let hi := Nat.min (a + n) ((a / 2048 + i + 1) * 2048)
    let (v, s) := s.draw
    let k := v % (sectorsOf lo (hi - lo) + 1)
    let u := v / (sectorsOf lo (hi - lo) + 1)
    let unit := if isLp lo then u % 4 else if (s.spareOf lo).isSome then u % 32 else pcOf lo
    s.setCtl (s.ctlOf lo) (fun c => c.correct unit k s.tick.count)) s)

/-- The tick period in ns (R28). -/
def State.tickNs (s : State) : Nat := s.tick.period * 250

/-- The running firmware's version, security version and pair protocol (R420). -/
def State.fwVersion (s : State) : Nat := fld s.dev.fw 0xC 4

/-- The running image's security version (R420). -/
def State.fwSvn (s : State) : Nat := fld s.dev.fw 0xA 2

/-- The operator public key in use, if any (R365). -/
def State.operKey (s : State) : Option (List Byte) :=
  let k := slice s.dev.settings 0x40 64
  if s.dev.settings.length = 8192 && !zeros s.dev.settings 0x40 64 then some k else none

/-- The part's identity: the first 16 bytes of SHA-256 over 0x04, X, Y (R299, R417); zeros without an identity (R418). -/
def State.deviceId (s : State) : List Byte :=
  match s.sec.idKey with
  | none => zeroBytes 16
  | some d =>
    match toAffine (pointMul d p256G) with
    | none => zeroBytes 16
    | some (x, y) => (sha256 (0x04 :: beBytes 32 x ++ beBytes 32 y)).take 16

/-- The number of a core or tile mux (R381, R385): the domain's code and its instance number. -/
def muxKey (domain unit : Nat) : Nat := domain * 65536 + unit

/-- A core or tile mux is asked for a source (R385, R386): a switch begins, or waits behind the one in progress. The
entry of `muxNext` holds the source being switched to, plus 1, and 4 times one that waits, plus 1. -/
def State.muxAsk (s : State) (key src : Nat) : State :=
  let n := look 0 s.clk.muxNext key
  let v := if n ≠ 0 then n % 4 + 4 * (src + 1) else if look 0 s.clk.mux key = src then 0 else src + 1
  { s with clk := { s.clk with muxNext := put 0 s.clk.muxNext key v } }

/-- The source that a mux will stand at once its switches are over. -/
def State.muxGoal (s : State) (key : Nat) : Nat :=
  let n := look 0 s.clk.muxNext key
  if n = 0 then look 0 s.clk.mux key else if n / 4 ≠ 0 then n / 4 - 1 else n % 4 - 1

/-- The switch of a mux in progress ends, and one that waits begins (R385, R386). -/
def State.muxEnd (s : State) (key : Nat) : State :=
  let n := look 0 s.clk.muxNext key
  { s with clk := { s.clk with mux := put 0 s.clk.mux key (n % 4 - 1), muxNext := put 0 s.clk.muxNext key (n / 4) } }

/-- An entry written to the event log (R313). -/
def State.logEvent (s : State) (code source sess : Nat) (data : List Byte) (dump : Bool := false) : State :=
  let l := s.log
  let e : LogEntry := ⟨l.next, s.tick.count, code, source, sess, fit 40 data, dump⟩
  let es := l.entries ++ [e]
  let drop := es.length - Config.logDepth
  { s with log := { next := l.next + 1, base := l.base + drop, entries := es.drop drop } }

end Sys2Proof.Machine
end

