-- ==== Sys2Proof/Machine/Flags.lean ====
section
/-! DEFINITION. The registers by name and address (R10, R181), the flags among their fields, and the one way hardware
sets a flag: the flag reads 1 and its event counter goes up (R375 to R377). -/

namespace Sys2Proof.Machine

/-- The registers of the part, one constructor per heading of the register sections; `evPend n` is the event pending
word of mailbox n, block 11 of R377. -/
inductive Reg where
  | devStatus | flagSel | flagCount | tickCtrl | tickStatus | tickLo | tickHi | digLo | digHi | digTickLo | digTickHi
  | clkStatus | clkQual | gateRegion (r : Nat) | gateIsle (i : Nat)
  | pwrCtrl | pwrStatus | railStatus | pwrRegion (r : Nat)
  | strmPool (r : Nat) | strmLate (r : Nat)
  | strmStatus (r n : Nat) | strmErr (r n : Nat) | strmPos (r n : Nat) | strmTte (r n : Nat)
  | arrStatus (i : Nat) | arrOvf (i : Nat) | seqStatus (i : Nat) | seqErr (i : Nat)
  | memStatus (n : Nat) | memCe (n : Nat) | ueLo (n : Nat) | ueHi (n : Nat) | memRetired (n : Nat)
  | rtCtrl | rtStatus | eccCtrl | memPkg
  | fabStatus (r : Nat) | fabTree (r t : Nat) | portStatus (r p : Nat) | portErr (r p : Nat) | cpErr (r : Nat)
  | fabImgLo (r : Nat) | fabImgHi (r : Nat) | fabStartup (r : Nat) | cfg | cfgFail | cfgChain (i : Nat)
  | cxlStatus | cxlReplay | strStatus | strLane (l : Nat) | ftxStatus (l : Nat) | ftxRate (l : Nat)
  | pairState | cmpLo | cmpHi | pairCounts | pairXfer
  | secStatus | secRb | sealCtrl | secSlot (k : Nat) | sealBuf (k : Nat)
  | mbStatus (n : Nat) | mbSession (n : Nat) | mbxWindow
  | evPend (n : Nat)
  deriving DecidableEq, Repr

/-- The register at an offset within a block (R181, R377), none where no chapter defines one. -/
def regAt (block off : Nat) : Option Reg :=
  if off % 4 ≠ 0 then none
  else if block = 0 then
    (if off = 0 then some .devStatus else if off = 8 then some .flagSel else if off = 0xC then some .flagCount
    else if off = 0x100 then some .tickCtrl else if off = 0x104 then some .tickStatus
    else if off = 0x108 then some .tickLo else if off = 0x10C then some .tickHi
    else if off = 0x110 then some .digLo else if off = 0x114 then some .digHi
    else if off = 0x118 then some .digTickLo else if off = 0x11C then some .digTickHi else none)
  else if block = 1 then
    (if off = 0 then some .clkStatus else if off = 4 then some .clkQual
    else if 0x100 ≤ off ∧ off < 0x200 then some (.gateRegion ((off - 0x100) / 4))
    else if 0x200 ≤ off ∧ off < 0x210 then some (.gateIsle ((off - 0x200) / 4)) else none)
  else if block = 2 then
    (if off = 0 then some .pwrCtrl else if off = 4 then some .pwrStatus else if off = 8 then some .railStatus
    else if 0x100 ≤ off ∧ off < 0x200 then some (.pwrRegion ((off - 0x100) / 4)) else none)
  else if block = 3 then
    (let r := off / 0x1000
    let o := off % 0x1000
    if r ≥ 64 then none
    else if o = 0 then some (.strmPool r) else if o = 4 then some (.strmLate r)
    else if 0x100 ≤ o ∧ o < 0x300 then
      (let n := (o - 0x100) / 16
      if o % 16 = 0 then some (.strmStatus r n) else if o % 16 = 4 then some (.strmErr r n)
      else if o % 16 = 8 then some (.strmPos r n) else some (.strmTte r n))
    else none)
  else if block = 4 then
    (let i := off / 0x1000
    let o := off % 0x1000
    if i ≥ 2304 then none
    else if o = 0 then some (.arrStatus i) else if o = 4 then some (.arrOvf i)
    else if o = 0x100 then some (.seqStatus i) else if o = 0x104 then some (.seqErr i) else none)
  else if block = 5 then
    (let n := off / 0x1000
    let o := off % 0x1000
    if n = 0x28 then
      (if o = 0 then some .rtCtrl else if o = 4 then some .rtStatus else if o = 8 then some .eccCtrl
      else if o = 0xC then some .memPkg else none)
    else if n ≥ 40 then none
    else if o = 0 then some (.memStatus n) else if o = 4 then some (.memCe n) else if o = 8 then some (.ueLo n)
    else if o = 0xC then some (.ueHi n) else if o = 0x10 then some (.memRetired n) else none)
  else if block = 6 then
    (let r := off / 0x1000
    let o := off % 0x1000
    if r = 0x40 then
      (if o = 0 then some .cfg else if o = 4 then some .cfgFail
      else if 0x10 ≤ o ∧ o < 0x20 then some (.cfgChain ((o - 0x10) / 4)) else none)
    else if r ≥ 64 then none
    else if o = 0 then some (.fabStatus r)
    else if 0x20 ≤ o ∧ o < 0x40 then some (.fabTree r ((o - 0x20) / 4))
    else if 0x40 ≤ o ∧ o < 0x80 then
      (if o % 8 = 0 then some (.portStatus r ((o - 0x40) / 8)) else some (.portErr r ((o - 0x40) / 8)))
    else if o = 0x80 then some (.cpErr r) else if o = 0x90 then some (.fabImgLo r)
    else if o = 0x94 then some (.fabImgHi r) else if o = 0x98 then some (.fabStartup r) else none)
  else if block = 7 then
    (if off = 0 then some .cxlStatus else if off = 4 then some .cxlReplay else if off = 0x1000 then some .strStatus
    else if 0x1100 ≤ off ∧ off < 0x1180 then some (.strLane ((off - 0x1100) / 4))
    else if 0x2000 ≤ off ∧ off < 0x2200 then
      (if off % 16 = 0 then some (.ftxStatus ((off - 0x2000) / 16))
      else if off % 16 = 4 then some (.ftxRate ((off - 0x2000) / 16)) else none)
    else none)
  else if block = 8 then
    (if off = 0 then some .pairState else if off = 4 then some .cmpLo else if off = 8 then some .cmpHi
    else if off = 0xC then some .pairCounts else if off = 0x10 then some .pairXfer else none)
  else if block = 9 then
    (if off = 0 then some .secStatus else if off = 4 then some .secRb else if off = 0x10 then some .sealCtrl
    else if 0x20 ≤ off ∧ off < 0x40 then some (.secSlot ((off - 0x20) / 4))
    else if 0x100 ≤ off ∧ off < 0x180 then some (.sealBuf ((off - 0x100) / 4)) else none)
  else if block = 10 then
    (if off < 0x1000 then
      (if off % 16 = 0 then some (.mbStatus (off / 16)) else if off % 16 = 4 then some (.mbSession (off / 16)) else none)
    else if off = 0x1000 then some .mbxWindow else none)
  else if block = 11 then
    (if off % 0x1000 = 0xF14 ∧ off / 0x1000 < 256 then some (.evPend (off / 0x1000)) else none)
  else none

/-- The register at a device address (R181); block 11 has no device address. -/
def regOf (a : Nat) : Option Reg :=
  if 0x1F0000000000 ≤ a ∧ a < 0x1F000B000000 then regAt ((a - 0x1F0000000000) / 0x1000000) (a % 0x1000000) else none

/-- A key for a register with flags: block and offset as one number, the flag selector's numbering (R377). -/
def Reg.key : Reg → Nat
  | .devStatus => 0
  | .tickStatus => 0x104
  | .clkStatus => 0x1000000
  | .pwrStatus => 0x2000004
  | .railStatus => 0x2000008
  | .strmLate r => 0x3000004 + r * 0x1000
  | .strmStatus r n => 0x3000100 + r * 0x1000 + n * 16
  | .strmErr r n => 0x3000104 + r * 0x1000 + n * 16
  | .arrStatus i => 0x4000000 + i * 0x1000
  | .arrOvf i => 0x4000004 + i * 0x1000
  | .seqStatus i => 0x4000100 + i * 0x1000
  | .seqErr i => 0x4000104 + i * 0x1000
  | .memStatus n => 0x5000000 + n * 0x1000
  | .rtStatus => 0x5028004
  | .memPkg => 0x502800C
  | .fabStatus r => 0x6000000 + r * 0x1000
  | .portErr r p => 0x6000044 + r * 0x1000 + p * 8
  | .cpErr r => 0x6000080 + r * 0x1000
  | .cfg => 0x6040000
  | .cfgFail => 0x6040004
  | .cxlStatus => 0x7000000
  | .strStatus => 0x7001000
  | .strLane l => 0x7001100 + l * 4
  | .ftxStatus l => 0x7002000 + l * 16
  | .pairState => 0x8000000
  | .secStatus => 0x9000000
  | .mbStatus n => 0xA000000 + n * 16
  | .evPend n => 0xB000F14 + n * 0x1000
  | .flagSel | .flagCount | .tickCtrl | .tickLo | .tickHi | .digLo | .digHi | .digTickLo | .digTickHi | .clkQual
  | .gateRegion _ | .gateIsle _ | .pwrCtrl | .pwrRegion _ | .strmPool _ | .strmPos _ _ | .strmTte _ _ | .memCe _
  | .ueLo _ | .ueHi _ | .memRetired _ | .rtCtrl | .eccCtrl | .fabTree _ _ | .portStatus _ _ | .fabImgLo _
  | .fabImgHi _ | .fabStartup _ | .cfgChain _ | .cxlReplay | .ftxRate _ | .cmpLo | .cmpHi | .pairCounts | .pairXfer
  | .secRb | .sealCtrl | .secSlot _ | .sealBuf _ | .mbSession _ | .mbxWindow => 0xC000000

/-- The flag bits of a register (R375): its `W1C` fields. -/
def Reg.flagMask : Reg → Word
  | .devStatus => 0x02000000
  | .tickStatus => 0xE0000000
  | .clkStatus => 0x78000000
  | .pwrStatus => 0x78000000
  | .railStatus => 0x80000000
  | .strmLate _ => 0xFFFFFFFF
  | .strmStatus _ _ => 0x04000000
  | .strmErr _ _ => 0xFC000000
  | .arrStatus _ => 0x60000000
  | .arrOvf _ => 0x00000001
  | .seqStatus _ => 0x1CF00000
  | .seqErr _ => 0x00002000
  | .memStatus _ => 0x22000000
  | .rtStatus => 0x40000000
  | .memPkg => 0x80000000
  | .fabStatus _ => 0x04000000
  | .portErr _ _ => 0xC0000000
  | .cpErr _ => 0xF0000000
  | .cfg => 0xFE000000
  | .cfgFail => 0x80000000
  | .cxlStatus => 0x0E000000
  | .strStatus => 0x18000000
  | .strLane _ => 0x40000000
  | .ftxStatus _ => 0x0C000000
  | .pairState => 0x07B00000
  | .secStatus => 0x18000000
  | .mbStatus _ => 0x18000000
  | .evPend _ => 0x0000000F
  | .flagSel | .flagCount | .tickCtrl | .tickLo | .tickHi | .digLo | .digHi | .digTickLo | .digTickHi | .clkQual
  | .gateRegion _ | .gateIsle _ | .pwrCtrl | .pwrRegion _ | .strmPool _ | .strmPos _ _ | .strmTte _ _ | .memCe _
  | .ueLo _ | .ueHi _ | .memRetired _ | .rtCtrl | .eccCtrl | .fabTree _ _ | .portStatus _ _ | .fabImgLo _
  | .fabImgHi _ | .fabStartup _ | .cfgChain _ | .cxlReplay | .ftxRate _ | .cmpLo | .cmpHi | .pairCounts | .pairXfer
  | .secRb | .sealCtrl | .secSlot _ | .sealBuf _ | .mbSession _ | .mbxWindow => 0

/-- A word with one bit at position i. -/
def bitW (i : Nat) (b : Bool) : Word := if b then BitVec.ofNat 32 (2 ^ i) else 0

/-- The bits of a list, each at its position. -/
def bitsW (l : List (Nat × Bool)) : Word := l.foldl (fun w p => w ||| bitW p.1 p.2) 0

/-- The flags of a register as they stand (R11, R375). -/
def State.flags (s : State) : Reg → Word
  | .devStatus => bitW 25 s.dev.smbRefused
  | .tickStatus => bitsW [(31, s.tick.hang), (30, s.tick.stretch), (29, s.tick.emerg)]
  | .clkStatus => bitsW [(30, s.clk.stuck), (29, s.clk.xtalLost), (28, s.clk.refLost), (27, s.clk.qualFail)]
  | .pwrStatus => bitsW [(30, s.pwr.clampSeen), (29, s.pwr.trip), (28, s.pwr.hotDie), (27, s.pwr.uncontrolled)]
  | .railStatus => bitW 31 s.pwr.uvSeen
  | .strmLate r => (s.engine r).late
  | .strmStatus r n => bitW 26 (s.stream r n).r.done
  | .strmErr r n =>
    let g := (s.stream r n).r
    bitsW [(31, g.rearmOverrun), (30, g.stall), (29, g.aborted), (28, g.idxRange), (27, g.bus), (26, g.memUe)]
  | .arrStatus i => bitsW [(30, (s.tile i).r.discard), (29, (s.tile i).r.qstall)]
  | .arrOvf i => bitW 0 (s.tile i).r.ovf
  | .seqStatus i =>
    let g := (s.tile i).r
    bitsW [(28, g.err), (27, g.fatal), (26, g.spec)] ||| (g.dlate.setWidth 32 <<< 20)
  | .seqErr i => bitW 13 (s.tile i).r.valid
  | .memStatus n => bitsW [(29, (s.memCtl n).hot), (25, (s.memCtl n).ue)]
  | .rtStatus => bitW 30 s.mpk.panicSeen
  | .memPkg => bitW 31 s.mpk.unmapped
  | .fabStatus r => bitW 26 (s.fabric r).isoSeen
  | .portErr r p => bitsW [(31, ((s.fabric r).port p).credOvf), (30, ((s.fabric r).port p).noCred)]
  | .cpErr r => (s.fabric r).cpErr.setWidth 32 <<< 28
  | .cfg => bitsW [(31, s.fcfg.trunc), (30, s.fcfg.auth), (29, s.fcfg.format), (28, s.fcfg.crc), (27, s.fcfg.timeout),
      (26, s.fcfg.aborted), (25, s.fcfg.reject)]
  | .cfgFail => bitW 31 s.fcfg.failValid
  | .cxlStatus => bitsW [(27, s.cxl.down), (26, s.cxl.ideFail), (25, s.cxl.retrain)]
  | .strStatus => bitsW [(28, s.strait.laneDrop), (27, s.strait.down)]
  | .strLane l => bitW 30 (s.strLane l).removed
  | .ftxStatus l => bitsW [(27, (s.lane l).coefErr), (26, (s.lane l).lockLost)]
  | .pairState => bitsW [(26, s.pair.partnerLost), (25, s.pair.linkLost), (24, s.pair.hbFault), (23, s.pair.diverged),
      (21, s.pair.secWrite), (20, s.pair.laneOvf)]
  | .secStatus => bitsW [(28, s.sec.rbAdvFail), (27, s.sec.schedAuthFail)]
  | .mbStatus n => bitsW [(28, (s.mb n).ignored), (27, (s.mb n).ringBad)]
  | .evPend n => (s.mb n).pend
  | .flagSel | .flagCount | .tickCtrl | .tickLo | .tickHi | .digLo | .digHi | .digTickLo | .digTickHi | .clkQual
  | .gateRegion _ | .gateIsle _ | .pwrCtrl | .pwrRegion _ | .strmPool _ | .strmPos _ _ | .strmTte _ _ | .memCe _
  | .ueLo _ | .ueHi _ | .memRetired _ | .rtCtrl | .eccCtrl | .fabTree _ _ | .portStatus _ _ | .fabImgLo _
  | .fabImgHi _ | .fabStartup _ | .cfgChain _ | .cxlReplay | .ftxRate _ | .cmpLo | .cmpHi | .pairCounts | .pairXfer
  | .secRb | .sealCtrl | .secSlot _ | .sealBuf _ | .mbSession _ | .mbxWindow => 0

/-- A tile's registers changed in place. -/
def State.setTileRegs (s : State) (i : Nat) (f : TileRegs → TileRegs) : State :=
  s.putTile i { s.tile i with r := f (s.tile i).r }

/-- The flags of a register given the values of a word. -/
def State.putFlags (s : State) (g : Reg) (w : Word) : State :=
  let b := fun (i : Nat) => w.getLsbD i
  match g with
  | .devStatus => { s with dev := { s.dev with smbRefused := b 25 } }
  | .tickStatus => { s with tick := { s.tick with hang := b 31, stretch := b 30, emerg := b 29 } }
  | .clkStatus => { s with clk := { s.clk with stuck := b 30, xtalLost := b 29, refLost := b 28, qualFail := b 27 } }
  | .pwrStatus =>
    { s with pwr := { s.pwr with clampSeen := b 30, trip := b 29, hotDie := b 28, uncontrolled := b 27 } }
  | .railStatus => { s with pwr := { s.pwr with uvSeen := b 31 } }
  | .strmLate r => { s with eng := modify {} s.eng r (fun e => { e with late := w }) }
  | .strmStatus r n => s.setStream r n (fun x => { x with r := { x.r with done := b 26 } })
  | .strmErr r n => s.setStream r n (fun x => { x with r := { x.r with
      rearmOverrun := b 31, stall := b 30, aborted := b 29, idxRange := b 28, bus := b 27, memUe := b 26 } })
  | .arrStatus i => s.setTileRegs i (fun x => { x with discard := b 30, qstall := b 29 })
  | .arrOvf i => s.setTileRegs i (fun x => { x with ovf := b 0 })
  | .seqStatus i => s.setTileRegs i (fun x => { x with
      err := b 28, fatal := b 27, spec := b 26, dlate := (w >>> 20).setWidth 4 })
  | .seqErr i => s.setTileRegs i (fun x => { x with valid := b 13 })
  | .memStatus n => s.setCtl n (fun x => { x with hot := b 29, ue := b 25 })
  | .rtStatus => { s with mpk := { s.mpk with panicSeen := b 30 } }
  | .memPkg => { s with mpk := { s.mpk with unmapped := b 31 } }
  | .fabStatus r => s.setFab r (fun x => { x with isoSeen := b 26 })
  | .portErr r p => s.setPort r p (fun x => { x with credOvf := b 31, noCred := b 30 })
  | .cpErr r => s.setFab r (fun x => { x with cpErr := (w >>> 28).setWidth 4 })
  | .cfg => { s with fcfg := { s.fcfg with trunc := b 31, auth := b 30, format := b 29, crc := b 28, timeout := b 27,
                                           aborted := b 26, reject := b 25 } }
  | .cfgFail => { s with fcfg := { s.fcfg with failValid := b 31 } }
  | .cxlStatus => { s with cxl := { s.cxl with down := b 27, ideFail := b 26, retrain := b 25 } }
  | .strStatus => { s with strait := { s.strait with laneDrop := b 28, down := b 27 } }
  | .strLane l => s.setStrLane l (fun x => { x with removed := b 30 })
  | .ftxStatus l => s.setLane l (fun x => { x with coefErr := b 27, lockLost := b 26 })
  | .pairState => { s with pair := { s.pair with partnerLost := b 26, linkLost := b 25, hbFault := b 24,
                                                 diverged := b 23, secWrite := b 21, laneOvf := b 20 } }
  | .secStatus => { s with sec := { s.sec with rbAdvFail := b 28, schedAuthFail := b 27 } }
  | .mbStatus n => s.setMb n (fun x => { x with ignored := b 28, ringBad := b 27 })
  | .evPend n => s.setMb n (fun x => { x with pend := w })
  | .flagSel | .flagCount | .tickCtrl | .tickLo | .tickHi | .digLo | .digHi | .digTickLo | .digTickHi | .clkQual
  | .gateRegion _ | .gateIsle _ | .pwrCtrl | .pwrRegion _ | .strmPool _ | .strmPos _ _ | .strmTte _ _ | .memCe _
  | .ueLo _ | .ueHi _ | .memRetired _ | .rtCtrl | .eccCtrl | .fabTree _ _ | .portStatus _ _ | .fabImgLo _
  | .fabImgHi _ | .fabStartup _ | .cfgChain _ | .cxlReplay | .ftxRate _ | .cmpLo | .cmpHi | .pairCounts | .pairXfer
  | .secRb | .sealCtrl | .secSlot _ | .sealBuf _ | .mbSession _ | .mbxWindow => s

/-- The event counter of flag `bit` of a register (R376). -/
def State.flagCount (s : State) (g : Reg) (bit : Nat) : Nat := look 0 s.flagCnt (g.key * 32 + bit)

/-- One more event for each of a list of flag bits, modulo 2^32 (R376). -/
def bumpFlags (t : Tab Nat) (key : Nat) : List Nat → Tab Nat
  | [] => t
  | b :: r => bumpFlags (modify 0 t (key * 32 + b) (fun n => (n + 1) % 2 ^ 32)) key r

/-- The bits of a word, lowest first. -/
def bitsOfWord (w : Word) : List Nat := (List.range 32).filter (fun i => w.getLsbD i)

/-- Hardware sets the flags of a mask in one cycle (R375, R376): each reads 1 and its counter goes up by 1. -/
def State.raise (s : State) (g : Reg) (mask : Word) : State :=
  let m := mask &&& g.flagMask
  let s := s.putFlags g (s.flags g ||| m)
  { s with flagCnt := bumpFlags s.flagCnt g.key (bitsOfWord m) }

/-- Software clears the flags of a write's 1 bits; a set by hardware in the same cycle wins (R375, R376). -/
def State.w1c (s : State) (g : Reg) (w hwSet : Word) : State :=
  let m := hwSet &&& g.flagMask
  let s := s.putFlags g ((s.flags g &&& ~~~ w) ||| m)
  { s with flagCnt := bumpFlags s.flagCnt g.key (bitsOfWord m) }

/-- A tile changed by an operation that sets its flags itself: the flags it set are counted (R376), those that were set
before stay. -/
def State.runTile (s : State) (i : Nat) (f : Tile → Tile) : State :=
  let t := s.tile i
  let g := t.r
  let clean := { g with discard := false, qstall := false, ovf := false, err := false, fatal := false, spec := false,
                        dlate := 0 }
  let t' := f { t with r := clean }
  let n := t'.r
  let arr := bitsW [(30, n.discard), (29, n.qstall)]
  let seq := bitsW [(28, n.err), (27, n.fatal), (26, n.spec)] ||| (n.dlate.setWidth 32 <<< 20)
  let val := bitW 13 (n.valid && !g.valid)
  let merged := { n with discard := g.discard || n.discard, qstall := g.qstall || n.qstall, ovf := g.ovf || n.ovf,
                         err := g.err || n.err, fatal := g.fatal || n.fatal, spec := g.spec || n.spec,
                         dlate := g.dlate ||| n.dlate }
  let c := s.flagCnt
  let c := bumpFlags c (Reg.arrStatus i).key (bitsOfWord arr)
  let c := bumpFlags c (Reg.arrOvf i).key (bitsOfWord (bitW 0 n.ovf))
  let c := bumpFlags c (Reg.seqStatus i).key (bitsOfWord seq)
  let c := bumpFlags c (Reg.seqErr i).key (bitsOfWord val)
  { s.putTile i { t' with r := merged } with flagCnt := c }

end Sys2Proof.Machine
end

