-- ==== Sys2Proof/Machine/StreamOps.lean ====
section
/-! DEFINITION. What the stream engine works with (06): the stream descriptor (R150), where its ends lie (R41, R42,
R159), how its rows are cut into bursts (R149), the next burst of a stream (R165, R167), delivery (R152 to R157, R160)
and what stops a stream (R172, R176, R177). -/

namespace Sys2Proof.Machine

/-- The fields of a stream descriptor (R150). -/
structure SDesc where
  kind : Nat
  fence : Bool
  widen : Bool
  narrow : Bool
  idxPort : Bool
  src : Nat
  dst : Nat
  srcUnit : Nat
  dstUnit : Nat
  srcTensor : Nat
  dstTensor : Nat
  rowBytes : Nat
  srcOff : Nat
  dstOff : Nat
  rows : Nat
  srcStride : Nat
  dstStride : Nat
  idxTensor : Nat
  idxPortNum : Nat
  bcast : Nat
  idxOff : Nat
  idxLimit : Nat
  tEsize : Nat
  tPack : Nat
  deriving DecidableEq, Repr

/-- A stream descriptor's 64 bytes read (R150). -/
def parseSDesc (b : List Byte) : SDesc :=
  let fl := fld b 1 1
  { kind := fld b 0 1, fence := bitAt fl 0, widen := bitAt fl 1, narrow := bitAt fl 2, idxPort := bitAt fl 3,
    src := fld b 2 1, dst := fld b 3 1, srcUnit := fld b 4 2, dstUnit := fld b 6 2, srcTensor := fld b 8 2,
    dstTensor := fld b 0xA 2, rowBytes := fld b 0xC 4, srcOff := fld b 0x10 8, dstOff := fld b 0x18 8,
    rows := fld b 0x20 4, srcStride := fld b 0x24 4, dstStride := fld b 0x28 4, idxTensor := fld b 0x2C 2,
    idxPortNum := fld b 0x2E 1, bcast := fld b 0x2F 1, idxOff := fld b 0x30 8, idxLimit := fld b 0x38 4,
    tEsize := fld b 0x3C 1, tPack := fld b 0x3D 1 }

/-- The descriptor names indices (R153). -/
def SDesc.usesIdx (d : SDesc) : Bool :=
  d.kind == 1 || d.kind == 2 || (d.kind == 3 && (d.idxPort || d.idxTensor != 0xFFFF))

/-- A row's length at the packed end of a descriptor with `WIDEN6` or `NARROW6`, else its length (R149, R156). -/
def SDesc.packedRow (d : SDesc) : Nat := if d.widen || d.narrow then d.rowBytes * 3 / 4 else d.rowBytes

/-- A row's length at the source. -/
def SDesc.srcRow (d : SDesc) : Nat := if d.widen then d.packedRow else d.rowBytes

/-- A row's length at the destination. -/
def SDesc.dstRow (d : SDesc) : Nat := if d.narrow then d.packedRow else d.rowBytes

/-- The rows are contiguous at both ends, so they move as one run of full bursts (R149). -/
def SDesc.isRun (d : SDesc) : Bool :=
  (d.kind == 0 || d.kind == 5) && (d.src == 3 || d.srcStride == d.srcRow) && (d.dst ≥ 3 || d.dstStride == d.dstRow)

/-- Bursts of one row (R149). -/
def SDesc.perRow (d : SDesc) : Nat := ceilDiv d.packedRow 512

/-- Data bursts of the whole descriptor (R149). -/
def SDesc.bursts (d : SDesc) : Nat := if d.isRun then ceilDiv (d.rows * d.packedRow) 512 else d.rows * d.perRow

/-- Bytes delivered in all: rows of `ROW_BYTES`. -/
def SDesc.total (d : SDesc) : Nat := d.rows * d.rowBytes

/-- Where the k-th burst boundary of a row or run lies among the bytes as delivered; the bursts are counted at the
packed end (R149). -/
def SDesc.cut (d : SDesc) (len k : Nat) : Nat :=
  Nat.min len (if d.widen || d.narrow then 512 * k * 4 / 3 else 512 * k)

/-- The delivered bytes that burst `k` covers, as a range over all rows. -/
def SDesc.span (d : SDesc) (k : Nat) : Nat × Nat :=
  if d.isRun then (d.cut d.total k, d.cut d.total (k + 1))
  else
    let row := if d.perRow = 0 then 0 else k / d.perRow
    let j := if d.perRow = 0 then 0 else k % d.perRow
    (row * d.rowBytes + d.cut d.rowBytes j, row * d.rowBytes + d.cut d.rowBytes (j + 1))

/-- Rows of which every byte lies below burst `k`. -/
def SDesc.rowsBelow (d : SDesc) (k : Nat) : Nat :=
  if d.isRun then (if d.rowBytes = 0 then 0 else d.cut d.total k / d.rowBytes)
  else if d.perRow = 0 then 0 else k / d.perRow

/-- The row that burst `k` starts in. -/
def SDesc.rowOf (d : SDesc) (k : Nat) : Nat := if d.rowBytes = 0 then 0 else (d.span k).1 / d.rowBytes

/-- Burst `k` is the last of its row (or run). -/
def SDesc.endsRow (d : SDesc) (k : Nat) : Bool :=
  if d.isRun then k + 1 == d.bursts else (k + 1) % (if d.perRow = 0 then 1 else d.perRow) == 0

/-- Output rows of a transposing gather, E / p (R155). -/
def SDesc.outRows (d : SDesc) : Nat :=
  let bits := 4 * 2 ^ d.tEsize
  if d.tPack = 0 then 0 else d.rowBytes * 8 / bits / d.tPack

/-- Bytes of an output row of a transposing gather (R155). -/
def SDesc.outRowBytes (d : SDesc) : Nat := d.rows * d.tPack * (4 * 2 ^ d.tEsize) / 8

/-- Rows that the descriptor delivers. -/
def SDesc.delivers (d : SDesc) : Nat := if d.kind = 3 then d.outRows else d.rows

/-- Packed FP6 widened, elements `i` up (R91, R156): `b` holds whole bytes from the one element `i` begins in. -/
def unpack6 (b : List Byte) (i n : Nat) : List Byte :=
  let v := ofLe b
  let lo := i * 6 / 8 * 8
  (List.range n).map (fun k => BitVec.ofNat 8 (v / 2 ^ ((i + k) * 6 - lo) % 64))

/-- Bytes narrowed to packed FP6 (R91, R156). -/
def pack6 (b : List Byte) : List Byte :=
  let v := b.foldr (fun x acc => x.toNat % 64 + 64 * acc) 0
  leBytes (b.length * 6 / 8) v

/-- What a ring runs with: its image, the addresses that a replay's own copies take in place of tensors (R216), and the
live cluster and slice that its image cluster has in the present sub-tick (R40, R42). -/
structure Home where
  img : Image
  copies : Tab Nat
  cluster : Nat
  base : Nat
  deriving DecidableEq, Repr

/-- Bytes of a slice at a fold (R42). -/
def sliceOf (fold : Nat) : Nat := if fold = 0 then 0 else 0x1600000 / fold / 65536 * 65536

/-- An image's binding in a run: the live cluster of an image cluster and where its slice begins (R40, R42). -/
def Run.bindOf (run : Run) (c : Nat) : Nat × Nat :=
  let n := run.live.length
  if n = 0 then (0, 0) else (run.live.getD (c % n) 0, (c / n) * sliceOf run.sliceFold)

/-- The home of a ring. -/
def State.homeOf (s : State) (g : Ring) : Option Home :=
  match s.session g.sess with
  | none => none
  | some x =>
    match x.running with
    | none => none
    | some run =>
      let b := run.bindOf g.imgCluster
      some { img := { look {} x.images g.image with bound := run.bound }
             copies := match run.item.replay with | some q => q.copies | none => []
             cluster := b.1, base := b.2 }

/-- The device address of a tensor (R200, R216, R303). -/
def Home.tensor (h : Home) (t : Nat) : Nat :=
  let c := look 0 h.copies t
  if c ≠ 0 then c - 1 else
    let b := look 0 h.img.bound t
    if b ≠ 0 then b - 1 else look 0 h.img.place t

/-- The offset of an image's descriptor section (R34). -/
def Image.descSect (i : Image) : Nat := fld i.bytes 0x80 8

/-- The device address of descriptor `k` of a ring, in the session's copy of the descriptor section (R147). -/
def Home.fetchAt (h : Home) (g : Ring) (k : Nat) : Nat := h.img.descAt + g.off + 64 * k

/-- Descriptor `k` of a ring (R146, R147). -/
def Home.desc (h : Home) (g : Ring) (k : Nat) : SDesc :=
  parseSDesc (slice h.img.bytes (h.img.descSect + g.off + 64 * k) 64)

/-- One end of a descriptor. -/
inductive Place where
  | memory (base : Nat)
  | buffer (cluster base : Nat)
  | store (slot : Nat)
  | port (p : Nat)
  | queue (stationary : Bool) (slots : List Nat)
  deriving DecidableEq, Repr

/-- The physical slot of logical tile k of a home's cluster (R4, R40). -/
def State.slotIn (s : State) (h : Home) (k : Nat) : Nat := s.units.slotOf (h.cluster * 8 + k)

/-- The source of a descriptor. -/
def State.srcPlace (s : State) (h : Home) (d : SDesc) : Place :=
  if d.src = 0 then .memory (h.tensor d.srcTensor)
  else if d.src = 1 then .buffer h.cluster h.base
  else if d.src = 2 then .store (s.slotIn h (d.srcUnit % 8))
  else .port d.srcUnit

/-- The destination of a descriptor; a broadcast's are the queues of the tiles in `BCAST` (R152). -/
def State.dstPlace (s : State) (h : Home) (d : SDesc) : Place :=
  if d.dst = 0 then .memory (h.tensor d.dstTensor)
  else if d.dst = 1 then .buffer h.cluster h.base
  else if d.dst = 2 then .store (s.slotIn h (d.dstUnit % 8))
  else if d.dst = 3 then .port d.dstUnit
  else if d.kind = 4 then
    .queue (d.dst == 5) (((List.range 8).filter (fun k => bitAt d.bcast k)).map (s.slotIn h))
  else .queue (d.dst == 5) [s.slotIn h (d.dstUnit % 8)]

/-- What an access of a stream meets (R176, R195, R383): nothing, an error response, or a frozen controller. -/
inductive Meets where
  | fine | busError | frozen
  deriving DecidableEq, Repr

/-- What an access to `n` bytes at `a` of a place meets in region `r`. -/
def State.meets (s : State) (r : Nat) (p : Place) (a n : Nat) : Meets :=
  match p with
  | .memory base =>
    if s.frozenAt (base + a) n then .frozen
    else if (s.ctlsOf (base + a) n).all s.ctlOn then .fine else .busError
  | .buffer c _ => if s.clusterOn c then .fine else .busError
  | .store slot => if s.clusterOn (slot / 9) then .fine else .busError
  | .queue _ slots => if slots.all (fun i => s.clusterOn (i / 9)) then .fine else .busError
  | .port _ => if (s.gateOf r).getLsbD 8 then .fine else .busError

/-- Bytes read from a place; a cluster buffer is read in its readable bank (R161). -/
def State.rdPlace (s : State) (p : Place) (a n : Nat) : List Byte :=
  match p with
  | .memory base => s.rdMem (base + a) n
  | .buffer c base => rdBytes (s.buf c).read (base + a) n
  | .store slot => rdBytes (s.tile slot).loc a n
  | .port _ | .queue _ _ => []

/-- Bytes written to a place; a cluster buffer is written in the bank of this image tick (R161). -/
def State.wrPlace (s : State) (p : Place) (a : Nat) (b : List Byte) : State :=
  match p with
  | .memory base => ((s.touch (base + a) b.length true).untrack (base + a) b.length).wrMem (base + a) b
  | .buffer c base => s.putBuf c ((s.buf c).setWrite (wrBytes (s.buf c).write (base + a) b))
  | .store slot => s.putTile slot { s.tile slot with loc := wrBytes (s.tile slot).loc a b }
  | .port _ | .queue _ _ => s

/-- A read from a place; of device memory, the lines read are snooped first (R401). -/
def State.snoopPlace (s : State) (p : Place) (a n : Nat) : State :=
  match p with
  | .memory base => s.untrack (base + a) n
  | .buffer _ _ | .store _ | .port _ | .queue _ _ => s

/-- The block index of R211: device memory by tensor and offset, a cluster buffer by image cluster and offset. -/
def blockIndex (toBuffer : Bool) (unit off : Nat) : Nat :=
  if toBuffer then 2 ^ 63 + (unit % 256) * 2 ^ 55 + (off % 2 ^ 25) * 2 ^ 30
  else (unit % 2 ^ 16) * 2 ^ 47 + off % 2 ^ 47

/-- The record of a block (R211). -/
def digestRec (idx : Nat) (block : List Byte) : DWord := BitVec.ofNat 64 (crc64 (leBytes 8 idx ++ block))

/-- A record combined into the digest of the tick, kept per live cluster until the region's digest closes (R212, R213). -/
def State.addRecord (s : State) (c : Nat) (rec : DWord) : State :=
  { s with tick := { s.tick with cdig := modify 0 s.tick.cdig c (fun x => x ^^^ rec) } }

/-- Rows of a descriptor's destination written, from delivered byte `start` up; each row that ends is recorded once
when it lands in device memory or a cluster buffer (R210). With `NARROW6` a row is written when it is whole. `part` is
what the present row has so far, `name` the row's number or index. -/
def writeRows (c : Nat) (p : Place) (d : SDesc) (name : Option Nat) :
    Nat → Nat → List Byte → List Byte → State → State × List Byte
  | 0, _, _, part, s => (s, part)
  | n + 1, start, bytes, part, s =>
    if bytes.isEmpty || d.rowBytes = 0 then (s, part)
    else
      let row := start / d.rowBytes
      let off := start % d.rowBytes
      let seg := bytes.take (d.rowBytes - off)
      let at_ := d.dstOff + (name.getD row) * d.dstStride
      let whole := part ++ seg
      let ends := off + seg.length == d.rowBytes
      let s := if d.narrow then (if ends then s.wrPlace p at_ (pack6 whole) else s) else s.wrPlace p (at_ + off) seg
      let s := if ends && d.dst < 2 then
          s.addRecord c (digestRec (blockIndex (d.dst == 1) (if d.dst = 1 then d.dstUnit else d.dstTensor) at_)
            (if d.narrow then pack6 whole else whole))
        else s
      writeRows c p d name n (start + seg.length) (bytes.drop seg.length) (if ends then [] else whole) s

/-- Whole rows of 64 bytes cut off a byte list, and the rest. -/
def cut64 : Nat → List Byte → List (List Byte) × List Byte
  | 0, l => ([], l)
  | n + 1, l => if l.length < 64 then ([], l) else let (r, q) := cut64 n (l.drop 64); (l.take 64 :: r, q)

/-- Free rows of a queue (R160: 512 rows of 64 bytes each). -/
def State.queueFree (s : State) (stationary : Bool) (slot : Nat) : Nat :=
  512 - (if stationary then (s.tile slot).tq.length else (s.tile slot).sq.length)

/-- Rows put into a queue. -/
def State.pushQueue (s : State) (stationary : Bool) (slot : Nat) (rows : List (List Byte)) : State :=
  let t := s.tile slot
  s.putTile slot (if stationary then { t with tq := t.tq ++ rows } else { t with sq := t.sq ++ rows })

/-- The first `n` beats of 64 bytes cut from a byte list, a last short one padded with 0 (R236). -/
def beatsOf (n : Nat) (l : List Byte) : List (List Byte) := (List.range n).map (fun i => fit 64 (slice l (64 * i) 64))

/-- The beats that a stream's front burst gives a port, what it delivered before included (R149, R235, R236): a beat that
the row has not filled waits for the next burst, and the row's last beat is padded. -/
def Stream.rxBeats (x : Stream) (d : SDesc) (b : Burst) : List RxBeat :=
  let l := x.part ++ b.data
  let n := if b.ends then ceilDiv l.length 64 else l.length / 64
  let last := b.num + b.span == d.bursts
  (beatsOf n l).zipIdx.map (fun q =>
    { data := q.1, eor := d.kind == 5 || (b.ends && q.2 + 1 == n), eod := last && q.2 + 1 == n })

/-- What is left for the next beat once those of the front burst are out. -/
def Stream.rxRest (x : Stream) (b : Burst) : List Byte :=
  let l := x.part ++ b.data
  if b.ends then [] else l.drop (l.length / 64 * 64)

/-- The output row `u` of a transposing gather from its staged input (R155, R61). -/
def transposed (d : SDesc) (input : List Byte) (u : Nat) : List Byte :=
  let bits := 4 * 2 ^ d.tEsize
  let v := fun (c k : Nat) =>
    if bits = 4 then
      let b := (input.getD (c * d.rowBytes + k / 2) 0).toNat
      if k % 2 = 0 then b % 16 else b / 16
    else fld input (c * d.rowBytes + k * (bits / 8)) (bits / 8)
  packCodes bits ((List.range d.rows).flatMap (fun c => (List.range d.tPack).map (fun e => v c (d.tPack * u + e))))

/-- Bursts of staging that a stream holds (R163). -/
def Stream.held (x : Stream) : Nat := (x.staged.filter (fun b => !b.skip)).length

/-- Bursts of the shared pool that a stream holds (R163). -/
def Stream.shared (x : Stream) : Nat := x.held - x.reserve

/-- The streams of an engine by number. -/
def Engine.stream (e : Engine) (n : Nat) : Stream := look {} e.streams n

/-- The sum of the reserves an engine's streams hold (R163). -/
def Engine.reserveSum (e : Engine) : Nat := ((List.range 32).map (fun n => (e.stream n).reserve)).foldl (· + ·) 0

/-- Shared-pool bursts not held (R163). -/
def Engine.sharedFree (e : Engine) : Nat :=
  16384 - e.reserveSum - ((List.range 32).map (fun n => (e.stream n).shared)).foldl (· + ·) 0

/-- A stream has staging for one more burst (R163, R165). -/
def Engine.hasStaging (e : Engine) (n : Nat) : Bool :=
  let x := e.stream n
  decide (x.held < x.reserve) || ((x.sharedMax == 0 || decide (x.shared < x.sharedMax)) && decide (0 < e.sharedFree))

/-- Descriptors fetched and not finished (R148). -/
def Stream.unfinished (x : Stream) : Nat := x.fetched - x.dDesc

/-- The indices that a stream has for its next rows: those of its tensor, or those its port has brought (R153). -/
def Stream.indices (x : Stream) (d : SDesc) : List Nat := if d.idxPort then look [] x.portIdx d.idxPortNum else x.idx

/-- The indices with one taken. -/
def Stream.dropIdx (x : Stream) (d : SDesc) : Stream :=
  if d.idxPort then { x with portIdx := put [] x.portIdx d.idxPortNum (look [] x.portIdx d.idxPortNum).tail }
  else { x with idx := x.idx.tail }

/-- Beats of port data that a descriptor is still owed from burst `k` on, with `have_` bytes left of the last beat taken:
what the present row still needs, and whole rows after it (R237). -/
def SDesc.beatsOwed (d : SDesc) (k have_ : Nat) : Nat :=
  let pos := (d.span k).1
  if d.rowBytes = 0 then 0
  else ceilDiv (d.rowBytes - pos % d.rowBytes - have_) 64 + (d.rows - pos / d.rowBytes - 1) * ceilDiv d.rowBytes 64

/-- The beats that a stream can take from a port: those of discarded bursts, then those in the port's buffer (R174, R237). -/
def State.portBeats (s : State) (r n p : Nat) : List (List Byte) :=
  look [] (s.stream r n).portBack p ++ ((s.fabric r).port p).txBuf

/-- Beats taken by a stream from a port; one that leaves the port's buffer returns a credit to the design (R237). -/
def State.takeBeats (s : State) (r n p k : Nat) : State :=
  let back := look [] (s.stream r n).portBack p
  let new_ := k - back.length
  let s := s.setPort r p (fun q => { q with txBuf := q.txBuf.drop new_, txCred := q.txCred + Nat.min new_ q.txBuf.length })
  s.setStream r n (fun x => { x with portBack := put [] x.portBack p (back.drop k) })

/-- A port has data for a stream that is owed `owed` beats, enough for the `need` beats of the next burst (R237). -/
def State.portHas (s : State) (r n p need owed : Nat) : Bool :=
  let have_ := (s.portBeats r n p).length
  !(s.fabric r).isolated && decide (need ≤ have_) && (decide (8 ≤ have_) || decide (owed ≤ have_))

/-- Beats that burst `k` needs from its port beside what is left of the last one taken. -/
def Stream.beatsFor (x : Stream) (d : SDesc) (k : Nat) : Nat :=
  ceilDiv ((d.span k).2 - (d.span k).1 - x.txPart.length) 64

/-- Where among the delivered bytes of its row, or of the run, a burst begins. -/
def SDesc.offsetIn (d : SDesc) (k : Nat) : Nat :=
  let a := (d.span k).1
  if d.isRun then a else if d.rowBytes = 0 then 0 else a % d.rowBytes

/-- The offset in its source and the bytes that burst `k` reads (R149, R152, R156): `name` is the row's index. -/
def SDesc.srcRange (d : SDesc) (name : Option Nat) (k : Nat) : Nat × Nat :=
  let n := (d.span k).2 - (d.span k).1
  let o := d.offsetIn k
  let base := if d.isRun then d.srcOff else d.srcOff + (name.getD (d.rowOf k)) * d.srcStride
  if d.widen then (base + o * 6 / 8, ((o + n) * 6 + 7) / 8 - o * 6 / 8) else (base + o, n)

/-- The next burst of a stream (R165, R167). -/
inductive NextBurst where
  | none | fetch | index (count : Nat) | portIndex (p : Nat) | data | held (addr : Nat)
  deriving DecidableEq, Repr

/-- A burst that reads `n` bytes of device memory at `a`: held by its tier (R198), or waiting while the ingress buffer
outranks it (R191, R192). -/
def State.memGate (s : State) (a n : Nat) (b : NextBurst) : NextBurst × Bool :=
  (if s.tierHeld a then .held a else if s.waits a n then .none else b, false)

/-- The offset in its source and the bytes of device memory that a stream's next data burst reads; a null index and one out
of range read none (R153). -/
def Stream.reads (x : Stream) (d : SDesc) : Option (Nat × Nat) :=
  match (if d.usesIdx && d.kind != 2 then (x.indices d).head? else .none) with
  | some i => if d.idxLimit ≤ i then .none else some (d.srcRange (some i) x.gBurst)
  | .none => some (d.srcRange .none x.gBurst)

/-- What a stream would be granted next, and whether only a fabric port keeps it from it (R165, R167, R171). -/
def State.nextBurst (s : State) (r n : Nat) : NextBurst × Bool :=
  let x := s.stream r n
  match x.ring with
  | .none => (.none, false)
  | some g =>
    match s.homeOf g with
    | .none => (.none, false)
    | some h =>
      if x.staged.any (fun b => b.badIdx || b.memUe || b.bus) then (.none, false)
      else if x.fetched < g.count && decide (x.unfinished < 8) then
        s.memGate (h.fetchAt g x.fetched) (64 * Nat.min 8 (g.count - x.fetched)) .fetch
      else if x.gDesc ≥ x.fetched || x.gDesc ≥ g.count then (.none, false)
      else
        let d := h.desc g x.gDesc
        if d.fence && x.dDesc < x.gDesc then (.none, false)
        else
          let row := d.rowOf x.gBurst
          let have_ := x.indices d
          let left := if d.idxPort then d.rows - row else d.rows - x.idxGot
          let wantIdx := d.usesIdx && have_.length < 128 && decide (0 < left) && !(d.idxPort && left ≤ have_.length)
          if wantIdx && !d.idxPort then
            let m := Nat.min left (Nat.min 128 (1024 - have_.length))
            s.memGate (h.tensor d.idxTensor + d.idxOff + 4 * x.idxGot) (4 * m) (.index m)
          else
            let owed := ceilDiv (left - have_.length) 16
            if wantIdx && s.portHas r n d.idxPortNum 1 owed then (.portIndex d.idxPortNum, false)
            else if d.usesIdx && have_.isEmpty then (.none, d.idxPort && !(s.fabric r).isolated)
            else if d.src = 3 && d.kind ≠ 1 && d.kind ≠ 3 then
              if s.portHas r n d.srcUnit (x.beatsFor d x.gBurst) (d.beatsOwed x.gBurst x.txPart.length) then (.data, false)
              else (.none, !(s.fabric r).isolated)
            else match (if d.src = 0 then x.reads d else .none) with
              | some (a, m) => s.memGate (h.tensor d.srcTensor + a) m .data
              | .none => (.data, false)

/-- The rows a scatter skips for null indices (R153), put into staging as rows that hold none of it. -/
def skipNulls (d : SDesc) : Nat → Stream → Stream
  | 0, x => x
  | n + 1, x =>
    match x.indices d with
    | i :: _ =>
      if d.kind = 2 && i = 0xFFFFFFFF && x.gBurst < d.bursts then
        let x := x.dropIdx d
        let b : Burst := { desc := x.gDesc, num := x.gBurst, span := d.perRow, skip := true }
        skipNulls d n { x with staged := x.staged ++ [b], gBurst := x.gBurst + d.perRow }
      else x
    | [] => x

/-- A stream whose descriptor has no burst left to grant goes on to the next one (R146). -/
def nextDesc (d : SDesc) (x : Stream) : Stream :=
  if x.gBurst ≥ d.bursts then { x with gDesc := x.gDesc + 1, gBurst := 0, idxGot := 0, idx := [] } else x

/-- The offset in its destination and the bytes that delivered bytes from `start` on are written to (R152, R156): with
`NARROW6` the rows that they end. -/
def SDesc.dstRange (d : SDesc) (name : Option Nat) (start n : Nat) : Nat × Nat :=
  let row := if d.rowBytes = 0 then 0 else start / d.rowBytes
  let off := if d.rowBytes = 0 then 0 else start % d.rowBytes
  let base := d.dstOff + (name.getD row) * d.dstStride
  if d.narrow then (base, (if d.rowBytes = 0 then 0 else (off + n) / d.rowBytes) * d.packedRow) else (base + off, n)

/-- The bytes of a data burst as they are delivered (R152, R156). -/
def State.burstData (s : State) (p : Place) (d : SDesc) (name : Option Nat) (k : Nat) : List Byte :=
  let (a, n) := d.srcRange name k
  if d.widen then unpack6 (s.rdPlace p a n) (d.offsetIn k) ((d.span k).2 - (d.span k).1) else s.rdPlace p a n

/-- The descriptor that a stream's next data or index burst belongs to, fetched and with its `FENCE` wait over. -/
def Stream.current (x : Stream) (h : Home) : Option SDesc :=
  match x.ring with
  | .none => .none
  | some g =>
    if x.gDesc ≥ x.fetched || x.gDesc ≥ g.count then .none
    else
      let d := h.desc g x.gDesc
      if d.fence && x.dDesc < x.gDesc then .none else some d

/-- A stream past the rows that a scatter skips and the descriptors that are through (R146, R153): no grant is taken. -/
def Stream.skipOn (h : Home) : Nat → Stream → Stream
  | 0, x => x
  | n + 1, x =>
    match x.current h with
    | .none => x
    | some d =>
      let y := nextDesc d (skipNulls d d.rows x)
      if y.gDesc = x.gDesc then y else y.skipOn h n

/-- A stream of the state past its skipped rows. -/
def State.skipRows (s : State) (r n : Nat) : State :=
  match (s.stream r n).ring with
  | .none => s
  | some g => match s.homeOf g with
    | .none => s
    | some h => s.setStream r n (fun x => x.skipOn h 16)

/-- A burst granted to a stream whose read has not been answered with data (R176, R195). -/
def Stream.stageError (x : Stream) (b : Burst) (e : Meets) : Stream :=
  { x with grants := x.grants + 1, kept := false, staged := x.staged ++ [{ b with bus := e == .busError, memUe := e == .frozen }] }

/-- One data burst granted (R149, R153): the row its index names, a row of zeros for a null index, an index out of range,
or an error response. -/
def State.grantData (s : State) (r n : Nat) (h : Home) (d : SDesc) : State :=
  let x := s.stream r n
  let k := x.gBurst
  let idx := if d.usesIdx then (x.indices d).head? else .none
  let b : Burst := { desc := x.gDesc, num := k, start := (d.span k).1, ends := d.endsRow k, idx := idx, before := x.txPart }
  let done := fun (s : State) (b : Burst) (rest : List Byte) => s.setStream r n (fun x =>
    let x := { x with grants := x.grants + 1, kept := false, staged := x.staged ++ [b], gBurst := k + 1, txPart := rest }
    if d.usesIdx && d.endsRow k then x.dropIdx d else x)
  if (match idx with | some i => decide (i ≠ 0xFFFFFFFF) && decide (d.idxLimit ≤ i) | .none => false) then
    s.setStream r n (fun x => { x with grants := x.grants + 1, kept := false, staged := x.staged ++ [{ b with badIdx := true }] })
  else
    let len := (d.span k).2 - (d.span k).1
    if d.kind ≠ 2 && idx == some 0xFFFFFFFF then done s { b with data := zeroBytes len } []
    else
      let src := s.srcPlace h d
      let name := if d.kind = 2 then .none else idx
      let (a, m) := d.srcRange name k
      match s.meets r src a m with
      | .fine =>
        (match src with
        | .port p =>
          let beats := (s.portBeats r n p).take (x.beatsFor d k)
          let l := x.txPart ++ beats.flatten
          done (s.takeBeats r n p beats.length) { b with data := l.take len, beats := beats }
            (if d.endsRow k then [] else l.drop len)
        | .memory t => done ((s.snoopPlace src a m).touch (t + a) m false) { b with data := s.burstData src d name k } []
        | _ => done (s.snoopPlace src a m) { b with data := s.burstData src d name k } [])
      | e => s.setStream r n (fun x => x.stageError b e)

/-- One burst granted to a stream (R148, R149, R153, R165). Descriptor and index bursts complete at their grant. -/
def State.grant (s : State) (r n : Nat) : State :=
  let x := s.stream r n
  match x.ring with
  | .none => s
  | some g =>
    match s.homeOf g with
    | .none => s
    | some h =>
      let count := fun (x : Stream) => { x with grants := x.grants + 1, kept := false }
      let s := (match (s.nextBurst r n).1 with
        | .none | .held _ => s
        | .fetch =>
          let m := Nat.min 8 (g.count - x.fetched)
          let a := h.fetchAt g x.fetched
          (match s.meets r (.memory 0) a (64 * m) with
          | .fine => (s.touch a (64 * m) false).setStream r n (fun x => count { x with fetched := x.fetched + m })
          | e => s.setStream r n (fun x => x.stageError { desc := x.fetched } e))
        | .index m =>
          let d := h.desc g x.gDesc
          let p := Place.memory (h.tensor d.idxTensor)
          let a := d.idxOff + 4 * x.idxGot
          (match s.meets r p a (4 * m) with
          | .fine =>
            let s := s.touch (h.tensor d.idxTensor + a) (4 * m) false
            let got := (List.range m).map (fun i => ofLe (s.rdPlace p (a + 4 * i) 4))
            (s.snoopPlace p a (4 * m)).setStream r n (fun x => count { x with idx := x.idx ++ got, idxGot := x.idxGot + m })
          | e => s.setStream r n (fun x => x.stageError { desc := x.gDesc, num := x.gBurst } e))
        | .portIndex p =>
          (match s.portBeats r n p with
          | [] => s
          | beat :: _ =>
            let got := (List.range 16).map (fun i => fld beat (4 * i) 4)
            (s.takeBeats r n p 1).setStream r n (fun x =>
              count { x with portIdx := put [] x.portIdx p (look [] x.portIdx p ++ got) }))
        | .data => s.grantData r n h (h.desc g x.gDesc))
      s.skipRows r n

/-- A granted burst goes out to device memory (R149). -/
def State.outbound (s : State) (r n : Nat) : Bool :=
  let x := s.stream r n
  match x.ring, (s.nextBurst r n).1 with
  | some g, .data => (match s.homeOf g with | some h => (h.desc g x.gDesc).dst == 0 | .none => false)
  | _, _ => false

/-- A stream has a burst that could be granted, its staging apart (R165, R198). -/
def State.burstReady (s : State) (r n : Nat) : Bool :=
  match (s.nextBurst r n).1 with
  | .none | .held _ => false
  | _ => true

/-- A stream is eligible for a grant (R165). -/
def State.eligible (s : State) (r n : Nat) : Bool := s.burstReady r n && (s.engine r).hasStaging n

/-- The time-to-empty of a stream (R166), `left` tile cycles before the next tick is due. -/
def State.tteOf (s : State) (r n left : Nat) : Nat :=
  let x := s.stream r n
  match x.ring with
  | .none => 0xFFFF
  | some g =>
    match s.homeOf g with
    | .none => 0xFFFF
    | some h =>
      let d := h.desc g (Nat.min x.dDesc (g.count - 1))
      let same := fun (b : Burst) => s.dstPlace h (h.desc g b.desc) == s.dstPlace h d
      let staged := ((x.staged.filter same).map (fun b => b.data.length)).foldl (· + ·) 0
      let full := fun (f : Nat) => Nat.min 65535 (if x.rate = 0 then 65535 else f * 16 / x.rate)
      let queueBytes := fun (stationary : Bool) (i : Nat) =>
        let t := s.tile i
        64 * (if stationary then t.tq.length - t.tqTaken else t.sq.length - t.sqTaken) + x.part.length + staged
      match s.dstPlace h d with
      | .queue st slots => full ((slots.map (queueBytes st)).foldl Nat.min (2 ^ 32))
      | .port p =>
        full (64 * (((s.fabric r).port p).rxDepth - ((s.fabric r).port p).rxCred) + x.part.length + staged - 64 * x.rxSent)
      | _ =>
        let done := if d.kind = 3 then x.dRow * d.outRowBytes else (d.span x.dBurst).1
        let c := if x.rate = 0 then 65535 else ceilDiv ((d.total - done) * 16) x.rate
        Nat.min 65535 (left - c)

/-- The one of two streams that the Sheepdog serves first (R167). -/
def firstBy (tte : Nat → Nat) : List Nat → Option Nat
  | [] => none
  | n :: r =>
    match firstBy tte r with
    | none => some n
    | some m => if tte m < tte n then some m else some n

/-- The grants of one direction in one mesh cycle (R167): the smallest time-to-empty, then the next smallest; a lone
eligible stream may take both. -/
def State.grantPair (s : State) (r : Nat) (out : Bool) (tte : Nat → Nat) (cands : List Nat) : State :=
  match firstBy tte (cands.filter (s.eligible r)) with
  | none => s
  | some a =>
    let s := s.grant r a
    match firstBy tte (cands.filter (fun n => n != a)) with
    | some b => if s.eligible r b then s.grant r b else s
    | none => if s.eligible r a && s.outbound r a == out then s.grant r a else s

/-- The step of a session stops at the next tick boundary with a code (R44, R142, R153, R172); the first code stays. -/
def State.stopStep (s : State) (sess code : Nat) : State :=
  s.setSess sess (fun x =>
    match x.running with
    | none => x
    | some run => if run.stop.isSome then x else { x with running := some { run with stop := some code } })

/-- A tile's passes that wait on data that will not come are discarded, with the tasks that step them (R172); `waits`
judges a pass by its position. -/
def discardWaiting (t : Tile) (waits : Nat → Bool) : Tile :=
  let open_ := fun (p : PassWork) => !p.committed && !p.withdrawn && !p.discarded
  let ps := t.passes.zipIdx
  let ctxs := (ps.filter (fun q => open_ q.1 && waits q.2)).map (fun q => q.1.ctx)
  let ps := ps.map (fun q =>
    if open_ q.1 && (waits q.2 || (ctxs.contains q.1.ctx && !q.1.released)) then { q.1 with discarded := true } else q.1)
  let kept := t.array.filter (fun j => match ps[j.idx]? with | some p => !p.discarded | none => false)
  let t := { t with passes := ps, array := kept,
                    crq := t.crq.filter (fun q => !ctxs.contains q.ctx),
                    r := { t.r with discard := t.r.discard || decide (kept.length < t.array.length) } }
  ctxs.foldl (fun t c => t.setCtx c { t.ctx c with ended := true, rep := 0, branch := none }) t

/-- A pass's queue rows are not all there: the rows that it and the open passes before it take are more than have come
(R160, R172). -/
def rowsMissing (t : Tile) (i : Nat) (rows : PDesc → Nat) (there : Nat) : Bool :=
  let mine := match t.passes[i]? with | some p => rows (parseDesc p.desc) | none => 0
  let before := (t.passes.take i).filter (fun p => !p.committed && !p.withdrawn && !p.discarded)
  decide (0 < mine) &&
    decide (there < before.foldl (fun n p => n + rows (parseDesc p.desc)) mine)

/-- What waits on the data of rings that will not be delivered is discarded in their region (R172): each ring with the
position its delivery has come to. -/
def State.discardFor (s : State) (h : Home) (rings : List (Ring × Nat)) : State :=
  let ds := rings.flatMap (fun q => (List.range (q.1.count - q.2)).map (fun i => h.desc q.1 (q.2 + i)))
  let slots := (List.range 8).map (s.slotIn h)
  slots.foldl (fun s i =>
    let feeds := fun (dst : Nat) => ds.any (fun d => d.dst == dst && (match s.dstPlace h d with
      | .queue _ l => l.contains i
      | .store j => j == i
      | _ => false))
    let sq := feeds 4
    let tq := feeds 5
    let st := feeds 2
    if sq || tq || st then
      s.runTile i (fun t => discardWaiting t (fun k =>
        (sq && rowsMissing t k (fun d => d.queueRows) t.sq.length) ||
        (tq && rowsMissing t k (fun d => if d.bQueue then 32 else 0) t.tq.length) ||
        (st && (match t.passes[k]? with | some p => p.waitArm && !p.started | none => false))))
    else s) s

/-- A stream with no ring (R172, R175, R177): its staging freed, its binding and registers kept. -/
def Stream.disarm (x : Stream) : Stream :=
  { x with ring := none, shadow := none, fetched := 0, gDesc := 0, gBurst := 0, dDesc := 0, dBurst := 0, dRow := 0,
           idxGot := 0, idx := [], portIdx := [], staged := [], part := [], rxSent := 0, txPart := [], portBack := [],
           rowBuf := [], kept := false }

/-- The flags of `STRM_ERR` raised; the first of them since none was set gives `DESC` (06, `STRM_ERR`). -/
def State.streamErr (s : State) (r n : Nat) (mask : Word) (pos : Nat) : State :=
  let s := if s.flags (.strmErr r n) = 0 then
      s.setStream r n (fun x => { x with r := { x.r with errDesc := pos % 2 ^ 17 } }) else s
  s.raise (.strmErr r n) mask

/-- A stream stopped at a descriptor (R172, R177): disarmed, what waits on it discarded, its session's step stopped. -/
def State.stopStream (s : State) (r n code : Nat) : State :=
  let x := s.stream r n
  match x.ring with
  | .none => s
  | some g =>
    let s := match s.homeOf g with
      | some h => s.discardFor h ((g, x.dDesc) :: (x.shadow.map (fun q => (q, 0))).toList)
      | .none => s
    let s := s.setStream r n (fun x => { x.disarm with stopped := true })
    s.stopStep g.sess code

/-- The burst position moved past a burst; a descriptor whose bursts are all delivered is finished (R146). -/
def finishBurst (d : SDesc) (b : Burst) (x : Stream) : Stream :=
  let done := b.num + b.span
  if done ≥ d.bursts then { x with dDesc := x.dDesc + 1, dBurst := 0, dRow := 0, kept := false }
  else { x with dBurst := done, dRow := d.rowsBelow done, kept := false }

/-- What the front of staging may be delivered as: nothing yet, a burst, or so many beats of it. -/
def State.deliverable (s : State) (r : Nat) (h : Home) (d : SDesc) (x : Stream) (b : Burst) : Nat :=
  match s.dstPlace h d with
  | .port p =>
    let left := (x.rxBeats d b).length - x.rxSent
    if (s.fabric r).isolated then 0
    else if left = 0 then 1
    else if s.elemRuns r p then Nat.min ((s.fabric r).port p).rxCred left else 0
  | .queue st slots =>
    let rows := (x.part.length + (if d.kind = 3 then d.outRowBytes else b.data.length)) / 64
    if slots.all (fun i => decide (rows ≤ s.queueFree st i)) then 1 else 0
  | _ => 1

/-- Bytes delivered at a destination inside the region or in device memory (R152, R160). -/
def State.deliverBytes (s : State) (r n : Nat) (h : Home) (d : SDesc) (name : Option Nat) (start : Nat)
    (bytes : List Byte) : State :=
  let x := s.stream r n
  match s.dstPlace h d with
  | .queue st slots =>
    let (rows, rest) := cut64 (x.part.length + bytes.length) (x.part ++ bytes)
    let s := slots.foldl (fun s i => s.pushQueue st i rows) s
    s.setStream r n (fun x => { x with part := rest })
  | .port _ => s
  | p =>
    let (s, rest) := writeRows h.cluster p d name bytes.length start bytes x.rowBuf s
    s.setStream r n (fun x => { x with rowBuf := rest })

/-- The front burst of a stream, or of the block that a transposing gather stages whole, that has met an error (R153,
R155, R176). -/
def Stream.failed (x : Stream) (d : SDesc) (b : Burst) : Option Burst :=
  (if d.kind = 3 then x.staged.filter (fun q => q.desc == b.desc) else [b]).find? (fun q => q.badIdx || q.bus || q.memUe)

/-- The offset in its destination and the bytes that the delivery of the front burst writes. -/
def Stream.writes (x : Stream) (d : SDesc) (b : Burst) : Nat × Nat :=
  if d.kind = 3 then (d.dstOff + x.dRow * d.dstStride, d.outRowBytes)
  else d.dstRange (if d.kind = 2 then b.idx else .none) b.start b.data.length

/-- What the delivery of the front burst meets at its destination (R176, R195). -/
def State.meetsAt (s : State) (r : Nat) (h : Home) (d : SDesc) (x : Stream) (b : Burst) : Meets :=
  let (a, m) := x.writes d b
  s.meets r (s.dstPlace h d) a m

/-- One output row of a transposing gather delivered (R155). -/
def State.deliverRow3 (s : State) (r n : Nat) (h : Home) (d : SDesc) (b : Burst) : State :=
  let x := s.stream r n
  let mine := x.staged.filter (fun q => q.desc == b.desc)
  if mine.length < d.bursts then s
  else
    let out := transposed d (mine.map (fun q => q.data)).flatten x.dRow
    let s := s.deliverBytes r n h { d with rowBytes := d.outRowBytes, kind := 0 } .none (x.dRow * d.outRowBytes) out
    s.setStream r n (fun x =>
      if x.dRow + 1 ≥ d.outRows then
        { x with staged := x.staged.filter (fun q => q.desc != b.desc), dDesc := x.dDesc + 1, dBurst := 0, dRow := 0,
                 kept := false }
      else { x with dRow := x.dRow + 1 })

/-- Up to `k` beats of the front burst presented to a port (R235, R236). -/
def State.deliverBeats (s : State) (r n p k : Nat) (d : SDesc) (b : Burst) : State :=
  let x := s.stream r n
  let beats := x.rxBeats d b
  let sent := (beats.drop x.rxSent).take k
  let s := s.setPort r p (fun q => { q with
    rxCred := q.rxCred - sent.length, rxBeats := q.rxBeats + sent.length,
    rxLast := if sent.isEmpty then q.rxLast else sent })
  s.setStream r n (fun x =>
    if x.rxSent + sent.length = beats.length then
      finishBurst d b { x with staged := x.staged.tail, part := x.rxRest b, rxSent := 0 }
    else { x with rxSent := x.rxSent + sent.length })

/-- The errors corrected in what the front burst, or the block of a transposing gather, read of device memory (R193). -/
def State.correctBurst (s : State) (h : Home) (d : SDesc) (b : Burst) : State :=
  if b.idx == some 0xFFFFFFFF || b.badIdx || b.bus || b.memUe then s
  else
    let (a, m) := d.srcRange (if d.kind = 2 then .none else b.idx) b.num
    s.correctRead (h.tensor d.srcTensor + a) m

/-- The front burst of a stream delivered (R152 to R157, R160). -/
def State.deliver (s : State) (r n : Nat) : State :=
  let x := s.stream r n
  match x.ring, x.staged with
  | some g, b :: rest =>
    match s.homeOf g with
    | .none => s
    | some h =>
      let d := h.desc g b.desc
      let s := if d.src = 0 && !b.skip && x.rxSent == 0 && x.dRow == 0 then s.correctBurst h d b else s
      if b.skip then s.setStream r n (fun x => finishBurst d b { x with staged := rest })
      else match x.failed d b with
        | some q =>
          if q.badIdx then (s.streamErr r n 0x10000000 q.desc).stopStream r n 0xF
          else if q.bus then (s.streamErr r n 0x08000000 q.desc).stopStream r n 0xF
          else (s.streamErr r n 0x04000000 q.desc).stopStream r n 0xC
        | .none =>
          match s.meetsAt r h d x b with
          | .busError => (s.streamErr r n 0x08000000 b.desc).stopStream r n 0xF
          | .frozen => (s.streamErr r n 0x04000000 b.desc).stopStream r n 0xC
          | .fine =>
            match s.deliverable r h d x b with
            | 0 => s
            | k + 1 =>
              if d.kind = 3 then s.deliverRow3 r n h d b
              else match s.dstPlace h d with
                | .port p => s.deliverBeats r n p (k + 1) d b
                | _ =>
                  let s := s.deliverBytes r n h d (if d.kind = 2 then b.idx else .none) b.start b.data
                  s.setStream r n (fun x => finishBurst d b { x with staged := rest })
  | _, _ => s

/-- The device address whose tier keeps the front burst of a stream from being delivered (R198). -/
def State.outHeld (s : State) (r n : Nat) : Option Nat :=
  let x := s.stream r n
  match x.ring, x.staged with
  | some g, b :: _ =>
    (match s.homeOf g with
    | .none => .none
    | some h =>
      let d := h.desc g b.desc
      if d.dst == 0 && s.tierHeld (h.tensor d.dstTensor) && !b.skip && (x.failed d b).isNone then
        some (h.tensor d.dstTensor)
      else .none)
  | _, _ => .none

/-- The front burst's write to device memory waits (R191, R198). -/
def State.writeWaits (s : State) (h : Home) (d : SDesc) (x : Stream) (b : Burst) : Bool :=
  d.dst == 0 && (let (a, m) := x.writes d b; s.waits (h.tensor d.dstTensor + a) m)

/-- Something of a stream's staging can be delivered now. -/
def State.mayDeliver (s : State) (r n : Nat) : Bool :=
  let x := s.stream r n
  match x.ring, x.staged with
  | some g, b :: _ =>
    (match s.homeOf g with
    | .none => false
    | some h =>
      let d := h.desc g b.desc
      b.skip || (x.failed d b).isSome ||
        (decide (0 < s.deliverable r h d x b) && !s.writeWaits h d x b &&
          (d.kind != 3 || decide (d.bursts ≤ (x.staged.filter (fun q => q.desc == b.desc)).length))))
  | _, _ => false

/-- A stream is in fabric wait (R171): only a fabric port keeps its next burst or delivery from happening, and that
port's region is not behind its isolation cells. -/
def State.fabricWait (s : State) (r n : Nat) : Bool :=
  let x := s.stream r n
  let stuck := match x.ring, x.staged with
    | some g, b :: _ =>
      (match s.homeOf g with
      | .none => false
      | some h =>
        let d := h.desc g b.desc
        d.dst == 3 && (x.failed d b).isNone && !b.skip && s.deliverable r h d x b == 0)
    | _, _ => false
  x.ring.isSome && !(s.fabric r).isolated && (stuck || ((s.nextBurst r n).2 && (s.engine r).hasStaging n))

/-- Staged bursts wait for destination credits (06, `WAIT_CREDIT`). -/
def State.waitCredit (s : State) (r n : Nat) : Bool :=
  let x := s.stream r n
  x.ring.isSome && !x.staged.isEmpty && !s.mayDeliver r n &&
    (match x.ring, x.staged with
    | some g, b :: _ => (match s.homeOf g with
      | some h => s.deliverable r h (h.desc g b.desc) x b == 0
      | .none => false)
    | _, _ => false)

/-- A ring armed on a hardware stream (R147, R169, R170, R177). -/
def State.arm (s : State) (r n : Nat) (g : Ring) : State :=
  let x := s.stream r n
  if x.stopped then s
  else if x.ring.isNone then s.setStream r n (fun x => { x with ring := some g })
  else if x.shadow.isNone then s.setStream r n (fun x => { x with shadow := some g })
  else
    let s := s.streamErr r n 0x80000000 x.dDesc
    let s := s.setStream r n (fun x => { x with overruns := x.overruns + 1 })
    s.stopStep g.sess 0xF

/-- The ring of a stream has delivered its last byte (R146). -/
def Stream.ringDone (x : Stream) : Bool :=
  match x.ring with
  | .none => false
  | some g => x.dDesc ≥ g.count

/-- The present ring gone and the shadow in its place (R146, R169); `seq` is the order in which the shadow takes
effect (R171). -/
def Stream.nextRing (x : Stream) (seq : Nat) : Stream :=
  let clean := { x.disarm with portIdx := x.portIdx }
  match x.shadow with
  | .none => clean
  | some g => { clean with ring := some { g with seq := seq } }

/-- A stream stopped by an emergency (R174): what it was granted and has not delivered is dropped, the beats and indices a
port has brought for it are kept to be taken again, and it resumes at the first burst not delivered. -/
def State.restartStream (s : State) (r n : Nat) : State :=
  let x := s.stream r n
  match x.ring with
  | .none => s
  | some g =>
    match s.homeOf g with
    | .none => s
    | some h =>
      let d := h.desc g (Nat.min x.dDesc (g.count - 1))
      let named := fun (q : SDesc → Bool) => x.staged.filter (fun b => q (h.desc g b.desc))
      let beatsOf_ := fun (p : Nat) => (named (fun q => q.src == 3 && q.srcUnit == p)).flatMap (fun b => b.beats)
      let idxOf := fun (p : Nat) => ((named (fun q => q.idxPort && q.idxPortNum == p)).filter (fun b => b.ends)).flatMap
        (fun b => if b.skip then [0xFFFFFFFF] else match b.idx with | some i => [i] | .none => [])
      let s := s.setStream r n (fun x => { x with
        staged := [], gDesc := x.dDesc, gBurst := if d.kind = 3 then 0 else x.dBurst,
        idxGot := if d.kind = 3 then 0 else d.rowsBelow x.dBurst, idx := [],
        txPart := match x.staged with | b :: _ => b.before | [] => x.txPart
        portBack := (List.range 8).foldl (fun t p => put [] t p (beatsOf_ p ++ look [] t p)) x.portBack
        portIdx := (List.range 8).foldl (fun t p => put [] t p (idxOf p ++ look [] t p)) x.portIdx })
      s.skipRows r n

end Sys2Proof.Machine
end

