-- ==== Sys2Proof/Machine/Regs.lean ====
section
/-! DEFINITION. What each register reads as (R10, R11), what a write of one does (R11, R28), and the accesses that a
gated block or an unmapped address refuses (R179, R180, R383). -/

namespace Sys2Proof.Machine

/-- A word from values at bit positions. -/
def fieldsW (l : List (Nat × Nat)) : Word := BitVec.ofNat 32 ((l.map (fun p => p.2 * 2 ^ p.1)).foldl (· + ·) 0)

/-- A number held at a greatest value. -/
def sat (w n : Nat) : Nat := Nat.min n (2 ^ w - 1)

/-- Mailboxes 1 to 255 that nobody has claimed. -/
def State.freeMailboxes (s : State) : Nat :=
  ((List.range 255).filter (fun n => !(s.mb (n + 1)).claimed)).length

/-- Mailboxes accept claims (R278). -/
def State.mbxOpen (s : State) : Bool := s.serving

/-- Whether the flag selector names a flag, and which (R377). -/
def State.selected (s : State) : Option (Reg × Nat) :=
  let v := s.dev.flagSel.toNat
  match regAt (bitsOf v 31 28) (bitsOf v 27 6 * 4) with
  | some g => if g.flagMask.getLsbD (v % 32) then some (g, v % 32) else none
  | none => none

/-- The rings armed on a region's streams. -/
def State.armed (s : State) (r : Nat) : List (Home × SDesc) :=
  (List.range 32).flatMap (fun n =>
    match (s.stream r n).ring with
    | none => []
    | some g =>
      match s.homeOf g with
      | none => []
      | some h => (List.range g.count).map (fun k => (h, h.desc g k)))

/-- A region of the fabric is out of service: its hardened region is fenced or it failed at stage 1 (R368, R370). -/
def State.fabGone (s : State) (r : Nat) : Bool := s.units.fenced r || s.units.fabFenced.getLsbD r

/-- Chain i carries a load (R249): a load under way covers a region of isle i. -/
def State.chainBusy (s : State) (i : Nat) : Bool :=
  s.loads.any (fun l => l.begun && !l.ended && (members l.covered).any (fun r => r / 16 == i))

/-- The fill of the ingress buffer below which panic ends, in units of 64 bytes (R191): 8 sixteenths of 8 MiB. -/
def panicEnd : Nat := 65536

/-- The 64-byte units of a forwarded input that waits for its tick in the ingress buffer (R324). -/
def Input.units : Input → Nat
  | .write _ d => ceilDiv d.length 64
  | _ => 0

/-- The number of 64-byte units that the ingress buffer holds (R191), the secondary's forwarded writes among them (R324). -/
def State.ingressFill (s : State) : Nat :=
  ((s.mpk.ingress.map (fun p => ceilDiv p.2.length 64)).foldl (· + ·) 0) +
    (if s.pair.role = 2 then (s.pair.inputs.map (fun f => Input.units f.input)).foldl (· + ·) 0 else 0)

/-- The real-time port enters panic when the fill has risen to the mark (R191). -/
def State.enterPanic (s : State) : State :=
  if !s.mpk.panic && decide (8192 * s.mpk.panicMark ≤ s.ingressFill) then
    ({ s with mpk := { s.mpk with panic := true, panics := s.mpk.panics + 1 } }).raise .rtStatus 0x40000000
  else s

/-- Panic ends when the fill has fallen below the half (R191). -/
def State.leavePanic (s : State) : State :=
  { s with mpk := { s.mpk with panic := s.mpk.panic && decide (panicEnd ≤ s.ingressFill) } }

/-- Whether a region steps: a step is prepared, ready or waiting (R390, R391). -/
def Region.stepping (x : Region) : Bool := x.step != 0

/-- The owner of a region has a step in progress: the region has work (R394). -/
def State.working (s : State) (r : Nat) : Bool :=
  let o := (s.region r).owner
  o != 0 && s.sess.any (fun x => x.id == o && (match x.running with | some run => run.finish.isNone | none => false))

/-- The clamp, which stops regions with work, or a die at 105 degrees holds a region (R393, R394). -/
def State.clamped (s : State) (r : Nat) : Bool := (s.pwr.clamp && s.working r) || s.pwr.dieHold.getLsbD (r / 2)

/-- What limits power now (R394, `PWR_STATUS.LIMIT`): a clamp, a target below its region's point, or the last judgement's
steps down. -/
def State.limiting (s : State) : Bool :=
  s.pwr.clamp || s.pwr.dieHold != 0 || s.pwr.down || s.regions.any (fun p => decide (p.2.target < p.2.op))

/-- The 64-bit package words by half. -/
def loHi (v : Nat) (hi : Bool) : Word := BitVec.ofNat 32 (if hi then v / 2 ^ 32 else v)

/-- What a register reads as (R11). Whether a bank is in in-order mode (R189) depends on the order in which a controller
issues its commands, which the manual leaves to it: `INORDER` is a free value (log entry 7). -/
def State.regValue (s : State) (g : Reg) : Word :=
  s.flags g ||| match g with
  | .devStatus => fieldsW [(31, b2n s.dev.setDefaulted), (30, b2n s.dev.fieldDefaulted), (28, s.dev.setCopy % 4),
      (27, b2n s.dev.fwSlot), (26, b2n s.dev.fwFallback), (16, s.dev.bootErr % 16), (0, s.dev.stage % 8)]
  | .flagSel => (s.dev.flagSel &&& 0xFFFFFFDF) ||| bitW 5 s.selected.isSome
  | .flagCount => match s.selected with | some (g, b) => BitVec.ofNat 32 (s.flagCount g b) | none => 0
  | .tickCtrl => fieldsW [(24, s.tick.warnLead % 256), (16, s.tick.ovrThresh % 256), (0, s.tick.period % 512)]
  | .tickStatus => fieldsW [(16, s.tick.lastLate % 64), (0, sat 16 s.tick.lastStretch)]
  | .tickLo => loHi s.tick.count false
  | .tickHi => loHi s.tick.count true
  | .digLo => loHi s.tick.pkgDigest.toNat false
  | .digHi => loHi s.tick.pkgDigest.toNat true
  | .digTickLo => loHi s.tick.digestTick false
  | .digTickHi => loHi s.tick.digestTick true
  | .clkStatus => fieldsW [(31, b2n s.clk.hold), (16, s.clk.stuckDomain % 256), (0, s.clk.stuckUnit % 65536)]
  | .clkQual => fieldsW [(31, b2n s.dev.qualified),
      (0, wrapTo 16 (if s.clk.ppm > 32767 then 32767 else if s.clk.ppm < -32768 then -32768 else s.clk.ppm))]
  | .gateRegion r => s.gateOf r
  | .gateIsle i => s.gateIsle i
  | .pwrCtrl => fieldsW [(0, s.pwr.envelope % 2048)]
  | .pwrStatus => fieldsW [(31, b2n s.limiting), (16, sat 8 s.pwr.tjMax), (0, sat 11 s.pwr.lastAvg)]
  | .railStatus => fieldsW [(0, s.pwr.rail % 8192)]
  | .pwrRegion r =>
    let x := s.region r
    fieldsW [(31, b2n x.stepping), (30, b2n (s.clamped r)), (8, x.target % 8), (0, x.op % 8)]
  | .strmPool r => fieldsW [(16, sat 15 (s.engine r).sharedFree), (0, sat 15 (s.engine r).reserveSum)]
  | .strmLate _ => 0
  | .strmStatus r n =>
    let x := s.stream r n
    fieldsW [(31, b2n x.ring.isSome), (30, b2n x.shadow.isSome), (29, b2n (s.waitCredit r n)),
      (28, b2n (s.burstReady r n && !(s.engine r).hasStaging n)), (27, b2n (s.fabricWait r n)),
      (0, sat 15 x.held)]
  | .strmErr r n => fieldsW [(0, (s.stream r n).r.errDesc % 2 ^ 17)]
  | .strmPos r n => fieldsW [(16, (s.stream r n).dDesc % 65536), (0, (s.stream r n).dRow % 65536)]
  | .strmTte r n => fieldsW [(0, (s.stream r n).r.tte % 65536)]
  | .arrStatus i =>
    let t := s.tile i
    fieldsW [(31, b2n (!t.array.isEmpty)), (24, t.r.kind % 4), (16, t.r.subpass % 16), (0, t.r.commits % 65536)]
  | .arrOvf i => fieldsW [(16, sat 16 (s.tile i).r.lastCount)]
  | .seqStatus i =>
    let t := s.tile i
    fieldsW [(31, b2n (t.job.isSome && mayExecute t && s.tilesRun)), (29, t.cur % 4),
      (16, (List.range 4).foldl (fun v c => v + (if (t.ctx c).task && !(t.ctx c).ended then 2 ^ c else 0)) 0),
      (0, t.r.switches % 65536)]
  | .seqErr i =>
    let g := (s.tile i).r
    fieldsW [(28, g.cause % 16), (26, g.errCtx % 4), (25, b2n g.taken), (0, g.errPc % 8192)]
  | .memStatus n =>
    let c := s.memCtl n
    let t := s.tier (16 ≤ n)
    fieldsW [(31, b2n c.frozen), (30, b2n (c.frozen || t.inSr || t.leaving)), (28, b2n c.trained),
      (27, b2n c.populated), (26, b2n (c.inorder && bitAt (Config.freeValue s.free) n)), (24, b2n c.retireBusy), (0, sat 8 c.temp)]
  | .memCe n => BitVec.ofNat 32 (sat 32 (s.memCtl n).ceCount)
  | .ueLo n => fieldsW [(5, (s.memCtl n).ueAddr / 32 % 2 ^ 27)]
  | .ueHi n => fieldsW [(31, b2n (s.memCtl n).ueCmd), (0, (s.memCtl n).ueAddr / 2 ^ 32 % 65536)]
  | .memRetired n => if n < 16 then (s.memCtl n).units else (s.memCtl n).units &&& 0xF
  | .rtCtrl => fieldsW [(0, s.mpk.panicMark % 16)]
  | .rtStatus => fieldsW [(31, b2n s.mpk.panic), (0, sat 18 s.ingressFill)]
  | .eccCtrl => fieldsW [(16, s.mpk.retireThresh % 65536), (0, s.mpk.retired % 8)]
  | .memPkg => fieldsW [(30, b2n s.anyFrozen), (5, s.mpk.lpN % 32), (0, if s.mpk.lpN = 0 then 0 else s.mpk.lpCap % 32)]
  | .fabStatus r =>
    let f := s.fabric r
    fieldsW [(31, b2n f.configured), (30, b2n f.isolated), (29, b2n f.loading), (28, b2n (s.fabGone r)),
      (27, b2n f.borderOpen), (8, (List.range 8).foldl (fun v t => v + (if s.treeOn r t then 2 ^ t else 0)) 0),
      (0, f.pllLock.toNat)]
  | .fabTree r t =>
    let x := (s.fabric r).tree t
    fieldsW [(31, b2n x.switching.isSome), (30, b2n x.runtime), (4, x.div % 16), (0, x.sel % 16)]
  | .portStatus r p =>
    let q := (s.fabric r).port p
    let ds := s.armed r
    fieldsW [(31, b2n (ds.any (fun x => x.2.dst == 3 && x.2.dstUnit == p))),
      (30, b2n (ds.any (fun x => (x.2.src == 3 && x.2.srcUnit == p) || (x.2.idxPort && x.2.idxPortNum == p)))),
      (29, b2n (ds.any (fun x => x.2.idxPort && x.2.idxPortNum == p))),
      (16, q.rxCred % 512), (0, q.txBuf.length % 64)]
  | .portErr _ _ => 0
  | .cpErr r =>
    let f := s.fabric r
    fieldsW [(14, f.lastCp % 4), (13, b2n f.lastSel), (0, f.lastAddr % 4096)]
  | .fabImgLo r => loHi (s.fabric r).imageId false
  | .fabImgHi r => loHi (s.fabric r).imageId true
  | .fabStartup r =>
    let u := (s.fabric r).startup
    fieldsW [(31, b2n u.done), (28, u.steps % 8), (8, u.tree % 8), (0, u.order % 256)]
  | .cfg => fieldsW [(0, (List.range 4).foldl (fun v i => v + (if s.chainBusy i then 2 ^ i else 0)) 0)]
  | .cfgFail => fieldsW [(28, s.fcfg.failCause % 8), (22, s.fcfg.failRegion % 64), (0, s.fcfg.failSegment % 1024)]
  | .cfgChain i => fieldsW [(31, b2n (s.chainBusy i)), (24, look 0 s.fcfg.chainRegion i % 64),
      (0, sat 24 (look 0 s.fcfg.chainSent i / 1024))]
  | .cxlStatus => fieldsW [(31, b2n s.cxl.up), (30, b2n s.cxl.cxlMode),
      (29, b2n (s.cxl.ideKeyed &&& ~~~ s.cxl.ideStopped != 0)), (28, b2n s.cxl.l1), (20, s.cxl.rate % 8),
      (15, s.cxl.width % 32)]
  | .cxlReplay => BitVec.ofNat 32 (sat 32 s.cxl.replays)
  | .strStatus => fieldsW [(31, b2n (decide (16 ≤ s.lanesUp))),
      (30, b2n ((List.range 32).any (fun l => (s.strLane l).training))), (29, b2n s.strait.reversed),
      (6, sat 10 s.strait.replays), (0, s.lanesUp)]
  | .strLane l =>
    let x := s.strLane l
    fieldsW [(31, b2n x.up), (21, x.pre2 % 8), (16, x.pre1 % 32), (12, x.post1 % 16), (0, sat 12 x.fecUe)]
  | .ftxStatus l =>
    let x := s.lane l
    fieldsW [(31, b2n x.rxLock), (30, b2n x.txIdle), (29, b2n x.rxIdle), (28, b2n (s.units.retiredLanes.getLsbD l)),
      (25, b2n x.mirrored), (24, b2n x.pam4), (10, x.slipPos % 128), (5, x.post % 32), (1, x.pre % 16)]
  | .ftxRate l => fieldsW [(0, (s.lane l).rate % 2 ^ 17)]
  | .pairState => fieldsW [(30, s.pair.mode % 4), (28, s.pair.role % 4), (27, b2n s.pair.formed),
      (22, b2n s.pair.left), (0, s.lanesUp)]
  | .cmpLo => loHi s.pair.cmpTick false
  | .cmpHi => loHi s.pair.cmpTick true
  | .pairCounts => fieldsW [(16, sat 16 s.pair.reruns), (0, sat 16 s.pair.unmatched)]
  | .pairXfer => fieldsW [(30, s.pair.phase % 4), (24, sat 6 s.pair.passes), (0, sat 24 (s.pair.bytesSent / 2 ^ 20))]
  | .secStatus => fieldsW [(31, b2n s.sec.idKey.isSome), (30, b2n s.sec.certOk), (29, b2n s.sec.rbOn)]
  | .secRb => BitVec.ofNat 32 (if s.sec.rbOn then s.sec.rbCounter else 0)
  | .sealCtrl => fieldsW [(31, b2n s.sec.busy), (0, s.sec.sealResult % 16)]
  | .secSlot k =>
    let x := look {} s.flash.seals k
    fieldsW [(31, b2n x.cipher.isSome), (0, x.gen % 2 ^ 31)]
  | .sealBuf k => look 0 s.sec.sealBuf k
  | .mbStatus n =>
    let m := s.mb n
    fieldsW [(31, b2n m.claimed), (30, b2n (m.sess != 0)), (29, b2n m.busy.isSome), (0, sat 16 m.goIgnored)]
  | .mbSession n => BitVec.ofNat 32 (s.mb n).sess
  | .mbxWindow => if s.mbxOpen then fieldsW [(16, sat 8 s.sess.length), (8, sat 8 s.freeMailboxes), (0, 1)] else 0
  | .evPend _ => 0

/-- The block of a register accepts accesses: its clock is enabled (R382, R383). -/
def State.blockOn (s : State) : Reg → Bool
  | .tickCtrl | .tickStatus | .tickLo | .tickHi | .digLo | .digHi | .digTickLo | .digTickHi => (s.gateIsle 0).getLsbD 26
  | .strmPool r | .strmLate r | .strmStatus r _ | .strmErr r _ | .strmPos r _ | .strmTte r _ => (s.gateOf r).getLsbD 5
  | .arrStatus i | .arrOvf i | .seqStatus i | .seqErr i => s.clusterOn (i / 9)
  | .memStatus n | .memCe n | .ueLo n | .ueHi n | .memRetired n => s.ctlOn n
  | .fabStatus r | .fabTree r _ | .portStatus r _ | .portErr r _ | .cpErr r | .fabImgLo r | .fabImgHi r
  | .fabStartup r => (s.gateOf r).getLsbD 8
  | .cfg | .cfgFail | .cfgChain _ => (s.gateIsle 0).getLsbD 25
  | .cxlStatus | .cxlReplay => (s.gateIsle 0).getLsbD 24
  | .strStatus | .strLane _ => (s.gateIsle 1).getLsbD 24
  | .ftxStatus l | .ftxRate l => (s.gateIsle (l / 8)).getLsbD (10 + l % 8)
  | .devStatus | .flagSel | .flagCount | .clkStatus | .clkQual | .gateRegion _ | .gateIsle _ | .pwrCtrl | .pwrStatus
  | .railStatus | .pwrRegion _ | .rtCtrl | .rtStatus | .eccCtrl | .memPkg | .pairState | .cmpLo | .cmpHi | .pairCounts
  | .pairXfer | .secStatus | .secRb | .sealCtrl | .secSlot _ | .sealBuf _ | .mbStatus _ | .mbSession _ | .mbxWindow
  | .evPend _ => true

/-- Keys of the words that a low word's read latches (R10). -/
def latchKey : Reg → Nat
  | .tickHi => 1
  | .digHi => 2
  | .digTickLo => 3
  | .digTickHi => 4
  | .cmpHi => 5
  | .ueHi n => 0x100 + n
  | .fabImgHi r => 0x200 + r
  | _ => 0

/-- The words that a read of a register latches for their next reads (R10 and the registers' own sections). -/
def latches : Reg → List Reg
  | .tickLo => [.tickHi]
  | .digLo => [.digHi, .digTickLo, .digTickHi]
  | .cmpLo => [.cmpHi]
  | .ueLo n => [.ueHi n]
  | .fabImgLo r => [.fabImgHi r]
  | _ => []

/-- A register read (R10, R11): a latched word is returned once; a low word's read latches its companions. -/
def State.readReg (s : State) (g : Reg) : Word × State :=
  match (if latchKey g = 0 then none else look none s.latch (latchKey g)) with
  | some v => (v, { s with latch := put none s.latch (latchKey g) none })
  | none =>
    (s.regValue g,
     { s with free := (match g with | .memStatus _ => s.free + 1 | _ => s.free), latch := (latches g).foldl (fun t h => put none t (latchKey h) (some (s.regValue h))) s.latch })

/-- The low words whose reads latch (R10). -/
def isLowWord : Reg → Bool
  | .tickLo | .digLo | .cmpLo | .ueLo _ | .fabImgLo _ => true
  | _ => false

/-- An image is loaded in some session (R28). -/
def State.imageLoaded (s : State) : Bool := s.sess.any (fun x => !x.images.isEmpty)

/-- A tick-control write is refused whole (R28). -/
def State.tickCtrlRefused (s : State) (w : Word) : Bool :=
  let p := bitsOf w.toNat 8 0
  decide (8 ≤ p) && decide (p ≤ 256) && p != s.tick.period && s.imageLoaded

/-- A tick-control write that is not refused (02, `DEV_TICK_CTRL`; R28). -/
def State.putTickCtrl (s : State) (w : Word) : State :=
  let p := bitsOf w.toNat 8 0
  { s with tick := { s.tick with
      warnLead := bitsOf w.toNat 31 24, ovrThresh := bitsOf w.toNat 23 16,
      period := if 8 ≤ p ∧ p ≤ 256 then p else s.tick.period } }

/-- The bits of a gate word that exist (14, register tables). -/
def gateMask (isle : Bool) (n : Nat) : Word :=
  if isle then
    (if n = 0 then 0x070FFFFF else if n = 1 then 0x010FFFFF else 0x000FFFFF)
  else 0x000001EF

/-- A gate word written (R382); the write is logged by the caller. -/
def State.putGate (s : State) (isle : Bool) (n : Nat) (w : Word) : State :=
  let v := w &&& gateMask isle n
  if isle then { s with clk := { s.clk with gateIsle := put 0 s.clk.gateIsle n v } }
  else { s with clk := { s.clk with gateRegion := put 0 s.clk.gateRegion n v } }

/-- A register write by software (R11): `W1C` flags cleared, hardware sets of the same cycle winning (R375), and the
`RW` and `W1S` fields set as each section gives; `GO` starts an operation of the sealed key store, which its own
command ends (R426). -/
def State.writeReg (s : State) (g : Reg) (w hwSet : Word) : State :=
  match g with
  | .flagSel => { s with dev := { s.dev with flagSel := w &&& 0xFFFFFFDF } }
  | .tickCtrl => if s.tickCtrlRefused w then s else s.putTickCtrl w
  | .gateRegion r => s.putGate false r w
  | .gateIsle i => s.putGate true i w
  | .pwrCtrl =>
    let v := bitsOf w.toNat 10 0
    if 400 ≤ v ∧ v ≤ 1600 then { s with pwr := { s.pwr with envelope := v } } else s
  | .rtCtrl =>
    let v := w.toNat % 16
    if 9 ≤ v then { s with mpk := { s.mpk with panicMark := v } } else s
  | .eccCtrl => { s with mpk := { s.mpk with retireThresh := bitsOf w.toNat 31 16 } }
  | .sealCtrl => if w.getLsbD 30 then { s with sec := { s.sec with busy := true } } else s
  | .sealBuf k => { s with sec := { s.sec with sealBuf := put 0 s.sec.sealBuf k w } }
  | _ => if g.flagMask = 0 then s else s.w1c g w hwSet

end Sys2Proof.Machine
end

