-- ==== Sys2Proof/Machine/FabCells.lean ====
section
/-! DEFINITION. What the cells of a fabric region do at the clock edges of its design (09): logic blocks and flip-flops
(R219 to R221), block RAMs (R222 to R224), I/O cells (R230, R232, R233) and border wires (R231, R244, R245). The manual
keeps the meaning of the frames' bits to itself (R255): what they say is `Config.frameField`, and what a design's nets carry
is `Config.designNet` (log entries 21, 60). -/

namespace Sys2Proof.Machine

/-- The number whose bit i is `f i`, for `n` bits. -/
def ofBits (n : Nat) (f : Nat → Bool) : Nat := (List.range n).foldl (fun v i => v + if f i then 2 ^ i else 0) 0

/-! Logic blocks. -/

/-- A LUT's output (R219): any function of six inputs, or with `split` two functions of five shared inputs, one on each of
its outputs. -/
def lutOut (truth : Nat) (split half : Bool) (x : Nat) : Bool :=
  if split then bitAt truth (b2n half * 32 + x % 32) else bitAt truth (x % 64)

/-- Eight bits of a carry chain (R219): sum and carry out; a comparison adds the complement. -/
def carry8 (sub : Bool) (a b : Nat) (cin : Bool) : Nat × Bool :=
  let s := a % 256 + (if sub then 255 - b % 256 else b % 256) + b2n cin
  (s % 256, decide (256 ≤ s))

/-- The carry chain of a column at block b, from the block below (R219); it begins at block 0. -/
def chainAt (frame : List Byte) (net : Nat → Bool) : Nat → Nat × Bool
  | 0 =>
    let sub := bitAt (Config.frameField frame 12 0) 0
    carry8 sub (ofBits 8 (fun i => net (Config.frameField frame 10 i))) (ofBits 8 (fun i => net (Config.frameField frame 11 i))) sub
  | b + 1 =>
    let k := 8 * (b + 1)
    carry8 (bitAt (Config.frameField frame 12 (b + 1)) 0)
      (ofBits 8 (fun i => net (Config.frameField frame 10 (k + i)))) (ofBits 8 (fun i => net (Config.frameField frame 11 (k + i))))
      (chainAt frame net b).2

/-- The data input of flip-flop j of a column (R219, R220): an output of the LUT beside it, a bit of its block's carry chain,
or a routed net. -/
def ffData (frame : List Byte) (net : Nat → Bool) (j : Nat) : Bool :=
  let l := j / 2
  match Config.frameField frame 3 j % 3 with
  | 0 => lutOut (Config.frameField frame 0 l) (bitAt (Config.frameField frame 1 l) 0) (j % 2 == 1)
      (ofBits 6 (fun i => net (Config.frameField frame 2 (6 * l + i))))
  | 1 => bitAt (chainAt frame net (j / 16)).1 (j / 2 % 8)
  | _ => net (Config.frameField frame 4 j)

/-- The initial values of a column's flip-flops (R220); 0 for a column without a frame (R256). -/
def ffInit (frame : List Byte) : Nat :=
  if frame.isEmpty then 0 else ofBits 2048 (fun j => bitAt (Config.frameField frame 9 j) 0)

/-- Flip-flop j at an edge of tree t (R220, R221, R227): on another tree it keeps its value; one that an arbitrary wire
clocks has an edge when its net says so. -/
def ffNext (frame : List Byte) (net : Nat → Bool) (t : Nat) (out : Bool) (old j : Nat) : Bool :=
  let c := Config.frameField frame 5 j % 9
  let edge := if c = 8 then net (Config.frameField frame 13 j) else c == t && out
  if !edge then bitAt old j
  else if net (Config.frameField frame 7 j) then bitAt (Config.frameField frame 8 j) 0
  else if net (Config.frameField frame 6 j) then ffData frame net j
  else bitAt old j

/-- The flip-flops of a column as they stand: at their initial values while set/reset is asserted (R220, R262). -/
def FabRegion.ffs (f : FabRegion) (col : Nat) : Nat :=
  if f.gsr then ffInit (look [] f.columns col) else look 0 f.cells.ffs col

/-! Block RAMs. -/

/-- A port's width in bits (R222): 512 x 72 in simple dual port, else as set for the port. -/
def ramWidth (opts : List Byte) (p : Nat) : Nat :=
  if bitAt (Config.frameField opts 20 0) 0 then 72
  else [1, 2, 4, 9, 18, 36].getD (Config.frameField opts 21 p % 6) 36

/-- The words of a width (R222). -/
def ramDepth (w : Nat) : Nat := if w < 9 then 32768 / w else 36864 / w

/-- Where bit i of word a of a width lies among the 36,864. PRESUMED: the widths below 9 use the eight data bits of each lane
of nine, in order (log entry 60). -/
def ramPos (w a i : Nat) : Nat := if w < 9 then (a * w + i) / 8 * 9 + (a * w + i) % 8 else a * w + i

/-- A word read. -/
def ramWord (c w a : Nat) : Nat := ofBits w (fun i => bitAt c (ramPos w a i))

/-- A word written in the byte lanes enabled (R222): a lane has nine bits, and a word below nine bits is one lane. -/
def ramStore (c w a lanes v : Nat) : Nat :=
  (List.range w).foldl (fun c i =>
    if bitAt lanes (i / 9) then
      (let k := ramPos w a i
      if bitAt c k = bitAt v i then c else if bitAt v i then c + 2 ^ k else c - 2 ^ k)
    else c) c

/-- Each lane of nine bits one of two words', as a free value says (R223). -/
def mixLanes (v w x y : Nat) : Nat := ofBits w (fun i => if bitAt v (i / 9) then bitAt y i else bitAt x i)

/-- What a design presents to a block RAM port at an edge: address, whether it reads, whether it writes, lanes, data. -/
structure RamIn where
  addr : Nat
  read : Bool
  write : Bool
  lanes : Nat
  data : Nat

/-- The inputs of port p of a block RAM (R222): in simple dual port A only writes and B only reads; no write takes effect
before the start-up order enables them (R224). -/
def FabRegion.ramIn (f : FabRegion) (opts : List Byte) (r b p : Nat) : RamIn :=
  let v := Config.designNet r f.cells.edges (1 + 2 * b + p)
  let simple := bitAt (Config.frameField opts 20 0) 0
  { addr := v / 2 % ramDepth (ramWidth opts p)
    read := !(simple && p == 0)
    write := bitAt v 0 && f.writes && !(simple && p == 1)
    lanes := v / 2 ^ 17 % 256
    data := v / 2 ^ 25 % 2 ^ 72 }

/-- The contents of a block RAM's frame as one number; all 0 where no frame gave them (R256). -/
def ramBits (frame : List Byte) : Nat := ofLe (frame.drop 16)

/-- One access of a port (R223): the other port's accesses of the same edge have not been made, so a read returns the old
word; with its own write to that word, the new one where the port is write-first. -/
def ramRead (opts : List Byte) (c p : Nat) (x : RamIn) : Nat :=
  let w := ramWidth opts p
  if x.write && bitAt (Config.frameField opts 23 p) 0 then ramWord (ramStore c w x.addr x.lanes x.data) w x.addr
  else ramWord c w x.addr

/-- The writes of an edge (R223): port B's, then port A's, whose data stands in every lane that both write. -/
def ramWrites (opts : List Byte) (c : Nat) (a b : Option RamIn) : Nat :=
  let one := fun (c p : Nat) (x : Option RamIn) => match x with
    | some x => if x.write then ramStore c (ramWidth opts p) x.addr x.lanes x.data else c
    | none => c
  one (one c 1 b) 0 a

/-- The ECC word of an access and its errors (R222): none, one bit or two. -/
def eccKey (b a : Nat) : Nat := b * 512 + a

/-- Port p of block RAM b, clocked by tree t of its region (R222 to R224). Where the last access of the other port, on another
tree, may lie within 1 ns, each lane of what they share is the old or the new one, as the design's nets fall (R223). -/
def FabRegion.ramPort (f : FabRegion) (opts : List Byte) (r b p before after : Nat) (x : RamIn) : FabRegion :=
  let w := ramWidth opts p
  let q := look {} f.cells.ramLast (2 * b + (1 - p))
  let v := Config.designNet r f.cells.edges (1 + 768 + 2 * b + p)
  let near := bitAt v 0 && q.width != 0
  let word := ramRead opts before p x
  let word := if near && q.wrote then mixLanes (v / 2) w (ramWord q.before w x.addr) word else word
  let ecc := bitAt (Config.frameField opts 20 0) 0 && bitAt (Config.frameField opts 25 0) 0
  let errs := if ecc then Nat.min 2 (look 0 f.cells.ramErr (eccKey b x.addr) + v / 512 % 2) else 0
  let word := if errs = 2 && x.read then v / 1024 % 2 ^ 72 else word
  let c := f.cells
  let c := if x.read then { c with
      ramReg := put 0 c.ramReg (2 * b + p) (look 0 c.ramOut (2 * b + p)), ramOut := put 0 c.ramOut (2 * b + p) word
      ramFlag := put 0 c.ramFlag b (if p = 1 then errs else look 0 c.ramFlag b) } else c
  let c := if near && x.write && !q.wrote then { c with
      ramOut := modify 0 c.ramOut (2 * b + (1 - p)) (fun old => mixLanes (v / 2) q.width old (ramWord after q.width q.addr)) } else c
  let c := { c with
    ramErr := put 0 c.ramErr (eccKey b x.addr) (if x.write then 0 else errs)
    ramLast := put {} c.ramLast (2 * b + p) { before := before, width := w, addr := x.addr, wrote := x.write } }
  { f with
    cells := c
    eccFix := f.eccFix + b2n (x.read && errs == 1)
    eccSeen := f.eccSeen + b2n (x.read && errs == 2) }

/-- Two writes of different clocks within 1 ns (R223): each lane that both write holds one of the two values. -/
def FabRegion.ramClash (f : FabRegion) (opts : List Byte) (r b p : Nat) (x : RamIn) : RamIn :=
  let q := look {} f.cells.ramLast (2 * b + (1 - p))
  let v := Config.designNet r f.cells.edges (1 + 768 + 2 * b + p)
  if bitAt v 0 && q.wrote && q.width == ramWidth opts p && q.addr == x.addr then { x with lanes := Nat.land x.lanes (v / 2 % 256) } else x

/-- One block RAM at an edge of tree t (R222 to R224). -/
def FabRegion.ramEdge (r t : Nat) (f : FabRegion) (b : Nat) : FabRegion :=
  let frame := look [] f.brams b
  let opts := frame.take 16
  let on := fun (p : Nat) => !frame.isEmpty && Config.frameField opts 24 p % 8 == t
  let ins := fun (p : Nat) => if on p then some (if on (1 - p) then f.ramIn opts r b p else f.ramClash opts r b p (f.ramIn opts r b p)) else none
  let before := ramBits frame
  let after := ramWrites opts before (ins 0) (ins 1)
  let g := match ins 0 with | some x => f.ramPort opts r b 0 before after x | none => f
  let g := match ins 1 with | some x => g.ramPort opts r b 1 before after x | none => g
  if after = before then g else { g with brams := put [] g.brams b (opts ++ leBytes 4608 after) }

/-- What a block RAM port shows its design (R223): its output register where one is enabled. -/
def FabRegion.ramQ (f : FabRegion) (b p : Nat) : Nat :=
  if bitAt (Config.frameField ((look [] f.brams b).take 16) 22 p) 0 then look 0 f.cells.ramReg (2 * b + p)
  else look 0 f.cells.ramOut (2 * b + p)

/-! I/O cells. -/

/-- An I/O cell of a region. -/
def FabRegion.pin (f : FabRegion) (k : Nat) : Pin := look {} f.cells.pins k

/-- Bits per fabric cycle of a register mode (R233). -/
def Pin.width (p : Pin) : Nat := if p.mode = 0 then 1 else if p.mode = 1 then 2 else 4

/-- A cell's mode can run (R233): a gearbox needs its fabric-side tree on an output of the PLL that gives its edge clock. -/
def FabRegion.gearOk (f : FabRegion) (p : Pin) (tree : Nat) : Bool := p.mode != 2 || (f.tree tree).sel / 4 == p.pll

/-- The standards that a bank's pins may use (R232); a differential one only on the pair. -/
def stdOk (high : Bool) (k std : Nat) : Bool := std == 0 || (std == 1 && !high) || (std == 2 && high && k != 2)

/-- The group of bits that the wire brought, its first bit in bit 0 (R233). -/
def groupOf (wire : List Bool) : Nat := ofBits wire.length (fun i => wire.getD i false)

/-- The bits of a group in the order in which they leave (R233). -/
def Pin.wire (p : Pin) (g : Nat) : List Bool := (List.range p.width).map (bitAt g)

/-- The input path of a cell at an edge of its clock, its registers and the output enable (R232, R233); pin inputs are
ignored while the cells are engaged (R244). -/
def FabRegion.pinEdge (r t : Nat) (f : FabRegion) (k : Nat) : FabRegion :=
  let p := f.pin k
  let v := Config.designNet r f.cells.edges (2000 + k)
  if look 0 f.cells.clocks (20 + k) != t || !f.gearOk p t || !stdOk (Config.bankHigh (r / 16)) k p.std then f
  else { f with cells := { f.cells with pins := put {} f.cells.pins k { p with
      inReg := if f.isolated then p.inReg else groupOf ((List.range p.width).map (bitAt v))
      outReg := v / 16 % 2 ^ p.width, oe := bitAt v 8 } } }

/-- A partial load of the region is under way (R244). -/
def State.partialLoad (s : State) (r : Nat) : Bool :=
  (s.fabric r).loading && s.loads.any (fun l => l.begun && l.kind == 1 && l.target == r)

/-- What a region drives on pin k (R232, R244): nothing, when the weak pull-down holds it, or the bits of its last group. While
the cells are engaged only a pin marked hold-last drives, through a partial load of the region. -/
def State.pinOut (s : State) (r k : Nat) : Option (List Bool) :=
  let f := s.fabric r
  let p := f.pin k
  if f.isolated && !(p.hold && s.partialLoad r) then none
  else if p.oe then some (p.wire p.outReg) else none

/-- The pins that source 8 takes (R230): pin 3j, or the pair. -/
def FabRegion.clockPins (f : FabRegion) : List Nat := if (f.pin 0).pair then [0, 1] else [0]

/-! Border wires. -/

/-- The two regions of a die are in one partition (R231). -/
def State.sameOwner (s : State) (r : Nat) : Bool :=
  (s.region r).owner != 0 && (s.region r).owner == (s.region (r ^^^ 1)).owner

/-- What a closed border's outgoing wires are held at (R231, R244, R245): constant 0, constant 1, or the last value, which
counts as 0 across partitions. -/
def heldWires (holds last : Nat) (same : Bool) : Nat :=
  ofBits 4096 (fun i =>
    match holds / 4 ^ i % 4 with
    | 0 => false
    | 1 => true
    | _ => same && bitAt last i)

/-- The outgoing border wires of a region (R231). -/
def State.borderOut (s : State) (r : Nat) : Nat :=
  let f := s.fabric r
  if f.borderOpen then f.cells.wires else heldWires f.cells.holds f.cells.wires (s.sameOwner r)

/-- The incoming border wires of a region (R231): 0 while the border is closed. -/
def State.borderIn (s : State) (r : Nat) : Nat := if (s.fabric r).borderOpen then s.borderOut (r ^^^ 1) else 0

/-! A clock edge. -/

/-- A net of a design: an incoming border wire, a bit of an input register, or one of its own. -/
def FabRegion.net (f : FabRegion) (r border k : Nat) : Bool :=
  if k < 4096 then bitAt border k
  else if k < 4108 then bitAt (f.pin ((k - 4096) / 4)).inReg ((k - 4096) % 4)
  else bitAt (Config.designNet r f.cells.edges 0) k

/-- Every column's flip-flops at an edge of tree t (R220, R221): they leave set/reset on the tree's second edge after the
release, and take their data from the next on. -/
def FabRegion.ffEdge (f : FabRegion) (r t border : Nat) : FabRegion :=
  if f.gsr then f
  else
    let out := decide (2 ≤ look 0 f.cells.leaving t)
    let step := fun (col : Nat) (frame : List Byte) =>
      let old := look 0 f.cells.ffs col
      ofBits 2048 (fun j => ffNext frame (f.net r border) t out old j)
    { f with cells := { f.cells with
        leaving := put 0 f.cells.leaving t (Nat.min 2 (look 0 f.cells.leaving t + 1))
        ffs := f.columns.foldl (fun m c => put 0 m c.1 (step c.1 c.2)) f.cells.ffs } }

/-- The reset of a forced switch (R385): the tree's flip-flops at their initial values, its synchroniser (R221) at 0. -/
def FabRegion.treeReset (f : FabRegion) (t : Nat) : FabRegion :=
  let init := fun (old : Nat) (frame : List Byte) =>
    ofBits 2048 (fun j => if Config.frameField frame 5 j % 9 = t then bitAt (ffInit frame) j else bitAt old j)
  { f with cells := { f.cells with
      leaving := put 0 f.cells.leaving t 0
      ffs := f.columns.foldl (fun m c => put 0 m c.1 (init (look 0 f.cells.ffs c.1) c.2)) f.cells.ffs } }

/-- The design's outgoing border wires, driven while the border is open (R229, R231). -/
def FabRegion.wireEdge (f : FabRegion) (r : Nat) : FabRegion :=
  if f.borderOpen then { f with cells := { f.cells with wires := Config.designNet r f.cells.edges 3000 % 2 ^ 4096 } } else f

/-- A rising edge of tree t in a region's design; `border` are its incoming border wires. -/
def FabRegion.treeEdge (r border : Nat) (f : FabRegion) (t : Nat) : FabRegion :=
  let g := f.ffEdge r t border
  let g := (List.range 384).foldl (FabRegion.ramEdge r t) g
  let g := (List.range 3).foldl (FabRegion.pinEdge r t) g
  let g := g.wireEdge r
  { g with cells := { g.cells with edges := g.cells.edges + 1 } }

/-- The edges of a design's trees since the event before (log entry 60): how many, and of which of the trees that run, is
free. -/
def FabRegion.run (f : FabRegion) (r border : Nat) (on : Nat → Bool) : FabRegion :=
  let from_ := f.cells.edges
  (List.range (Config.designNet r from_ 4000)).foldl (fun f i =>
    let t := Config.designNet r from_ (4001 + i) % 8
    if on t then f.treeEdge r border t else f) f

/-- A region's design runs up to the present event: its cells, the contents of its block RAMs and their ECC counts move,
and nothing else (R219 to R224). -/
def State.runDesign (s : State) (r : Nat) : State :=
  let f := s.fabric r
  if f.configured || !f.isolated then
    let g := f.run r (s.borderIn r) (s.treeOn r)
    s.setFab r (fun f => { f with brams := g.brams, eccFix := g.eccFix, eccSeen := g.eccSeen, cells := g.cells })
  else s

end Sys2Proof.Machine
end

