-- ==== Sys2Proof/Machine/SeqFam.lean ====
section
/-! DEFINITION. The operation commands of the tile sequencer (05). Each is the execution of one whole bundle whose named
field holds the operation (log entry 10): `State.runWord` is that execution, and the commands differ only in the word
they form. -/

namespace Sys2Proof.Machine

/-- A bundle's 64-bit word from its four fields (R124). -/
def wordOf (ctl : BitVec 20) (vec : BitVec 20) (x y : BitVec 12) : Nat :=
  ctl.toNat * 2 ^ 44 + vec.toNat * 2 ^ 24 + x.toNat * 2 ^ 12 + y.toNat

/-- The word of a bundle whose control field is operation `cop` with operand bits `f`. -/
def ctlWord (b : Bundle) (cop : BitVec 5) (f : BitVec 15) : Nat := wordOf (cop ++ f) b.vec b.x b.y

/-- The word of a bundle whose vector field is operation `op` with operand bits `f`. -/
def vecWord (b : Bundle) (op : BitVec 6) (f : BitVec 14) : Nat := wordOf b.ctl (op ++ f) b.x b.y

/-- The word of a bundle whose X move is of kind `k` with operand bits `f`. -/
def xWord (b : Bundle) (k : BitVec 2) (f : BitVec 10) : Nat := wordOf b.ctl b.vec (k ++ f) b.y

/-- The word of a bundle whose Y move is of kind `k` with operand bits `f`. -/
def yWord (b : Bundle) (k : BitVec 2) (f : BitVec 10) : Nat := wordOf b.ctl b.vec b.x (k ++ f)

/-- The slot's sequencer executes this bundle now: tile clocks run and are not clamped (R393), the cluster's clock is enabled, the slot works for a
session, its running context may execute, and program memory holds the word at its program counter. -/
def State.mayRun (s : State) (slot word : Nat) : Bool :=
  let t := s.tile slot
  decide (slot < 2304) && s.tilesRun && !s.clamped (slot / 36) && s.clusterOn (slot / 9) && t.job.isSome && mayExecute t &&
    bundleAt t (t.ctx t.cur).pc == word

/-- The bundle stops its context on a fatal error (R142). -/
def fatalOn (t : Tile) (word : Nat) : Bool := (runBundle { t with r := { t.r with fatal := false } } t.cur word).r.fatal

/-- One bundle executed on a slot (R124); a fatal error stops the session's step at the next tick boundary (R142). -/
def State.runWord (s : State) (slot word : Nat) : State :=
  let t := s.tile slot
  let s' := s.runTile slot (fun t => runBundle t t.cur word)
  if fatalOn t word then s'.stopStep (t.job.getD {}).sess 0xF else s'

/-- A bundle executed if it is the one that runs now; else the command does nothing (log entry 4). -/
def State.runOp (s : State) (slot word : Nat) : Host.Outcome State Fault Refusal :=
  if s.mayRun slot word then .next (s.runWord slot word) else .next s

/-- `NOP` (R137): the control field does nothing. -/
def execNop (b : Bundle) (f : BitVec 15) (s : State) : Host.Outcome State Fault Refusal :=
  s.runOp b.slot (ctlWord b 0 f)

/-- `JMP` (R137, R138). -/
def execJmp (b : Bundle) (f : BitVec 15) (s : State) : Host.Outcome State Fault Refusal :=
  s.runOp b.slot (ctlWord b 1 f)

/-- `CALL` (R137): A7 takes the return address. -/
def execCall (b : Bundle) (f : BitVec 15) (s : State) : Host.Outcome State Fault Refusal :=
  s.runOp b.slot (ctlWord b 2 f)

/-- `JMPR` (R137, R143). -/
def execJmpr (b : Bundle) (f : BitVec 15) (s : State) : Host.Outcome State Fault Refusal :=
  s.runOp b.slot (ctlWord b 3 f)

/-- `BR` (R137, R143). -/
def execBranch (b : Bundle) (f : BitVec 15) (s : State) : Host.Outcome State Fault Refusal :=
  s.runOp b.slot (ctlWord b 4 f)

/-- `REP` (R139). -/
def execRepeatN (b : Bundle) (f : BitVec 15) (s : State) : Host.Outcome State Fault Refusal :=
  s.runOp b.slot (ctlWord b 5 f)

/-- `REPA` (R139). -/
def execRepeatA (b : Bundle) (f : BitVec 15) (s : State) : Host.Outcome State Fault Refusal :=
  s.runOp b.slot (ctlWord b 6 f)

/-- `DO` (R140). -/
def execDoLoop (b : Bundle) (f : BitVec 15) (s : State) : Host.Outcome State Fault Refusal :=
  s.runOp b.slot (ctlWord b 7 f)

/-- `DOA` (R140). -/
def execDoLoopA (b : Bundle) (f : BitVec 15) (s : State) : Host.Outcome State Fault Refusal :=
  s.runOp b.slot (ctlWord b 8 f)

/-- `EXIT` (R137, R140). -/
def execExitLoop (b : Bundle) (f : BitVec 15) (s : State) : Host.Outcome State Fault Refusal :=
  s.runOp b.slot (ctlWord b 9 f)

/-- `PASS` (R118). -/
def execPassOp (b : Bundle) (f : BitVec 15) (s : State) : Host.Outcome State Fault Refusal :=
  s.runOp b.slot (ctlWord b 10 f)

/-- `WAITP` (R115, R137). -/
def execWaitp (b : Bundle) (f : BitVec 15) (s : State) : Host.Outcome State Fault Refusal :=
  s.runOp b.slot (ctlWord b 11 f)

/-- `YIELD` (R116). -/
def execYield (b : Bundle) (f : BitVec 15) (s : State) : Host.Outcome State Fault Refusal :=
  s.runOp b.slot (ctlWord b 12 f)

/-- `END` (R118). -/
def execEndTask (b : Bundle) (f : BitVec 15) (s : State) : Host.Outcome State Fault Refusal :=
  s.runOp b.slot (ctlWord b 13 f)

/-- `RTE` (R141). -/
def execRte (b : Bundle) (f : BitVec 15) (s : State) : Host.Outcome State Fault Refusal :=
  s.runOp b.slot (ctlWord b 14 f)

/-- `SETAL` (R127, R137). -/
def execSetal (b : Bundle) (f : BitVec 15) (s : State) : Host.Outcome State Fault Refusal :=
  s.runOp b.slot (ctlWord b 15 f)

/-- `SETAH` (R127, R137). -/
def execSetah (b : Bundle) (f : BitVec 15) (s : State) : Host.Outcome State Fault Refusal :=
  s.runOp b.slot (ctlWord b 16 f)

/-- `INCA` (R127, R137). -/
def execInca (b : Bundle) (f : BitVec 15) (s : State) : Host.Outcome State Fault Refusal :=
  s.runOp b.slot (ctlWord b 17 f)

/-- `MOVR` (R123, R137). -/
def execMovr (b : Bundle) (f : BitVec 15) (s : State) : Host.Outcome State Fault Refusal :=
  s.runOp b.slot (ctlWord b 18 f)

/-- `LDCR` (R137, R143). -/
def execLdcr (b : Bundle) (f : BitVec 15) (s : State) : Host.Outcome State Fault Refusal :=
  s.runOp b.slot (ctlWord b 19 f)

/-- `STCR` (R137). -/
def execStcr (b : Bundle) (f : BitVec 15) (s : State) : Host.Outcome State Fault Refusal :=
  s.runOp b.slot (ctlWord b 20 f)

/-- `BXCLR` (R131). -/
def execBxclr (b : Bundle) (f : BitVec 15) (s : State) : Host.Outcome State Fault Refusal :=
  s.runOp b.slot (ctlWord b 21 f)

/-- `SETSAT` (R130). -/
def execSetsat (b : Bundle) (f : BitVec 15) (s : State) : Host.Outcome State Fault Refusal :=
  s.runOp b.slot (ctlWord b 22 f)

/-- `VEXPA` (R132). -/
def execVexpa (b : Bundle) (f : BitVec 15) (s : State) : Host.Outcome State Fault Refusal :=
  s.runOp b.slot (ctlWord b 23 f)

/-- `VNOP` (R128). -/
def execVnop (b : Bundle) (f : BitVec 14) (s : State) : Host.Outcome State Fault Refusal :=
  s.runOp b.slot (vecWord b 0 f)

/-- `PRD` (R128). -/
def execPrd (b : Bundle) (f : BitVec 14) (s : State) : Host.Outcome State Fault Refusal :=
  s.runOp b.slot (vecWord b 1 f)

/-- `PRA` (R128). -/
def execPra (b : Bundle) (f : BitVec 14) (s : State) : Host.Outcome State Fault Refusal :=
  s.runOp b.slot (vecWord b 2 f)

/-- `PRS` (R128). -/
def execPrs (b : Bundle) (f : BitVec 14) (s : State) : Host.Outcome State Fault Refusal :=
  s.runOp b.slot (vecWord b 3 f)

/-- `ACLD` (R128). -/
def execAcld (b : Bundle) (f : BitVec 14) (s : State) : Host.Outcome State Fault Refusal :=
  s.runOp b.slot (vecWord b 4 f)

/-- `ACAD` (R128). -/
def execAcad (b : Bundle) (f : BitVec 14) (s : State) : Host.Outcome State Fault Refusal :=
  s.runOp b.slot (vecWord b 5 f)

/-- `ACSB` (R128). -/
def execAcsb (b : Bundle) (f : BitVec 14) (s : State) : Host.Outcome State Fault Refusal :=
  s.runOp b.slot (vecWord b 6 f)

/-- `ACSH` (R128). -/
def execAcsh (b : Bundle) (f : BitVec 14) (s : State) : Host.Outcome State Fault Refusal :=
  s.runOp b.slot (vecWord b 7 f)

/-- `ACRD` (R128, R130, R143). -/
def execAcrd (b : Bundle) (f : BitVec 14) (s : State) : Host.Outcome State Fault Refusal :=
  s.runOp b.slot (vecWord b 8 f)

/-- `EXP` (R129, R143). -/
def execExpo (b : Bundle) (f : BitVec 14) (s : State) : Host.Outcome State Fault Refusal :=
  s.runOp b.slot (vecWord b 9 f)

/-- `NORM` (R128, R143). -/
def execNorm (b : Bundle) (f : BitVec 14) (s : State) : Host.Outcome State Fault Refusal :=
  s.runOp b.slot (vecWord b 10 f)

/-- `VADD` (R130). -/
def execVadd (b : Bundle) (f : BitVec 14) (s : State) : Host.Outcome State Fault Refusal :=
  s.runOp b.slot (vecWord b 11 f)

/-- `VSUB` (R130). -/
def execVsub (b : Bundle) (f : BitVec 14) (s : State) : Host.Outcome State Fault Refusal :=
  s.runOp b.slot (vecWord b 12 f)

/-- `VNEG` (R130). -/
def execVneg (b : Bundle) (f : BitVec 14) (s : State) : Host.Outcome State Fault Refusal :=
  s.runOp b.slot (vecWord b 13 f)

/-- `VASR` (R130). -/
def execVasr (b : Bundle) (f : BitVec 14) (s : State) : Host.Outcome State Fault Refusal :=
  s.runOp b.slot (vecWord b 14 f)

/-- `VMOV` (R128). -/
def execVmov (b : Bundle) (f : BitVec 14) (s : State) : Host.Outcome State Fault Refusal :=
  s.runOp b.slot (vecWord b 15 f)

/-- `CRD` (R121). -/
def execCrd (b : Bundle) (f : BitVec 14) (s : State) : Host.Outcome State Fault Refusal :=
  s.runOp b.slot (vecWord b 16 f)

/-- `BFC` (R133). -/
def execBfc (b : Bundle) (f : BitVec 14) (s : State) : Host.Outcome State Fault Refusal :=
  s.runOp b.slot (vecWord b 17 f)

/-- `FLT` (R134). -/
def execFlt (b : Bundle) (f : BitVec 14) (s : State) : Host.Outcome State Fault Refusal :=
  s.runOp b.slot (vecWord b 18 f)

/-- `CST` (R135, R136). -/
def execCst (b : Bundle) (f : BitVec 14) (s : State) : Host.Outcome State Fault Refusal :=
  s.runOp b.slot (vecWord b 19 f)

/-- X move: a data register from X memory (R125). -/
def execLoadX (b : Bundle) (f : BitVec 10) (s : State) : Host.Outcome State Fault Refusal :=
  s.runOp b.slot (xWord b 1 f)

/-- X move: a data register to X memory (R125). -/
def execStoreX (b : Bundle) (f : BitVec 10) (s : State) : Host.Outcome State Fault Refusal :=
  s.runOp b.slot (xWord b 2 f)

/-- X move: a data register from the operand store (R125). -/
def execLoadOperandStore (b : Bundle) (f : BitVec 10) (s : State) : Host.Outcome State Fault Refusal :=
  s.runOp b.slot (xWord b 3 f)

/-- Y move: a data register from Y memory (R125). -/
def execLoadY (b : Bundle) (f : BitVec 10) (s : State) : Host.Outcome State Fault Refusal :=
  s.runOp b.slot (yWord b 1 f)

/-- Y move: a data register to Y memory (R125). -/
def execStoreY (b : Bundle) (f : BitVec 10) (s : State) : Host.Outcome State Fault Refusal :=
  s.runOp b.slot (yWord b 2 f)

/-- Y move: a data register to the operand store (R125). -/
def execStoreOperandStore (b : Bundle) (f : BitVec 10) (s : State) : Host.Outcome State Fault Refusal :=
  s.runOp b.slot (yWord b 3 f)

end Sys2Proof.Machine
end

