-- ==== Sys2Proof/Machine/TileFam.lean ====
section
/-! DEFINITION. The events of a tile inside a tick: context switches and taken events (05), and the start, hold,
delivery and commit of passes (03). -/

namespace Sys2Proof.Machine

/-- The slot works for a session, its tile clock runs, not clamped (R393), and its cluster's clock is enabled. -/
def State.atWork (s : State) (slot : Nat) : Bool :=
  decide (slot < 2304) && s.tilesRun && !s.clamped (slot / 36) && s.clusterOn (slot / 9) && (s.tile slot).job.isSome

/-- `CONTEXT_SWITCH` happens now: a switch is due and a context is ready (R116). -/
def State.maySwitch (s : State) (slot : Nat) : Bool :=
  s.atWork slot && switchDue (s.tile slot) && (nextCtx (s.tile slot)).isSome

/-- `CONTEXT_SWITCH` (R116). -/
def execContextSwitch (slot : Nat) (s : State) : Host.Outcome State Fault Refusal :=
  if s.maySwitch slot then .next (s.runTile slot switchCtx) else .next s

/-- The event that the slot's running context takes now (R141): it is ready, at a safe point, and has not yielded. -/
def State.eventNow (s : State) (slot : Nat) : Option Nat :=
  let t := s.tile slot
  let x := t.ctx t.cur
  if s.atWork slot && ready t t.cur && !(x.yield && x.safe) then eventDue x else none

/-- `EVENT_TAKEN` (R141). -/
def execEventTaken (slot : Nat) (s : State) : Host.Outcome State Fault Refusal :=
  match s.eventNow slot with
  | some e => .next (s.runTile slot (fun t => t.setCtx t.cur (takeEvent (t.ctx t.cur) e)))
  | none => .next s

/-- The region a slot lies in (R5). -/
def regionOf (slot : Nat) : Nat := slot / 36

/-- The streams of a slot's region with an unfinished descriptor, in the present ring or a shadow, that delivers to the
slot under one of the destination codes given. A ring that writes the slot's operand store counts until all of it has
completed (R161). -/
def State.feeders (s : State) (slot : Nat) (dsts : List Nat) : List Nat :=
  let r := regionOf slot
  (List.range 32).filter (fun n =>
    let x := s.stream r n
    let names := fun (g : Ring) (from_ : Nat) =>
      match s.homeOf g with
      | none => false
      | some h => (List.range g.count).any (fun i =>
          let d := h.desc g i
          dsts.contains d.dst && (decide (from_ ≤ i) || d.dst == 2) && (match s.dstPlace h d with
            | .queue _ l => l.contains slot
            | .store j => j == slot
            | _ => false))
    (match x.ring with | some g => names g x.dDesc | none => false) ||
      (match x.shadow with | some g => names g 0 | none => false))

/-- Every ring armed in the tick that writes the slot's operand store has completed (R161). -/
def State.ringsDone (s : State) (slot : Nat) : Bool := (s.feeders slot [2]).isEmpty

/-- A consumer of each of these streams ran dry (R168). -/
def State.markLate (s : State) (r : Nat) (ns : List Nat) : State :=
  let s := ns.foldl (fun s n => s.setStream r n (fun x => { x with lateCnt := x.lateCnt + 1 })) s
  if ns.isEmpty then s else s.raise (.strmLate r) (bitsW (ns.map (fun n => (n, true))))

/-- The queues and the store whose data a pass still misses, as destination codes (R82, R161). -/
def missing (t : Tile) (p : PassWork) (ringsDone : Bool) : List Nat :=
  let d := parseDesc p.desc
  (if d.aQueue && t.sqTaken ≥ t.sq.length then [4] else []) ++
    (if d.bQueue && t.tqTaken + 32 > t.tq.length then [5] else []) ++
    (if p.waitArm && !ringsDone then [2] else [])

/-- A context becomes data-late (R119). -/
def makeLate (t : Tile) (c : Nat) : Tile :=
  let t := t.setCtx c { t.ctx c with late := true }
  let t := { t with r := { t.r with dlate := t.r.dlate ||| BitVec.ofNat 4 (2 ^ c), lateAll := t.r.lateAll + 1 } }
  raiseEvent t c 3

/-- The pass the array of a slot would start now: released, next in order, and the array has room (R68, R118); a ready
step of the region's operating point holds the next front (R70, R391). -/
def State.passNow (s : State) (slot : Nat) : Option Nat :=
  let t := s.tile slot
  if s.atWork slot && (s.region (regionOf slot)).step != 2 then
    match nextPass t with
    | none => none
    | some i => match t.passes[i]? with
      | some p => if p.released && roomFor t p then some i else none
      | none => none
  else none

/-- What `PASS_START` does with the pass the array would start (R82, R119, R168). -/
def State.startNow (s : State) (slot i : Nat) : State :=
  let t := s.tile slot
  match t.passes[i]? with
  | none => s
  | some p =>
    let rd := s.ringsDone slot
    if operandsReady t p rd then
      let s := s.runTile slot (fun t => let t := startPass t i; t.setCtx p.ctx { t.ctx p.ctx with late := false })
      if (s.tile slot).array.any (fun j => j.held && j.idx == i) then
        s.markLate (regionOf slot) (s.feeders slot [4])
      else s
    else if (t.ctx p.ctx).late then s
    else
      let s := s.runTile slot (fun t => makeLate t p.ctx)
      s.markLate (regionOf slot) (s.feeders slot (missing t p rd))

/-- `PASS_START` (R82, R118, R119). -/
def execPassStart (slot : Nat) (s : State) : Host.Outcome State Fault Refusal :=
  match s.passNow slot with
  | some i => .next (s.startNow slot i)
  | none => .next s

/-- The held array of a slot finds a row it waits for (R83). -/
def State.mayResume (s : State) (slot : Nat) : Bool :=
  let t := s.tile slot
  s.atWork slot && t.array.any (fun j => j.held) && decide (t.sqTaken < t.sq.length)

/-- `ARRAY_RESUME` (R83, R168). -/
def execArrayResume (slot : Nat) (s : State) : Host.Outcome State Fault Refusal :=
  if s.mayResume slot then
    let s := s.runTile slot resumeArray
    if (s.tile slot).array.any (fun j => j.held) then .next (s.markLate (regionOf slot) (s.feeders slot [4])) else .next s
  else .next s

/-- Rows of a pass put into the bank being written of its cluster's buffer, at their slice (R42, R77). -/
def State.putBufRows (s : State) (cluster base : Nat) (rows : List (Nat × Nat × List Nat)) : State :=
  let b := s.buf cluster
  if rows.isEmpty then s
  else s.putBuf cluster (b.setWrite (rows.foldl (fun m w => putRow m w.2.1 (base + w.1) w.2.2) b.write))

/-- The records of a committed pass (R210, R211). -/
def recordsOf (imageCluster : Nat) (blocks : List (Nat × List Byte)) : DWord :=
  blocks.foldl (fun d b => d ^^^ digestRec (blockIndex true imageCluster b.1) b.2) 0

/-- The pass in front of a slot's array may commit (R84). -/
def State.commitNow (s : State) (slot : Nat) : Bool := s.atWork slot && mayCommit (s.tile slot)

/-- A pass committed (R77, R84, R160, R210): the tile's part, the cluster buffer's rows and the digest. -/
def State.commit (s : State) (slot : Nat) : State :=
  let t := s.tile slot
  let o := (commitPass t).2
  let j := t.job.getD {}
  let s := s.runTile slot (fun t => (commitPass t).1)
  let s := s.putBufRows (slot / 9) j.sliceBase o.cb
  let s := s.addRecord (slot / 9) (recordsOf (j.tile / 8) o.blocks)
  if (s.tile slot).array.any (fun j => j.held) then s.markLate (regionOf slot) (s.feeders slot [4]) else s

/-- A change of a slot that an emergency makes, the rows its array had put out left in place (R84): how many those are is
time, so a free value. -/
def State.haltSlot (s : State) (slot : Nat) (f : Nat → Tile → Tile) : State :=
  if (s.tile slot).array.isEmpty then s.runTile slot (f 0)
  else
    let (v, s) := s.draw
    let t := s.tile slot
    let o := partialOut t v
    (s.runTile slot (f v)).putBufRows (slot / 9) (t.job.getD {}).sliceBase o.cb

/-- `PASS_COMMIT` (R83, R84, R168). -/
def execPassCommit (slot : Nat) (s : State) : Host.Outcome State Fault Refusal :=
  if s.commitNow slot then .next (s.commit slot) else .next s

/-- `COLUMN_RESULT_DELIVERY` (R77, R122). -/
def execColumnResultDelivery (slot : Nat) (s : State) : Host.Outcome State Fault Refusal :=
  if s.atWork slot && rowReady (s.tile slot) then .next (s.runTile slot deliverRow) else .next s

end Sys2Proof.Machine
end

