-- ==== Sys2Proof/Machine/Streams.lean ====
section
/-! DEFINITION. The events of the stream engines (06): grants, deliveries, the end of a ring and the stall watchdog. -/

namespace Sys2Proof.Machine

/-- A region's stream engine works: its clock is enabled and nothing holds the part's clocks (R382, R56). -/
def State.engineOn (s : State) (r : Nat) : Bool := decide (r < 64) && s.tilesRun && (s.gateOf r).getLsbD 5

/-- The streams eligible in one direction (R149, R165). -/
def State.candidates (s : State) (r : Nat) (out : Bool) : List Nat :=
  (List.range 32).filter (fun n => s.eligible r n && s.outbound r n == out)

/-- Every armed stream reports its time-to-empty (R166). -/
def State.reportTte (s : State) (r left : Nat) : State :=
  (List.range 32).foldl (fun s n =>
    if (s.stream r n).ring.isSome then
      let v := s.tteOf r n left
      s.setStream r n (fun x => { x with r := { x.r with tte := v } })
    else s) s

/-- A stream whose access a tier holds: the hold counts once as late data, and the tier's exit begins (R168, R198). -/
def State.holdStream (s : State) (r n a : Nat) : State :=
  let s := s.startExit a
  if (s.stream r n).kept then s
  else (s.markLate r [n]).setStream r n (fun x => { x with kept := true })

/-- The streams of a region whose next access reaches a tier in self-refresh (R198). -/
def State.holdStreams (s : State) (r : Nat) : State :=
  (List.range 32).foldl (fun s n =>
    match (s.nextBurst r n).1 with
    | .held a => s.holdStream r n a
    | _ => s) s

/-- One mesh cycle of a region's Sheepdog (R167). -/
def State.sheepdog (s : State) (r left : Nat) : State :=
  let s := (List.range 32).foldl (fun s n => s.skipRows r n) s
  let s := (s.reportTte r left).holdStreams r
  let tte := fun (n : Nat) => (s.stream r n).r.tte
  let ins := s.candidates r false
  let outs := s.candidates r true
  (s.grantPair r false tte ins).grantPair r true tte outs

/-- `SHEEPDOG_GRANT` (R165 to R167): one mesh cycle, `cyclesLeft` tile cycles before the next tick is due;
no grant while the clamp holds the region (R393). -/
def execSheepdogGrant (r cyclesLeft : Nat) (s : State) : Host.Outcome State Fault Refusal :=
  if s.engineOn r && !s.clamped r then .next (s.sheepdog r cyclesLeft) else .next s

/-- A stream's delivery: made, or held by its tier (R160, R198). -/
def State.deliverOrHold (s : State) (r n : Nat) : State :=
  match s.outHeld r n with
  | some a => s.holdStream r n a
  | none => if s.mayDeliver r n then s.deliver r n else s

/-- `BURST_DELIVERY` (R152 to R157, R160). -/
def execBurstDelivery (r n : Nat) (s : State) : Host.Outcome State Fault Refusal :=
  if s.engineOn r && decide (n < 32) then .next (s.deliverOrHold r n) else .next s

/-- The present ring of a stream complete (R146, R169): `DONE` set, the shadow present. -/
def State.completeRing (s : State) (r n : Nat) : State :=
  let seq := s.tick.armSeq
  let s := { s with tick := { s.tick with armSeq := seq + 1 } }
  let s := s.setStream r n (fun x => x.nextRing seq)
  s.raise (.strmStatus r n) 0x04000000

/-- `RING_COMPLETE` (R146, R169, R170). -/
def execRingComplete (r n : Nat) (s : State) : Host.Outcome State Fault Refusal :=
  if s.engineOn r && decide (n < 32) && (s.stream r n).ringDone then .next (s.completeRing r n) else .next s

/-- Of two streams, the one armed later (R171). -/
def State.laterArmed (s : State) (r : Nat) (a b : Nat) : Nat :=
  match (s.stream r a).ring, (s.stream r b).ring with
  | some g, some h => if g.tick < h.tick || (g.tick == h.tick && g.seq < h.seq) then b else a
  | none, some _ => b
  | _, none => a

/-- The stall watchdog acts on the streams whose fabric wait has reached the limit (R171, R172). -/
def State.watchdog (s : State) (r : Nat) : List Nat → State
  | [] => s
  | n :: rest =>
    let ns := n :: rest
    let victim := rest.foldl (s.laterArmed r) n
    let s := ns.foldl (fun s n =>
      let s := s.streamErr r n 0x40000000 (s.stream r n).dDesc
      s.setStream r n (fun x => { x with stallCnt := x.stallCnt + 1 })) s
    let s := s.streamErr r victim 0x20000000 (s.stream r victim).dDesc
    s.stopStream r victim 0xF

/-- The streams named that are in fabric wait (R171). -/
def State.stalled (s : State) (r : Nat) (reached : List Nat) : List Nat :=
  (List.range 32).filter (fun n => reached.contains n && s.fabricWait r n)

/-- `STALL_WATCHDOG` (R171, R172): `reached` names the streams whose fabric wait has come to 2 x P. -/
def execStallWatchdog (r : Nat) (reached : List Nat) (s : State) : Host.Outcome State Fault Refusal :=
  if s.engineOn r then .next (s.watchdog r (s.stalled r reached)) else .next s

end Sys2Proof.Machine
end

