-- ==== Sys2Proof/Machine/ImageOps.lean ====
section
/-! DEFINITION. The schedule image (02, 03, 06): its lists and tables, the checks that `LOAD_SCHEDULE` makes in the order
of R451, and memory admission and placement (R199, R200). -/

namespace Sys2Proof.Machine

/-- A failed check: status code, `DETAIL` and `SHORTFALL` (R284). -/
structure Fail where
  code : Nat
  detail : Nat := 0
  short : Nat := 0
  deriving DecidableEq, Repr

/-- A check that fails unless its condition holds. -/
def need (ok : Bool) (code : Nat) (detail : Nat := 0) : Option Fail := if ok then none else some { code, detail }

/-- `DETAIL` from its place code and value (R284). -/
def detailOf (place v : Nat) : Nat := place * 2 ^ 28 + v % 2 ^ 28

/-- The first failure among numbered checks. -/
def firstIn (n : Nat) (f : Nat → Option Fail) : Option Fail := (List.range n).findSome? f

/-- The first failure among the members of a list. -/
def firstOf {α : Type} (l : List α) (f : α → Option Fail) : Option Fail := l.findSome? f

/-- The offset and length of a section: 0 tick table, 1 passes, 2 tasks, 3 arms, 4 descriptors, 5 programs (R34). -/
def Image.sect (i : Image) (k : Nat) : Nat × Nat := (fld i.bytes (0x40 + 16 * k) 8, fld i.bytes (0x48 + 16 * k) 8)

/-- A tick-table entry (R36). -/
structure TickEnt where
  passFirst : Nat
  passCount : Nat
  taskFirst : Nat
  armFirst : Nat
  taskCount : Nat
  armCount : Nat
  tflags : Nat
  rsv : Nat
  cbBytes : Nat
  memUnits : Nat

/-- Tick-table entry `t` (R36). -/
def Image.tickEnt (i : Image) (t : Nat) : TickEnt :=
  let b := slice i.bytes ((i.sect 0).1 + 32 * t) 32
  { passFirst := fld b 0 4, passCount := fld b 4 4, taskFirst := fld b 8 4, armFirst := fld b 0xC 4,
    taskCount := fld b 0x10 2, armCount := fld b 0x12 2, tflags := fld b 0x14 2, rsv := fld b 0x16 2,
    cbBytes := fld b 0x18 4, memUnits := fld b 0x1C 4 }

/-- A pass-list entry (R37). -/
structure PassEnt where
  tile : Nat
  seq : Nat
  descOff : Nat
  budget : Nat
  ctx : Nat
  pflags : Nat
  rsv : Nat

/-- Pass-list entry `k` (R37). -/
def Image.passEnt (i : Image) (k : Nat) : PassEnt :=
  let b := slice i.bytes ((i.sect 1).1 + 16 * k) 16
  { tile := fld b 0 2, seq := fld b 2 2, descOff := fld b 4 4, budget := fld b 8 4, ctx := fld b 0xC 1,
    pflags := fld b 0xD 1, rsv := fld b 0xE 2 }

/-- The descriptor bytes of a pass entry (R80). -/
def Image.passDesc (i : Image) (p : PassEnt) : List Byte := slice i.bytes p.descOff 64

/-- A task-list entry (R38). -/
structure TaskEnt where
  tile : Nat
  ctx : Nat
  tkflags : Nat
  progAddr : Nat
  rsv : Nat
  budget : Nat
  arg : Nat

/-- Task-list entry `k` (R38). -/
def Image.taskEnt (i : Image) (k : Nat) : TaskEnt :=
  let b := slice i.bytes ((i.sect 2).1 + 16 * k) 16
  { tile := fld b 0 2, ctx := fld b 2 1, tkflags := fld b 3 1, progAddr := fld b 4 2, rsv := fld b 6 2,
    budget := fld b 8 4, arg := fld b 0xC 4 }

/-- An arm-list entry (R38). -/
structure ArmEnt where
  region : Nat
  stream : Nat
  rsv : Nat
  off : Nat
  count : Nat
  rsv2 : Nat

/-- Arm-list entry `k` (R38). -/
def Image.armEnt (i : Image) (k : Nat) : ArmEnt :=
  let b := slice i.bytes ((i.sect 3).1 + 16 * k) 16
  { region := fld b 0 1, stream := fld b 1 1, rsv := fld b 2 2, off := fld b 4 4, count := fld b 8 4,
    rsv2 := fld b 0xC 4 }

/-- Entries of a list section of 16-byte entries. -/
def Image.entries (i : Image) (k : Nat) : Nat := (i.sect k).2 / 16

/-- `FLAGS` (R34). -/
def Image.flags (i : Image) : Nat := fld i.bytes 0xC 4

/-- `CARRY` (R34). -/
def Image.carry (i : Image) : Bool := bitAt i.flags 0

/-- `FABRIC` (R34). -/
def Image.fabric (i : Image) : Bool := bitAt i.flags 2

/-- `SCHED_SEED` (R34). -/
def Image.schedSeed (i : Image) : Nat := fld i.bytes 0x18 8

/-- `FOLD_MASK` (R34). -/
def Image.foldMask (i : Image) : Nat := fld i.bytes 0x25 1

/-- `LT_COUNT` (R34). -/
def Image.tiles (i : Image) : Nat := fld i.bytes 0x26 2

/-- Image clusters, C_img (R40). -/
def Image.clusters (i : Image) : Nat := i.tiles / 8

/-- `STEP_TICKS` (R34). -/
def Image.stepTicks (i : Image) : Nat := fld i.bytes 0x28 4

/-- Image regions: 32 tiles each, the last perhaps fewer. -/
def Image.regions (i : Image) : Nat := ceilDiv i.tiles 32

/-- Tensors of the table (R158). -/
def Image.tensors (i : Image) : Nat := fld i.bytes (i.descSect + 4) 4

/-- The tensor table's place (R158). -/
def Image.ttOff (i : Image) : Nat := i.descSect + fld i.bytes i.descSect 4

/-- `BYTES` of a tensor (R158). -/
def Image.tBytes (i : Image) (t : Nat) : Nat := fld i.bytes (i.ttOff + 32 * t) 8

/-- `TKIND` of a tensor (R158). -/
def Image.tKind (i : Image) (t : Nat) : Nat := fld i.bytes (i.ttOff + 32 * t + 8) 1

/-- `ACCESS` of a tensor (R158). -/
def Image.tAccess (i : Image) (t : Nat) : Nat := fld i.bytes (i.ttOff + 32 * t + 0x10) 8

/-- A stream configuration entry: `RESERVE`, `SHARED_MAX`, `RATE` (R158). -/
def Image.sconf (i : Image) (key : Nat) : Nat × Nat × Nat :=
  let o := i.descSect + fld i.bytes (i.descSect + 8) 4 + 8 * key
  (fld i.bytes o 2, fld i.bytes (o + 2) 2, fld i.bytes (o + 4) 2)

/-- Stream descriptor `k` of an arm entry's ring (R147). -/
def Image.ringDesc (i : Image) (a : ArmEnt) (k : Nat) : SDesc :=
  parseSDesc (slice i.bytes (i.descSect + a.off + 64 * k) 64)

/-- The descriptors of an arm entry's ring. -/
def Image.ring (i : Image) (a : ArmEnt) : List SDesc := (List.range a.count).map (i.ringDesc a)

/-- The image clusters that a descriptor names (R159). -/
def SDesc.clusters (d : SDesc) : List Nat :=
  (if d.src = 1 then [d.srcUnit] else if d.src = 2 then [d.srcUnit / 8] else []) ++
    (if d.kind = 4 then [d.dstUnit] else if d.dst = 1 then [d.dstUnit]
    else if d.dst = 2 || d.dst = 4 || d.dst = 5 then [d.dstUnit / 8] else [])

/-- The image cluster a ring is hosted with (R159). -/
def Image.ringCluster (i : Image) (a : ArmEnt) : Nat :=
  ((i.ring a).flatMap (fun d => d.clusters)).headD (4 * a.region)

/-- The descriptor names a fabric port (R159). -/
def SDesc.namesPort (d : SDesc) : Bool := d.src == 3 || d.dst == 3 || d.idxPort

/-- Some range of one list meets some range of another. -/
def meetAny (a b : List (Nat × Nat)) : Bool := a.any (fun x => b.any (meet x))

/-- Step 2 of R451: the header fields in order of offset (R34), then body hash and signature (R422).
DESIGN CHOICE: the section fields at 0x040 to 0x09F are judged in step 3, so after the hash and the signature (log entry
56). -/
def Image.checkHeader (i : Image) (payLen tickNs : Nat) (key : Option (List Byte)) : Option Fail :=
  let b := i.bytes
  let at_ := fun (o : Nat) => detailOf 1 o
  need (fld b 0 4 == 0x4953514C) 0xA (at_ 0) <|> need (fld b 4 2 == 1) 0xA (at_ 4) <|>
  need (fld b 6 2 == 256) 2 (at_ 6) <|> need (fld b 8 2 == 1) 0xA (at_ 8) <|> need (fld b 0xA 2 == 0x3216) 0xA (at_ 0xA) <|>
  need (i.flags < 8) 2 (at_ 0xC) <|> need (fld b 0x10 8 == payLen) 0xB (at_ 0x10) <|>
  need (fld b 0x20 4 == tickNs) 6 (at_ 0x20) <|> need (fld b 0x24 1 ≤ 7) 2 (at_ 0x24) <|>
  need (bitAt i.foldMask 0) 6 (at_ 0x25) <|>
  need (i.tiles % 8 == 0 && decide (8 ≤ i.tiles) && decide (i.tiles ≤ 2048)) 2 (at_ 0x26) <|>
  need (decide (1 ≤ i.stepTicks) && decide (i.stepTicks ≤ 16777216)) 2 (at_ 0x28) <|>
  need (sha256 (b.drop 0x100) == slice b 0xA0 32) 9 (at_ 0xA0) <|>
  (match key with
  | none => none
  | some k => need (ecdsaVerify k (sha256 (b.take 0xC0)) (slice b 0xC0 64)) 9 (at_ 0xC0))

/-- Step 3 of R451: the section layout (R35).
DESIGN CHOICE: a pass, task or arm list whose length is no multiple of 16 is malformed (log entry 56). -/
def Image.checkLayout (i : Image) : Option Fail :=
  firstIn 6 (fun k =>
    let (o, n) := i.sect k
    let inside := n == 0 || (decide (0x100 ≤ o) && decide (o + n ≤ i.bytes.length))
    let apart := (List.range k).all (fun j => !meet (o, n) (i.sect j))
    let size := if k = 0 then n == 32 * i.stepTicks else if k = 5 then n % 8 == 0 && decide (n ≤ 65536)
      else if k = 4 then true else n % 16 == 0
    need (inside && apart && size) 2 (detailOf 1 (0x40 + 16 * k)))

/-- A range of list entries lies in its list (R453). -/
def rangeOk (first count len : Nat) : Bool := count == 0 || decide (first + count ≤ len)

/-- The pass-list indices that a tick names. -/
def Image.tickPasses (i : Image) (t : Nat) : List Nat :=
  (List.range (i.tickEnt t).passCount).map (fun k => (i.tickEnt t).passFirst + k)

/-- The task-list indices that a tick names. -/
def Image.tickTasks (i : Image) (t : Nat) : List Nat :=
  (List.range (i.tickEnt t).taskCount).map (fun k => (i.tickEnt t).taskFirst + k)

/-- The arm-list indices that a tick names. -/
def Image.tickArms (i : Image) (t : Nat) : List Nat :=
  (List.range (i.tickEnt t).armCount).map (fun k => (i.tickEnt t).armFirst + k)

/-- The ticks that name an index through one of the three lists of indices. -/
def Image.ticksWith (i : Image) (names : Nat → List Nat) (k : Nat) : List Nat :=
  (List.range i.stepTicks).filter (fun t => (names t).contains k)

/-- A pass entry follows the order of R37 in every tick that names it: by image tile, then by `SEQ` from 0. -/
def Image.passSorted (i : Image) (k : Nat) : Bool :=
  let p := i.passEnt k
  (i.ticksWith i.tickPasses k).all (fun t =>
    if k = (i.tickEnt t).passFirst then p.seq == 0
    else
      let q := i.passEnt (k - 1)
      if q.tile = p.tile then p.seq == q.seq + 1 else decide (q.tile < p.tile) && p.seq == 0)

/-- Step 4 of R451, the tick table and the three lists (R36 to R38, R114, R147, R453), section by section and by index.
DESIGN CHOICE: two ticks that name the same pass entry, or pass ranges that do not rise with the tick, make the list
unsorted by tick (log entry 56). -/
def Image.checkLists (i : Image) : Option Fail :=
  let np := i.entries 1
  let bad := fun (o : Nat) => detailOf 1 o
  let tOff := (i.sect 0).1
  (firstIn i.stepTicks (fun t =>
    let e := i.tickEnt t
    let prev := if t = 0 then 0 else
      (((List.range t).filter (fun u => (i.tickEnt u).passCount != 0)).getLast?.map
        (fun u => (i.tickEnt u).passFirst + (i.tickEnt u).passCount)).getD 0
    need (rangeOk e.passFirst e.passCount np && (e.passCount == 0 || decide (prev ≤ e.passFirst))) 2 (bad (tOff + 32 * t)) <|>
    need (rangeOk e.taskFirst e.taskCount (i.entries 2)) 2 (bad (tOff + 32 * t + 8)) <|>
    need (rangeOk e.armFirst e.armCount (i.entries 3)) 2 (bad (tOff + 32 * t + 0xC)) <|>
    need (decide (e.tflags < 4) && e.rsv == 0) 2 (bad (tOff + 32 * t + 0x14)))) <|>
  (firstIn np (fun k =>
    let p := i.passEnt k
    let (o, n) := i.sect 4
    need (decide (p.tile < i.tiles) && decide (p.ctx < 4) && decide (p.pflags < 2) && p.rsv == 0 && p.descOff % 64 == 0 &&
      decide (o ≤ p.descOff) && decide (p.descOff + 64 ≤ o + n) && i.passSorted k) 2 (detailOf 2 k))) <|>
  (firstIn (i.entries 2) (fun k =>
    let x := i.taskEnt k
    need (decide (x.tile < i.tiles) && decide (x.ctx < 4) && x.tkflags == 0 && decide (x.progAddr < 8192) && x.rsv == 0 &&
      decide (x.arg < 2 ^ 20)) 2 (bad ((i.sect 2).1 + 16 * k)))) <|>
  (firstIn (i.entries 3) (fun k =>
    let a := i.armEnt k
    need (decide (a.region < i.regions) && decide (a.stream < 32) && a.rsv == 0 && a.rsv2 == 0 && a.off % 64 == 0 &&
      decide (1 ≤ a.count) && decide (a.count ≤ 65536) && decide (a.off + 64 * a.count ≤ (i.sect 4).2)) 2 (detailOf 3 k)))

/-- Step 4 of R451, the descriptor section's header and tables (R158). -/
def Image.checkTables (i : Image) : Option Fail :=
  let (o, n) := i.sect 4
  let b := i.bytes
  need (64 ≤ n) 2 (detailOf 1 0x80) <|>
  need (fld b o 4 % 32 == 0 && decide (1 ≤ i.tensors) && decide (i.tensors ≤ 65535) &&
    decide (fld b o 4 + 32 * i.tensors ≤ n) && fld b (o + 8) 4 % 8 == 0 && fld b (o + 0xC) 4 == 32 * i.regions &&
    decide (fld b (o + 8) 4 + 8 * (32 * i.regions) ≤ n) && zeros b (o + 0x10) 48) 2 (detailOf 1 o) <|>
  (firstIn i.tensors (fun t =>
    let a := i.ttOff + 32 * t
    need (decide (1 ≤ i.tBytes t) && decide (i.tKind t < 3) && zeros b (a + 9) 7 && zeros b (a + 0x18) 8) 2 (detailOf 1 a))) <|>
  (firstIn (32 * i.regions) (fun k =>
    let a := o + fld b (o + 8) 4 + 8 * k
    need (decide ((i.sconf k).1 ≤ 16384) && zeros b (a + 6) 2) 2 (detailOf 1 a))) <|>
  (firstIn (i.entries 3) (fun k =>
    let a := i.armEnt k
    need ((i.sconf (32 * a.region + a.stream)).2.2 != 0) 2 (detailOf 3 k)))

/-- A format code that R86 defines. -/
def codeOk (c : Nat) : Bool := (Fmt.ofCode c).isSome

/-- The format of a pass descriptor (R80, R81, R86).
DESIGN CHOICE: the limit of `K_VALID` follows the pack factor of `FMT_B`, and 4 where that code has none (log entry 56). -/
def passFormatOk (b : List Byte) : Bool :=
  let d := parseDesc b
  let g := if d.convR = 0 then 0 else 32 / d.convR
  let pack := if d.pack = 0 then 4 else d.pack
  let conv := d.kind == 1
  d.kind != 3 && decide (fld b 0 1 < 64) && d.prec != 0 && codeOk d.fmtA && codeOk d.fmtB && codeOk d.fmtOut &&
    decide (fld b 4 1 < 3) && decide (fld b 5 1 < 64) && decide (1 ≤ d.m) && decide (d.m ≤ 512) &&
    (if d.kind = 2 then d.kValid == 0
     else decide (1 ≤ d.kValid) && decide (d.kValid ≤ (if conv then g * pack else 32 * pack))) &&
    decide (1 ≤ d.nValid) && decide (d.nValid ≤ 32) &&
    (if conv then decide (1 ≤ d.convR) && decide (d.convR ≤ 32) && decide (1 ≤ d.convS) && decide (d.convS ≤ 32) &&
       decide (2 * (d.m + d.convS - 1) ≤ d.aStride) && d.aStride % 2 == 0
     else d.convR == 0 && d.convS == 0 && d.aStride == 0) && zeros b 0x3E 2

/-- The index fields of a stream descriptor are as R153 allows. -/
def SDesc.indicesOk (d : SDesc) (tensors : Nat) : Bool :=
  let byTensor := !d.idxPort && d.idxPortNum == 0 && decide (d.idxTensor < tensors) && d.idxOff % 4 == 0
  let byPort := d.idxPort && d.idxTensor == 0xFFFF && d.idxOff == 0 && decide (d.idxPortNum < 8)
  let none_ := !d.idxPort && d.idxTensor == 0xFFFF && d.idxPortNum == 0 && d.idxOff == 0 && d.idxLimit == 0
  if d.kind = 1 || d.kind = 2 then byTensor || byPort
  else if d.kind = 3 then byTensor || byPort || none_ else none_

/-- A unit of a stream descriptor's end lies in its range (R150). -/
def unitOk (place unit tiles : Nat) (asCluster : Bool) : Bool :=
  if place = 0 then unit == 0 else if place = 1 || asCluster then decide (unit < tiles / 8)
  else if place = 3 then decide (unit < 8) else decide (unit < tiles)

/-- The format of a stream descriptor (R150, R151, R153, R155, R156). -/
def streamFormatOk (i : Image) (b : List Byte) : Bool :=
  let d := parseSDesc b
  let nt := i.tensors
  let bits := 4 * 2 ^ d.tEsize
  decide (d.kind < 6) && decide (fld b 1 1 < 16) && decide (d.src < 4) && decide (d.dst < 6) &&
    unitOk d.src d.srcUnit i.tiles false && unitOk d.dst d.dstUnit i.tiles (d.kind == 4) &&
    (if d.src = 0 then decide (d.srcTensor < nt) else d.srcTensor == 0xFFFF) &&
    (if d.dst = 0 then decide (d.dstTensor < nt) else d.dstTensor == 0xFFFF) &&
    d.rowBytes % 8 == 0 && decide (8 ≤ d.rowBytes) && decide (d.rowBytes ≤ 8192) && (d.kind != 5 || d.rowBytes == 64) &&
    decide (d.srcOff < 2 ^ 48) && decide (1 ≤ d.rows) && decide (d.rows ≤ 16777216) && d.indicesOk nt &&
    (d.kind == 4 || d.bcast == 0) &&
    (if d.kind = 3 then decide (d.tEsize < 4) && (d.tPack == 1 || d.tPack == 2 || d.tPack == 4) &&
       decide (d.rows * d.rowBytes ≤ 32768) && d.rowBytes * 8 / bits % d.tPack == 0 &&
       d.rows * d.tPack * bits % 64 == 0 && decide (d.outRowBytes ≤ 8192)
     else d.tEsize == 0 && d.tPack == 0) &&
    (!d.widen || d.src == 0) && (!d.narrow || (d.dst == 0 && d.rowBytes % 32 == 0)) && !(d.widen && d.narrow) &&
    zeros b 0x3E 2

/-- Step 4 of R451, pass descriptors and then stream descriptors. -/
def Image.checkDescs (i : Image) : Option Fail :=
  (firstIn (i.entries 1) (fun k => need (passFormatOk (i.passDesc (i.passEnt k))) 2 (detailOf 2 k))) <|>
  (firstIn (i.entries 3) (fun k =>
    let a := i.armEnt k
    firstIn a.count (fun j => need (streamFormatOk i (slice i.bytes (i.descSect + a.off + 64 * j) 64)) 2 (detailOf 3 k))))

/-- Tile clock of an operating point in MHz (R389). -/
def opMhz (op : Nat) : Nat := [400, 550, 700, 850, 1000, 1150, 1300, 1400].getD op 1400

/-- Refresh stalls that a tick of `ns` may hold (02). -/
def refreshesIn (ns : Nat) : Nat := ns / 3900 + 1

/-- A tile's budget in a tick (R39). -/
def Image.tileBudget (i : Image) (t tile : Nat) : Nat :=
  (((i.tickPasses t).filter (fun k => (i.passEnt k).tile == tile)).map (fun k => (i.passEnt k).budget)).foldl (· + ·) 0 +
    (((i.tickTasks t).filter (fun k => (i.taskEnt k).tile == tile)).map (fun k => (i.taskEnt k).budget)).foldl (· + ·) 0

/-- The limit U of R39, which is below 0 where the deductions exceed the tick. -/
def Image.memLimit (i : Image) : Int :=
  let ns := fld i.bytes 0x20 4
  ((((ns : Int) - (refreshesIn ns * 410 : Nat)) * 1280) - (fld i.bytes 0x2C 4 : Nat)).fdiv 256

/-- Step 5 of R451: memory units and tile budgets (R39). -/
def Image.checkBudgets (i : Image) : Option Fail :=
  let limit := fld i.bytes 0x20 4 * opMhz (fld i.bytes 0x24 1) / 1000 - 256
  let keeps := fun (names : Nat → List Nat) (tile k : Nat) =>
    (i.ticksWith names k).all (fun t => decide (i.tileBudget t tile ≤ limit))
  (firstIn i.stepTicks (fun t =>
    need (((i.tickEnt t).memUnits : Int) ≤ i.memLimit) 6 (detailOf 1 ((i.sect 0).1 + 32 * t + 0x1C)))) <|>
  (firstIn (i.entries 1) (fun k => need (keeps i.tickPasses (i.passEnt k).tile k) 6 (detailOf 2 k))) <|>
  (firstIn (i.entries 2) (fun k => need (keeps i.tickTasks (i.taskEnt k).tile k) 6))

/-- Bytes of an output row in the operand store or the cluster buffer (R77). -/
def PDesc.outRow (d : PDesc) : Nat := (d.nValid * (fmtOf d.fmtOut).bits + 7) / 8

/-- Planes of a descriptor (R75). -/
def PDesc.planes (d : PDesc) : Nat := 1 + d.cplx

/-- The bytes from `OUT_ADDR` that the output rows and their scales take (R77). -/
def PDesc.outSpan (d : PDesc) : List (Nat × Nat) :=
  [(d.outAddr, (d.planes * d.m - 1) * d.outStride + d.outRow)] ++
    (if (fmtOf d.fmtOut).isMx then [(d.outAddr + d.planes * (d.m * d.outStride), d.planes * d.m)] else [])

/-- The operand-store ranges that a descriptor writes (R81). -/
def PDesc.writes (d : PDesc) : List (Nat × Nat) :=
  (if d.dest = 0 || d.accWr then [(d.accOut, d.planes * (d.m * 256))] else []) ++ (if d.dest = 1 then d.outSpan else [])

/-- The operand-store ranges that a descriptor reads (R61, R66, R69, R75). -/
def PDesc.reads (d : PDesc) : List (Nat × Nat) :=
  if d.kind = 2 then [(d.accIn, d.planes * (d.m * 256)), (d.bAddr, d.planes * (d.m * 256))]
  else
    let units := ceilDiv d.kValid (if d.pack = 0 then 1 else d.pack)
    (if d.aQueue then [] else if d.kind = 1 then
       [(d.aAddr, (units * (d.nValid + d.convR - 1) - 1) * d.aStride + 2 * (d.m + d.convS - 1))]
     else [(d.aAddr, d.planes * (d.m * d.aRow))]) ++
    (if d.bQueue then [] else [(d.bAddr, d.planes * d.bBlock)]) ++
    (if d.chain then [(d.accIn, d.planes * (d.m * 256))] else []) ++
    (if d.mx then [(d.scaleA, d.planes * (d.m * d.nb)), (d.scaleB, d.planes * (32 * d.nb))] else [])

/-- The pairing of a descriptor's operands is one that R60, R66 and R74 allow. -/
def PDesc.pairOk (d : PDesc) : Bool :=
  let a := fmtOf d.fmtA
  let b := fmtOf d.fmtB
  let operand := fun (f : Fmt) => f != .none && f != .wa48
  if d.kind = 2 then d.fmtA == 0 && d.fmtB == 0
  else
    operand a && operand b && a.cls == b.cls && a.isInt == b.isInt && a.isMx == b.isMx &&
      (if d.prec = 1 then a != .fp32 && b != .fp32 else if d.prec = 2 then a == .fp32 && b == .bf16
       else a == .fp32 && b == .fp32) &&
      (d.kind != 1 || (d.cplx == 0 && d.prec == 1 && !a.isMx && !d.chain && !d.aQueue))

/-- A pass descriptor that can run (R81): `last` before a combine, idle or the end of the list. -/
def PDesc.feasible (d : PDesc) (budget : Nat) (last : Bool) : Bool :=
  let store := fun (l : List (Nat × Nat)) => l.all (fun x => decide (x.1 + x.2 ≤ 0x80000))
  d.pairOk && (d.mx == (d.kind != 2 && (fmtOf d.fmtA).isMx && (fmtOf d.fmtB).isMx)) &&
    (d.kind != 2 || (!d.mx && !d.aQueue && !d.bQueue)) &&
    (!(d.dest == 1 || d.dest == 2) || fmtOf d.fmtOut != .none) &&
    (d.subPasses == 1 || (!d.aQueue && !d.bQueue)) && store d.reads && store d.writes &&
    (d.dest != 2 || d.outSpan.all (fun x => decide (x.1 + x.2 ≤ 0x1600000))) &&
    decide ((if last then d.costLast else d.cost) ≤ budget) && !meetAny d.writes d.reads &&
    (d.dest != 3 || d.accWr)

/-- The place of a descriptor's source or destination rows: first byte, stride, count, row length; `none` where indices
name them. -/
def SDesc.srcRows (d : SDesc) : Option (Nat × Nat × Nat × Nat) :=
  if d.usesIdx && d.kind ≠ 2 then none else some (d.srcOff, d.srcStride, d.rows, d.srcRow)

/-- As `srcRows`, for the destination. -/
def SDesc.dstRows (d : SDesc) : Option (Nat × Nat × Nat × Nat) :=
  if d.kind = 2 then none
  else if d.kind = 3 then some (d.dstOff, d.dstStride, d.outRows, d.outRowBytes)
  else some (d.dstOff, d.dstStride, d.rows, d.dstRow)

/-- Rows end at most at a limit. -/
def rowsFit (limit : Nat) (x : Nat × Nat × Nat × Nat) : Bool := decide (x.1 + (x.2.2.1 - 1) * x.2.1 + x.2.2.2 ≤ limit)

/-- The byte span of rows. -/
def rowsSpan (x : Nat × Nat × Nat × Nat) : Nat × Nat := (x.1, (x.2.2.1 - 1) * x.2.1 + x.2.2.2)

/-- Two sets of rows share a byte. -/
def rowsMeet (a b : Nat × Nat × Nat × Nat) : Bool :=
  meet (rowsSpan a) (rowsSpan b) &&
    (List.range a.2.2.1).any (fun k => (List.range b.2.2.1).any (fun j =>
      meet (a.1 + k * a.2.1, a.2.2.2) (b.1 + j * b.2.1, b.2.2.2)))

/-- Sources and destinations that a kind allows (R152). -/
def SDesc.endsOk (d : SDesc) : Bool :=
  let s := d.src
  let t := d.dst
  match d.kind with
  | 0 => s != 3 && t != 3
  | 1 => decide (s < 2)
  | 2 => decide (t < 2)
  | 3 => decide (s < 2) && (t == 1 || t == 2 || t == 4 || t == 5)
  | 4 => decide (s < 2) && (t == 4 || t == 5)
  | _ => (s == 3 && decide (t < 3)) || (decide (s < 3) && t == 3)

/-- A stream descriptor that can run (R151, R152, R162). -/
def SDesc.feasible (d : SDesc) (i : Image) : Bool :=
  let lim := fun (place tensor : Nat) => if place = 0 then i.tBytes tensor else if place = 1 then 0x1600000 else 0x80000
  let fits := fun (place tensor : Nat) (rows : Option (Nat × Nat × Nat × Nat)) (off stride len : Nat) =>
    if 3 ≤ place then true
    else match rows with
      | some x => rowsFit (lim place tensor) x
      | none => d.idxLimit == 0 || decide (off + (d.idxLimit - 1) * stride + len ≤ lim place tensor)
  d.endsOk && fits d.src d.srcTensor d.srcRows d.srcOff d.srcStride d.srcRow &&
    fits d.dst d.dstTensor d.dstRows d.dstOff d.dstStride d.dstRow &&
    (!d.usesIdx || d.idxPort || decide (d.idxOff + 4 * d.rows ≤ i.tBytes d.idxTensor)) &&
    (d.dst < 4 || d.delivers * (if d.kind = 3 then d.outRowBytes else d.dstRow) % 64 == 0)

/-- Some pass of a tile in a tick writes in the span of a descriptor's rows; with `reads`, or reads there without waiting
for the tick's rings (R32, R161).
DESIGN CHOICE: rows with a stride and a pass's output rows count as the whole span from their first byte to their last
(log entry 56). -/
def Image.passHits (i : Image) (t tile : Nat) (rows : Option (Nat × Nat × Nat × Nat)) (reads : Bool) : Bool :=
  match rows with
  | none => false
  | some x => ((i.tickPasses t).map i.passEnt).any (fun p => p.tile == tile &&
      (let q := parseDesc (i.passDesc p)
      q.writes.any (meet (rowsSpan x)) || (reads && !bitAt p.pflags 0 && q.reads.any (meet (rowsSpan x)))))

/-- The descriptor hands bytes to a logical tile other than `tile`. -/
def SDesc.feedsOther (d : SDesc) (tile : Nat) : Bool :=
  if d.kind = 4 then (List.range 8).any (fun n => bitAt d.bcast n && 8 * d.dstUnit + n != tile)
  else (d.dst == 2 || d.dst == 4 || d.dst == 5) && d.dstUnit != tile

/-- Step 7 of R451: an arm entry whose ring hands a tile what another tile's pass writes in the same tick (R32). -/
def Image.crossAt (i : Image) (k : Nat) : Option Fail :=
  firstOf (i.ticksWith i.tickArms k) (fun t =>
    firstOf (i.ring (i.armEnt k)) (fun d =>
      need (!(d.src == 2 && d.feedsOther d.srcUnit && i.passHits t d.srcUnit d.srcRows false)) 6 (detailOf 3 k)))

/-- Step 7 of R451 (R32). -/
def Image.checkRaces (i : Image) : Option Fail := firstIn (i.entries 3) i.crossAt

/-- The rows a descriptor reads (`write` false) or writes, each with its place: 0 for a tensor of device memory, with the
index list; 2 for a tile's operand store. -/
def SDesc.touches (d : SDesc) (write : Bool) : List ((Nat × Nat) × (Nat × Nat × Nat × Nat)) :=
  let at_ := fun (place tensor unit : Nat) (rows : Option (Nat × Nat × Nat × Nat)) =>
    if place = 0 then (rows.map (fun x => ((0, tensor), x))).toList
    else if place = 2 then (rows.map (fun x => ((2, unit), x))).toList else []
  if write then at_ d.dst d.dstTensor d.dstUnit d.dstRows
  else at_ d.src d.srcTensor d.srcUnit d.srcRows ++
    (if d.usesIdx && !d.idxPort then [((0, d.idxTensor), (d.idxOff, 4 * d.rows, 1, 4 * d.rows))] else [])

/-- Two arm entries arm the same image stream. -/
def ArmEnt.same (a b : ArmEnt) : Bool := a.region == b.region && a.stream == b.stream

/-- An arm entry keeps R161 in a tick where that shows statically: its ring reads or writes no operand-store range that
a pass of the tile writes, writes none that a pass reads without waiting, and reads no byte of device memory or of an
operand store that another stream writes (R206). -/
def Image.visibleAt (i : Image) (t k : Nat) : Bool :=
  let a := i.armEnt k
  (i.ring a).all (fun d =>
    !(d.src == 2 && i.passHits t d.srcUnit d.srcRows false) && !(d.dst == 2 && i.passHits t d.dstUnit d.dstRows true)) &&
  (i.tickArms t).all (fun j =>
    a.same (i.armEnt j) || !((i.ring a).flatMap (fun d => d.touches false)).any (fun x =>
      ((i.ring (i.armEnt j)).flatMap (fun d => d.touches true)).any (fun y => x.1 == y.1 && rowsMeet x.2 y.2)))

/-- What is left of a range when another is taken out of it. -/
def cutOut (x v : Nat × Nat) : List (Nat × Nat) :=
  if meet x v then [(x.1, v.1 - x.1), (v.1 + v.2, x.1 + x.2 - (v.1 + v.2))].filter (fun r => 0 < r.2) else [x]

/-- Some byte of `x` lies in `w` and in none of `done`: read before it is written. -/
def readFirst (x w : Nat × Nat) (done : List (Nat × Nat)) : Bool :=
  let lo := Nat.max x.1 w.1
  let hi := Nat.min (x.1 + x.2) (w.1 + w.2)
  meet x w && !(done.foldl (fun rest v => rest.flatMap (fun r => cutOut r v)) [(lo, hi - lo)]).isEmpty

/-- Rows as single ranges. -/
def rowList (x : Nat × Nat × Nat × Nat) : List (Nat × Nat) := (List.range x.2.2.1).map (fun k => (x.1 + k * x.2.1, x.2.2.2))

/-- The operand-store ranges that a descriptor writes, row by row. -/
def PDesc.writeRows (d : PDesc) : List (Nat × Nat) :=
  (if d.dest = 0 || d.accWr then [(d.accOut, d.planes * (d.m * 256))] else []) ++
    (if d.dest = 1 then rowList (d.outAddr, d.outStride, d.planes * d.m, d.outRow) ++ d.outSpan.drop 1 else [])

/-- In shadow mode no tick has a pass of the tile write a byte of the operand store that pass `k` read before any pass
wrote it (R335). -/
def Image.passReruns (i : Image) (k : Nat) : Bool :=
  (i.ticksWith i.tickPasses k).all (fun t =>
    let p := i.passEnt k
    let mine := (i.tickPasses t).filter (fun j => (i.passEnt j).tile == p.tile)
    let writes := fun (js : List Nat) => js.flatMap (fun j => (parseDesc (i.passDesc (i.passEnt j))).writeRows)
    let before := writes (mine.filter (fun j => decide ((i.passEnt j).seq < p.seq)))
    let after := writes (mine.filter (fun j => decide (p.seq < (i.passEnt j).seq)))
    (parseDesc (i.passDesc p)).reads.all (fun x => after.all (fun w => !readFirst x w before)))

/-- In shadow mode the rings of one stream in a tick, in ring order, write no byte of device memory or of an operand store
that a descriptor read before any descriptor it waits for by `FENCE` wrote it (R157, R335). -/
def ringReruns (ds : List SDesc) : Bool :=
  (List.range ds.length).all (fun n =>
    let fence := ((List.range (n + 1)).filter (fun m => (ds.drop m).head?.any (fun d => d.fence))).getLast?.getD 0
    let cells := fun (place : Nat × Nat) (es : List SDesc) =>
      ((es.flatMap (fun e => e.touches true)).filter (fun y => y.1 == place)).flatMap (fun y => rowList y.2)
    ((ds.drop n).head?.toList.flatMap (fun d => d.touches false)).all (fun x =>
      let before := cells x.1 (ds.take fence)
      let after := cells x.1 (ds.drop fence)
      after.all (fun w => (rowList x.2).all (fun y => !readFirst y w before))))

/-- As `ringReruns`, for the stream that arm entry `k` arms, in every tick that names the entry (R335). -/
def Image.armReruns (i : Image) (k : Nat) : Bool :=
  (i.ticksWith i.tickArms k).all (fun t =>
    ringReruns (((i.tickArms t).filter (fun j => (i.armEnt j).same (i.armEnt k))).flatMap (fun j => i.ring (i.armEnt j))))

/-- The check of R335. -/
def Image.checkReruns (i : Image) : Option Fail :=
  (firstIn (i.entries 1) (fun k => need (i.passReruns k) 6 (detailOf 2 k))) <|>
  (firstIn (i.entries 3) (fun k => need (i.armReruns k) 6 (detailOf 3 k)))

/-- The region that hosts a ring under a list of live clusters (R40, R159). -/
def Image.hostOf (i : Image) (live : List Nat) (a : ArmEnt) : Nat := live.getD (i.ringCluster a % live.length) 0 / 4

/-- Step 8 of R451 after the fold and the first binding, under the placement on the clusters `live`: each section in the
order of R34, an entry with the descriptor or the ring it names.
DESIGN CHOICE: a pass-list entry that no tick names is held to the budget of a last pass (log entry 56). -/
def Image.checkRest (i : Image) (shadow : Bool) (live : List Nat) : Option Fail :=
  (firstIn i.stepTicks (fun t =>
    need ((i.tickEnt t).cbBytes ≤ 0x1600000) 6 (detailOf 1 ((i.sect 0).1 + 32 * t + 0x18)))) <|>
  (firstIn (i.entries 1) (fun k =>
    let p := i.passEnt k
    let next := ((List.range i.stepTicks).filter (fun t => (i.tickPasses t).contains k && (i.tickPasses t).contains (k + 1)
      && (i.passEnt (k + 1)).tile == p.tile))
    let last := next.isEmpty || (parseDesc (i.passDesc (i.passEnt (k + 1)))).kind == 2
    let d := parseDesc (i.passDesc p)
    let later := (i.ticksWith i.tickPasses k).flatMap (fun t =>
      (i.tickPasses t).filter (fun j => (i.passEnt j).tile == p.tile && decide (p.seq < (i.passEnt j).seq)))
    need (d.feasible p.budget last) 6 (detailOf 2 k) <|>
    need (d.dest != 3 || !later.any (fun j =>
      (parseDesc (i.passDesc (i.passEnt j))).writes.any (meet (d.accOut, d.planes * (d.m * 256))))) 6 (detailOf 2 k))) <|>
  (firstIn (i.entries 2) (fun k =>
    let x := i.taskEnt k
    need ((i.ticksWith i.tickTasks k).all (fun t =>
      decide (((i.tickTasks t).filter (fun j => (i.taskEnt j).tile == x.tile && (i.taskEnt j).ctx == x.ctx)).length ≤ 1))) 6)) <|>
  (firstIn (i.entries 3) (fun k =>
    let a := i.armEnt k
    let ds := i.ring a
    let cs := ds.flatMap (fun d => d.clusters)
    let rsv := (i.sconf (32 * a.region + a.stream)).1
    let uses := fun (b : ArmEnt) (tx : Bool) (p : Nat) => (i.ring b).any (fun d =>
      if tx then (d.src == 3 && d.srcUnit == p) || (d.idxPort && d.idxPortNum == p) else d.dst == 3 && d.dstUnit == p)
    let host := i.hostOf live a
    need ((i.ticksWith i.tickArms k).all (fun t =>
      decide (((i.tickArms t).filter (fun j => (i.armEnt j).same a)).length ≤ 2))) 6 (detailOf 3 k) <|>
    need ((i.ticksWith i.tickArms k).all (fun t => i.visibleAt t k)) 6 (detailOf 3 k) <|>
    need (ds.all (fun d => d.feasible i)) 6 (detailOf 3 k) <|>
    need (cs.all (fun c => c == cs.headD 0)) 6 (detailOf 3 k) <|>
    need (1 ≤ rsv) 6 (detailOf 3 k) <|>
    need (ds.all (fun d => d.kind != 3 || decide (d.rows * d.perRow ≤ rsv))) 6 (detailOf 3 k) <|>
    (firstIn 8 (fun p => firstOf [true, false] (fun tx =>
      let others := (List.range (i.entries 3)).filter (fun j =>
        let b := i.armEnt j
        i.hostOf live b == host && uses b tx p)
      if uses a tx p then
        need (others.all (fun j => (i.armEnt j).region == a.region && (i.armEnt j).stream == a.stream) &&
          !(tx && others.any (fun j => (i.ring (i.armEnt j)).any (fun d => d.src == 3 && d.srcUnit == p)) &&
            others.any (fun j => (i.ring (i.armEnt j)).any (fun d => d.idxPort && d.idxPortNum == p)))) 6 (detailOf 3 k)
      else none))))) <|>
  (if shadow then i.checkReruns else none)

/-- The (image region, stream) pairs that an image binds on the engine of one region, for the image clusters hosted
there (R147, R159). -/
def Image.boundOn (i : Image) (live : List Nat) (r : Nat) : List Nat :=
  (((List.range (i.entries 3)).filter (fun k =>
    !live.isEmpty && live.getD (i.ringCluster (i.armEnt k) % live.length) 0 / 4 == r)).map (fun k =>
      32 * (i.armEnt k).region + (i.armEnt k).stream)).eraseDups

/-- A binding fits the engines' streams and staging pools (R147, R163). -/
def Image.bindingFits (i : Image) (live : List Nat) : Bool :=
  (List.range 64).all (fun r =>
    let ks := i.boundOn live r
    decide (ks.length ≤ 32) && decide ((ks.map (fun k => (i.sconf k).1)).foldl (· + ·) 0 ≤ 16384))

/-- Every ring that names a port stays in the region it had at `LOAD_SCHEDULE`, for an image with `FABRIC` set (R159). -/
def Image.homesKept (i : Image) (live : List Nat) : Bool :=
  !i.fabric || i.homes.all (fun p => !live.isEmpty && live.getD (p.1 % live.length) 0 / 4 == p.2)

/-- The arm entries whose rings name ports. -/
def Image.portRings (i : Image) : List Nat :=
  (List.range (i.entries 3)).filter (fun k => (i.ring (i.armEnt k)).any (fun d => d.namesPort))

/-- The image clusters of rings that name ports, each with the region hosting it (R159). -/
def Image.portHomes (i : Image) (live : List Nat) : List (Nat × Nat) :=
  if live.isEmpty then [] else
    (i.portRings.map (fun k => (i.ringCluster (i.armEnt k), i.hostOf live (i.armEnt k)))).eraseDups

/-- The fabric regions whose ports the image names, under a placement (R261). -/
def Image.portsNamed (i : Image) (live : List Nat) : List Nat :=
  if live.isEmpty then [] else (i.portRings.map (fun k => i.hostOf live (i.armEnt k))).eraseDups

/-- The fabric regions whose ports some tick of the image arms a ring on, under a placement (R261, R269). -/
def Image.portsArmed (i : Image) (live : List Nat) : List Nat :=
  if live.isEmpty then [] else
    ((i.portRings.filter (fun k => !(i.ticksWith i.tickArms k).isEmpty)).map (fun k => i.hostOf live (i.armEnt k))).eraseDups

/-- A fold is feasible for an image (R40, R147, R159, R163). -/
def Image.foldOk (i : Image) (live : List Nat) : Bool :=
  let f := foldOf i.clusters live.length
  decide (1 ≤ f) && decide (f ≤ 8) && bitAt i.foldMask (f - 1) && i.bindingFits live && i.homesKept live

/-- The ranges of device memory that a session uses: allocations, placed tensors and a replay's copies (R199). -/
def Sess.occupied (x : Sess) : List (Nat × Nat) :=
  x.allocs.map (fun a => (a.addr, a.size)) ++
  x.images.flatMap (fun p =>
    (((List.range p.2.tensors).filter (fun t => p.2.tKind t < 2)).map (fun t => (look 0 p.2.place t, up64k (p.2.tBytes t))))) ++
  (match x.running with
  | none => []
  | some run => (match run.item.replay with
    | none => []
    | some q => q.copies.map (fun p => (p.2 - 1, up64k ((look {} x.images run.item.image).tBytes p.1)))))

/-- What the partner has of the memory in checkpoint mode (R348): its own sessions' at the primary, the standby copy's at
the secondary. -/
def State.pairOccupied (s : State) : List (Nat × Nat) :=
  if s.pair.mode = 2 ∧ s.pair.formed then s.pair.theirOcc ++ s.pair.standby.flatMap (fun c => c.sess.occupied) else []

/-- Every range of device memory in use (R199, R348). -/
def State.occupied (s : State) : List (Nat × Nat) := s.sess.flatMap Sess.occupied ++ s.pairOccupied

/-- The bounds of a tier outside the reserve (R186): false HBM, true LPDDR5X. -/
def State.tierBounds (s : State) (lp : Bool) : Nat × Nat := if lp then (lpBase, s.lpLimit) else (0, hbmLimit)

/-- Free bytes of a tier outside the reserve (R199, R299). -/
def State.tierFree (s : State) (lp : Bool) (occ : List (Nat × Nat)) : Nat :=
  let (lo, hi) := s.tierBounds lp
  (hi - lo) - ((occ.filter (fun x => decide (lo ≤ x.1) && decide (x.1 < hi))).map (fun x => x.2)).foldl (· + ·) 0

/-- The lowest free 64 KiB-aligned range of a tier that holds `n` bytes (R200, R302). -/
def State.lowestFree (s : State) (lp : Bool) (n : Nat) (occ : List (Nat × Nat)) : Option Nat :=
  let (lo, hi) := s.tierBounds lp
  let ends := lo :: occ.map (fun x => up64k (x.1 + x.2))
  let ok := ends.filter (fun a => decide (lo ≤ a) && decide (a + n ≤ hi) && !occ.any (meet (a, n)))
  match ok with
  | [] => none
  | a :: r => some (r.foldl Nat.min a)

/-- Tensors in the order of placement (R200): working memory, then weights, each by intensity, then by index. -/
def Image.placeOrder (i : Image) : List Nat :=
  let before := fun (a b : Nat) =>
    let x := i.tAccess a * up64k (i.tBytes b)
    let y := i.tAccess b * up64k (i.tBytes a)
    decide (y < x) || (x == y && decide (a < b))
  let sorted := fun (k : Nat) =>
    ((List.range i.tensors).filter (fun t => i.tKind t == k)).mergeSort (fun a b => before a b || !before b a)
  sorted 1 ++ sorted 0

/-- Tensors placed in turn (R200): HBM first, then LPDDR5X; none when one fits nowhere. -/
def State.placeAll (s : State) (i : Image) : List Nat → List (Nat × Nat) → Tab Nat → Option (Tab Nat)
  | [], _, p => some p
  | t :: r, occ, p =>
    let n := up64k (i.tBytes t)
    match s.lowestFree false n occ with
    | some a => s.placeAll i r ((a, n) :: occ) (put 0 p t a)
    | none =>
      match s.lowestFree true n occ with
      | some a => s.placeAll i r ((a, n) :: occ) (put 0 p t a)
      | none => none

/-- Memory admission (R199) and placement (R200): where each tensor goes, or the failure. -/
def State.admission (s : State) (i : Image) : Except Fail (Tab Nat) :=
  let sum := fun (k : Nat) =>
    (((List.range i.tensors).filter (fun t => i.tKind t == k)).map i.tBytes).foldl (· + ·) 0
  let d := (((List.range i.tensors).filter (fun t => i.tKind t < 2)).map (fun t => up64k (i.tBytes t))).foldl (· + ·) 0
  let occ := s.occupied
  let free := s.tierFree false occ + s.tierFree true occ
  if sum 0 ≠ fld i.bytes 0x30 8 then .error { code := 2, detail := detailOf 1 0x30 }
  else if sum 1 ≠ fld i.bytes 0x38 8 then .error { code := 2, detail := detailOf 1 0x38 }
  else if d > free then .error { code := 5, short := d - free }
  else match s.placeAll i i.placeOrder occ [] with
    | some p => .ok p
    | none => .error { code := 5 }

/-- Every placed tensor's range zeroed (R200), for the command of a mailbox. -/
def State.zeroPlaced (s : State) (i : Image) (p : Tab Nat) (mb : Nat) : State :=
  ((List.range i.tensors).filter (fun t => i.tKind t < 2)).foldl
    (fun s t => s.devZero (look 0 p t) (up64k (i.tBytes t)) (some mb)) s

/-- The mirroring reserve of the package's pair mode (R33, R328), for `gbps` of the settings.
DESIGN CHOICE: a part whose pair mode is not 0 counts as paired also while it is alone or out of pair service (log entry
56). -/
def State.mirrorReserve (s : State) : Nat :=
  if s.pair.mode = 0 then 0 else
    let g := fld s.dev.settings 0x1C 2
    256 * ceilDiv (g * s.tickNs) 4096

/-- Where firmware puts a session's copy of a descriptor section (R147), from a free value: the spec says no more than
device memory (log entry 57). -/
def State.descPlace (s : State) (v : Nat) : Nat :=
  let lp := if s.dev.stage < 2 then 0 else s.lpLimit - lpBase
  let k := v % (hbmLimit + lp) / 64 * 64
  if k < hbmLimit then k else lpBase + (k - hbmLimit)

/-- Steps 1 to 8 of R451 for a payload. -/
def State.checkImage (s : State) (i : Image) (payLen : Nat) (live : List Nat) : Option Fail :=
  need (256 ≤ payLen) 0xB <|>
  i.checkHeader payLen s.tickNs s.operKey <|> i.checkLayout <|> i.checkLists <|> i.checkTables <|> i.checkDescs <|>
  i.checkBudgets <|> need (s.mirrorReserve ≤ fld i.bytes 0x2C 4) 6 (detailOf 1 0x2C) <|> i.checkRaces <|>
  need (i.foldOk live) 6 (detailOf 1 0x25) <|>
  (firstIn i.regions (fun k =>
    need (((List.range 32).map (fun n => (i.sconf (32 * k + n)).1)).foldl (· + ·) 0 ≤ 16384) 6)) <|>
  i.checkRest (s.pair.formed && s.pair.mode == 1) live

end Sys2Proof.Machine
end

