-- ==== Sys2Proof/Machine/Post.lean ====
section
/-! DEFINITION. What the part writes toward a host (11): vectors, event bits and notices (R295), completion records
(R292, R293, R332), the answer of a command (R282 to R284) and the health record (R296). -/

namespace Sys2Proof.Machine

/-- The part can master the host link: it is up and the function is in D0 (R399, R404). -/
def State.busMaster (s : State) : Bool := s.cxl.up && !s.cxl.d3 && !s.cxl.ideStopped.getLsbD 0

/-- Vector n raised; it waits while the link or the function cannot carry it (R295, R399, R404). -/
def State.raiseVector (s : State) (n : Nat) : State :=
  if s.busMaster then { s with out := { s.out with vectors := modify 0 s.out.vectors n (· + 1) } }
  else { s with out := { s.out with vecWait := s.out.vecWait ++ [n] } }

/-- Vectors that waited are raised once the link carries them again (R404). -/
def State.flushVectors (s : State) : State :=
  if s.busMaster then
    { s with out := { s.out with vectors := s.out.vecWait.foldl (fun t n => modify 0 t n (· + 1)) s.out.vectors
                                 vecWait := [] } }
  else s

/-- An event pending bit of a mailbox set, and its vector raised if it is enabled (R295). -/
def State.setEvent (s : State) (n bit : Nat) : State :=
  let s := s.raise (.evPend n) (bitW bit true)
  if (s.mb n).mask.getLsbD bit then s.raiseVector n else s

/-- Notices of a session arise (R295, R307): bits 0 fold, 1 capacity, 2 region fenced, 3 pair role. -/
def State.notify (s : State) (id bits : Nat) : State :=
  match s.session id with
  | none => s
  | some x =>
    let s := s.setSess id (fun x => { x with notices := Nat.lor x.notices bits })
    x.mbs.foldl (fun s n => s.setEvent n 2) s

/-- A notice in every session. -/
def State.notifyAll (s : State) (bits : Nat) : State := (s.sess.map (fun x => x.id)).foldl (fun s i => s.notify i bits) s

/-- A completion record without its phase bit (R292). -/
def recordOf (image status detail counter cookie digest ovf ticks start end_ : Nat) : Record :=
  leBytes 1 0 ++ leBytes 1 image ++ leBytes 2 status ++ leBytes 4 detail ++ leBytes 8 counter ++ leBytes 8 cookie ++
    leBytes 8 digest ++ leBytes 4 ovf ++ leBytes 4 ticks ++ leBytes 8 start ++ leBytes 8 end_ ++ zeroBytes 8

/-- Written and unconsumed entries of a ring (R292, R293). -/
def CRing.used (c : CRing) : Nat := (c.prod + 2 ^ 32 - c.cons) % 2 ^ 32

/-- The ring has an entry that is neither written nor reserved (R293). -/
def CRing.hasFree (c : CRing) : Bool := decide (c.used + b2n c.reserved < c.entries)

/-- The ring can be written now: in device memory, or over a link that carries it (R301, R399, R404). -/
def State.ringReachable (s : State) (c : CRing) : Bool := c.dev || s.busMaster

/-- A record put into the next entry of a session's ring with its phase bit (R292), and event bit 1 (R295). -/
def State.putRecord (s : State) (x : Sess) (rec : Record) : State :=
  let c := x.ring
  let e := c.entries
  let lap := if e = 0 then 0 else c.prod / e % 2
  let bytes := BitVec.ofNat 8 (1 - lap) :: rec.drop 1
  let a := c.addr + 64 * (if e = 0 then 0 else c.prod % e)
  let s := if c.dev then s.devStore a bytes none else { s with out := { s.out with hostMem := wrBytes s.out.hostMem a bytes } }
  let s := s.setSess x.id (fun x => { x with ring := { x.ring with prod := (x.ring.prod + 1) % 2 ^ 32 } })
  x.mbs.foldl (fun s n => s.setEvent n 1) s

/-- The part keeps its records in the suppressed ring (R293, R332). -/
def State.suppressing (s : State) : Bool := s.pair.shadow && s.pair.role == 2

/-- The suppressed records of a session that the primary has written are dropped, and the ring's producer index passes the
entries that they stand in (R332); a count that is ahead drops those that come later. -/
def State.dropWritten (s : State) (id : Nat) : State :=
  match s.session id with
  | none => s
  | some x =>
    let l := look [] s.pair.suppressed id
    let ahead := (look x.ring.prod s.pair.ringDone id + 2 ^ 32 - x.ring.prod) % 2 ^ 32
    let n := if ahead < 2 ^ 31 then Nat.min ahead l.length else 0
    ({ s with pair := { s.pair with suppressed := put [] s.pair.suppressed id (l.drop n) } }).setSess id
      (fun x => { x with ring := { x.ring with prod := (x.ring.prod + n) % 2 ^ 32 } })

/-- A record posted (R293): at once when its entry is free and nothing waits ahead of it, else behind those that wait;
a secondary keeps it in the suppressed ring (R332). `own` says that an entry is reserved for it. -/
def State.postRecord (s : State) (id : Nat) (own : Bool) (rec : Record) : State :=
  match s.session id with
  | none => s
  | some x =>
    let x := if own then { x with ring := { x.ring with reserved := false } } else x
    let s := if own then s.setSess id (fun x => { x with ring := { x.ring with reserved := false } }) else s
    if s.suppressing then
      ({ s with pair := { s.pair with suppressed := modify [] s.pair.suppressed id (fun l => l ++ [rec]) } }).dropWritten id
    else if x.ring.waiting.isEmpty && x.ring.hasFree && s.ringReachable x.ring then s.putRecord x rec
    else s.setSess id (fun x => { x with ring := { x.ring with waiting := x.ring.waiting ++ [rec] } })

/-- The record of a queued step that is removed before it starts (R291, R306, R44). -/
def removedRecord (q : QItem) (code : Nat) : Record := recordOf q.image code 0 q.counter q.cookie 0 0 0 0 0

/-- Where an output payload goes, and how much of it (R275). -/
def State.putOutput (s : State) (g : Go) (out : List Byte) : State :=
  let b := out.take g.payLen.toNat
  if g.flags.getLsbD 0 then s.setMb g.mb (fun m => { m with inl := wrBytes m.inl 0 b })
  else if g.flags.getLsbD 1 then s.devStore g.payAddr.toNat b (some g.mb)
  else { s with out := { s.out with hostMem := wrBytes s.out.hostMem g.payAddr.toNat b } }

/-- The transfer of an output payload meets an error response (R195, R275). -/
def State.outFails (s : State) (g : Go) (out : List Byte) : Bool :=
  !g.flags.getLsbD 0 &&
    (if g.flags.getLsbD 1 then !s.served g.payAddr.toNat (out.take g.payLen.toNat).length else g.payBad)

/-- An answer's output delivered; where its transfer fails the answer is `E_BUS_ERROR` (R275). -/
def State.placeOutput (s : State) (g : Go) (o : Outcome) : Outcome × State :=
  if o.out.isEmpty then (o, s)
  else if s.outFails g o.out then ({ code := 0xE }, s)
  else (o, s.putOutput g o.out)

/-- The 256 response bytes (R284). -/
def responseOf (opcode : Nat) (g : Go) (o : Outcome) : List Byte :=
  let head := leBytes 2 o.code ++ leBytes 2 opcode ++ leBytes 4 g.go.toNat ++ leBytes 8 g.tag.toNat ++
    leBytes 4 (Nat.min o.out.length g.payLen.toNat) ++ leBytes 4 o.detail ++ leBytes 8 o.shortfall ++ zeroBytes 224
  fit 256 (o.fields.foldl (fun l f => overlay l (f.1 - 0x100) f.2) head)

/-- The response and the status word of a completed command, then event bit 0 (R282, R283). -/
def State.postStatus (s : State) (opcode : Nat) (g : Go) (o : Outcome) : State :=
  let s := s.setMb g.mb (fun m => { m with
    resp := responseOf opcode g o, state := if o.code = 0 then 2 else 3, code := o.code,
    statusSeq := g.go.toNat % 256, busy := none })
  s.setEvent g.mb 0

/-- A command whose output is out completes, unless an access it made is held: then its answer waits (R198, R282). -/
def State.postPlaced (s : State) (opcode : Nat) (g : Go) (o : Outcome) : State :=
  if s.mbHeld g.mb then s.setMb g.mb (fun m => { m with
    busy := some { opcode := opcode, go := g, wait := .ready, acc := o, done := true, placed := true } })
  else s.postStatus opcode g o

/-- A command completed on a mailbox (R282, R283): the output, then response, status word and event bit. -/
def State.postResult (s : State) (opcode : Nat) (g : Go) (o : Outcome) : State :=
  let (o, s) := s.placeOutput g o
  s.postPlaced opcode g o

/-- The answer of a waiting command fixed; `COMMAND_COMPLETION` posts it (R282). -/
def State.finishBusy (s : State) (n : Nat) (o : Outcome) : State :=
  s.setMb n (fun m => match m.busy with
    | some b => if b.done then m else { m with busy := some { b with acc := o, done := true } }
    | none => m)

/-- The mailboxes that carry a command waiting for something a test accepts. -/
def State.waiters (s : State) (p : WaitFor → Bool) : List Nat :=
  (s.mbx.filter (fun x => match x.2.busy with | some b => !b.done && p b.wait | none => false)).map (fun x => x.1)

/-- Every command waiting for something answered with what it has gathered, changed by `f`. -/
def State.release (s : State) (p : WaitFor → Bool) (f : Outcome → Outcome) : State :=
  (s.waiters p).foldl (fun s n => match (s.mb n).busy with
    | some b => s.finishBusy n (f b.acc)
    | none => s) s

/-- A mailbox released: neither claimed nor bound (R277, R291). -/
def Mailbox.freed (m : Mailbox) : Mailbox :=
  { m with claimed := false, tag := 0, sess := 0, opened := false, goIgnored := 0 }

/-- Mailboxes unbound from a session and released (R291). -/
def State.freeMailboxesOf (s : State) (ns : List Nat) : State :=
  ns.foldl (fun s n => s.setMb n Mailbox.freed) s

/-- The event-log codes and data that the manual does not number: the log's own kinds (log entry 26). -/
inductive LogKind where
  | gate | digests | lease | freeze | unit | memory
  deriving DecidableEq, Repr

/-- The code of a kind of log entry: a free value (log entry 26). -/
def LogKind.code (k : LogKind) : Nat :=
  (match k with
  | .gate => Config.logCode 0 | .digests => Config.logCode 1 | .lease => Config.logCode 2
  | .freeze => Config.logCode 3 | .unit => Config.logCode 4 | .memory => Config.logCode 5).toNat

/-- An entry of the log. -/
def State.note (s : State) (k : LogKind) (source sess : Nat) (data : List Byte) : State :=
  s.logEvent k.code source sess data (k == .freeze)

/-- `HFLAGS` of the health record (R296, R344). -/
def State.hflags (s : State) : Nat :=
  b2n s.dev.setDefaulted + 2 * b2n s.anyFrozen + 4 * b2n s.limiting + 8 * b2n (!s.sec.rbOn) +
    16 * b2n (s.pair.left || s.dev.pkgFault)

/-- `FROZEN` of the health record (R296). -/
def State.frozenMap (s : State) : Nat :=
  (List.range 40).foldl (fun v n => v + (if (s.memCtl n).frozen then 2 ^ n else 0)) 0

/-- The health record's defined bytes (R296), with a rewrite count. -/
def State.healthBytes (s : State) (update : Nat) : List Byte :=
  leBytes 1 s.dev.stage ++ leBytes 1 s.hflags ++ leBytes 1 s.pair.role ++ leBytes 1 s.sess.length ++
    leBytes 2 s.units.capacity ++ leBytes 2 s.pwr.tjMax ++ leBytes 2 s.pwr.lastAvg ++ leBytes 2 s.pwr.envelope ++
    leBytes 2 (if s.fcfg.flashRan then s.fcfg.flashStatus else 0) ++ zeroBytes 2 ++ leBytes 8 s.frozenMap ++
    leBytes 8 s.tick.count ++ leBytes 8 update ++ leBytes 4 s.fwVersion ++ leBytes 4 s.tickNs

/-- The health record as it stands in mailbox 0 (R296). -/
def State.healthRecord (s : State) : List Byte := fit 256 s.health.record

/-- A rewrite of the health record (R295, R296): the count goes odd and then even again. -/
def State.rewriteHealth (s : State) : State :=
  let old := s.healthRecord.take 3
  let n := (s.health.update + 2) % 2 ^ 64
  let b := s.healthBytes n
  let s := { s with health := { update := n, record := b } }
  if b.take 3 = old then s else s.setEvent 0 3

end Sys2Proof.Machine
end

