-- ==== Sys2Proof/Machine/FabOps.lean ====
section
/-! DEFINITION. What is done to fabric regions (09, 10): engaging and releasing the isolation cells, clearing, the
progress and end of a load, and the start-up order. -/

namespace Sys2Proof.Machine

/-- Stage 1 has ended (R244, `ISO_SEEN`). -/
def State.afterStage1 (s : State) : Bool := s.dev.phase == .open1 || s.dev.phase == .full

/-- Something holds a fabric lane's transmitter in electrical idle (R244, R362, R372, R387, R395, R414). -/
def State.laneHeld (s : State) (l : Nat) : Bool :=
  (s.fabric (2 * l)).isolated || s.units.retiredLanes.getLsbD l || s.clk.hold || s.pwr.inTrip || s.dev.stage == 3

/-- A fabric lane's transmitter is idle when the design asks for it, when something holds it, and after a coincidence of
R415 until the design releases it again; as secondary of a shadow pair also while the lane is mirrored (R326). -/
def State.fixLane (s : State) (l : Nat) : State :=
  let held := s.laneHeld l || (s.pair.shadow && s.pair.role == 2 && (s.lane l).mirrored)
  s.setLane l (fun x => { x with txIdle := held || x.designIdle || x.holdIdle })

/-- Every fabric lane's idle state. -/
def State.fixLanes (s : State) : State := (List.range 32).foldl State.fixLane s

/-- The isolation cells of a fabric region engage (R243, R244): what the TX buffers hold and outstanding control port
reads are discarded, the border closes on both sides, its wires and hold-last pins keeping what the design drove last, and
the lane's transmitter idles. -/
def State.isolate (s : State) (r : Nat) : State :=
  let was := (s.fabric r).isolated
  let s := if was then s else s.runDesign r
  let s := (List.range 8).foldl (fun s p => s.setPort r p (fun q => { q with txBuf := [] })) s
  let s := s.setFab r (fun f => { f with isolated := true, borderOpen := false, cps := [] })
  let s := s.setFab (r ^^^ 1) (fun f => { f with borderOpen := false })
  let s := if s.afterStage1 && !was then s.raise (.fabStatus r) 0x04000000 else s
  if r % 2 = 0 then s.fixLane (r / 2) else s

/-- Set/reset is asserted, so that every flip-flop is at its initial value, and block RAM writes are disabled (R220, R224). -/
def FabRegion.freeze (f : FabRegion) : FabRegion :=
  { f with gsr := true, writes := false, cells := { f.cells with ffs := [], leaving := [] } }

/-- The cells engage with global set/reset asserted and block RAM writes disabled, configuration kept (R362, R387). -/
def State.holdFabric (s : State) (r : Nat) : State :=
  (s.isolate r).setFab r FabRegion.freeze

/-- The borders are tested at a tick boundary (R231). -/
def State.testBorders (s : State) : State :=
  (List.range 32).foldl (fun s d =>
    let a := s.fabric (2 * d)
    let b := s.fabric (2 * d + 1)
    let o := (s.region (2 * d)).owner
    let open_ := a.configured && b.configured && !a.isolated && !b.isolated && o != 0 && o == (s.region (2 * d + 1)).owner
    (s.setFab (2 * d) (fun f => { f with borderOpen := open_ })).setFab (2 * d + 1)
      (fun f => { f with borderOpen := open_ })) s

/-- The lane of a region as it stands without configuration (R267, R412): rate 0, not mirrored, slip position 0. -/
def State.bareLane (s : State) (r : Nat) : State :=
  if r % 2 = 0 then
    (s.setLane (r / 2) (fun x => { x with rate := 0, pam4 := false, mirrored := false, runtime := false })).fixLane (r / 2)
  else s

/-- A fabric region cleared (R267). -/
def State.clearFabric (s : State) (r : Nat) : State :=
  let s := s.isolate r
  let s := s.setFab r (fun f => { f with
    configured := false, loading := false, clearing := false, gsr := true, writes := false, control := [], columns := [],
    brams := [], imageId := 0, startup := {}, pllLock := 0, trees := [], delays := [], cells := { edges := f.cells.edges } })
  s.bareLane r

/-- Clearing of a region begins (R266, R267). -/
def State.beginClear (s : State) (r : Nat) : State :=
  (s.isolate r).setFab r (fun f => { f.freeze with
    clearing := true, loading := false, configured := false, startup := { f.startup with running := false } })

/-- Bytes of a segment's plaintext (R258). -/
def segSize : Nat := 1048576

/-- A load by its slot. -/
def State.load (s : State) (slot : Nat) : Option Load := s.loads.find? (fun l => l.slot == slot)

/-- A load changed. -/
def State.setLoad (s : State) (slot : Nat) (f : Load → Load) : State :=
  { s with loads := s.loads.map (fun l => if l.slot = slot then f l else l) }

/-- What a load has received for a region. -/
def Load.part (l : Load) (r : Nat) : Option RegionLoad := l.parts.find? (fun p => p.region == r)

/-- What a load has received for a region, changed. -/
def Load.setPart (l : Load) (r : Nat) (f : RegionLoad → RegionLoad) : Load :=
  { l with parts := match l.part r with
      | some _ => l.parts.map (fun p => if p.region = r then f p else p)
      | none => l.parts ++ [f { region := r }] }

/-- Segments of a load (R251). -/
def Load.segments (l : Load) : Nat := if l.kind = 2 then 0 else ceilDiv l.plainLen 1048576

/-- The target of a partial load was fenced while it ran, its start-up order included (R264, R267). -/
def Load.aborted (l : Load) : Bool :=
  l.kind == 1 && (match l.part l.target with | some p => p.dropped | none => false)

/-- The answer of a load that has ended (R264, R266, R309): the regions whose start-up order it began, by how that ended. -/
def Load.outcome (l : Load) : Outcome :=
  let done := (l.parts.filter (fun p => p.done)).map (fun p => p.region)
  let late := (l.parts.filter (fun p => p.late)).map (fun p => p.region)
  let code := match l.fail with
    | some c => c
    | none => if l.aborted then 0xF else if !late.isEmpty && l.kind != 2 then 0x10 else 0
  { code := code, fields := [(0x120, leBytes 8 l.imageId), (0x128, leBytes 8 (mapOf done).toNat),
                             (0x130, leBytes 8 (mapOf late).toNat)] }

/-- Every covered region of an ended load is through: no clearing and no start-up order still runs (R264, R266). -/
def State.loadThrough (s : State) (l : Load) : Bool :=
  l.ended && (members l.covered).all (fun r => !(s.fabric r).clearing && !(s.fabric r).startup.running)

/-- Loads that are through answer their commands, or report the flash load's status (R264, R266, R270). -/
def State.endLoads (s : State) : State :=
  let (through, on) := s.loads.partition s.loadThrough
  through.foldl (fun s l =>
    let o := l.outcome
    match l.mb with
    | some n => s.finishBusy n o
    | none => ({ s with fcfg := { s.fcfg with flashStatus := o.code } }).note .unit 0xFF 0 (leBytes 2 o.code))
    { s with loads := on }

/-- The first failure recorded since `VALID` was cleared (R266, `FAB_CFG_FAIL`). -/
def State.recordFail (s : State) (cause region seg : Nat) : State :=
  if s.fcfg.failValid then s.raise .cfgFail 0x80000000
  else
    let s := { s with fcfg := { s.fcfg with failCause := cause, failRegion := region, failSegment := seg } }
    s.raise .cfgFail 0x80000000

/-- A load fails after it has begun (R266): the flag set, the failure recorded with the segment in which it was found, every
covered region that is not fenced being cleared. `bit` is the flag's place in `FAB_CFG`. -/
def State.failLoad (s : State) (slot bit cause region seg code : Nat) : State :=
  match s.load slot with
  | none => s
  | some l =>
    let s := s.raise .cfg (bitW bit true)
    let s := s.recordFail cause region (Nat.min seg 1023)
    let s := s.setLoad slot (fun l => { l with fail := some code, ended := true })
    (members l.covered).foldl (fun s r => if s.fabGone r then s else s.beginClear r) s

/-- The loads that an emergency, a release or a close aborts (R266), their start-up orders included. A load that has not
begun just ends. -/
def State.abortLoads (s : State) (hit : Load → Bool) : State :=
  s.loads.foldl (fun s l =>
    if hit l && l.fail.isNone then
      if l.begun then s.failLoad l.slot 26 6 0 (l.used / segSize) 0xF
      else s.setLoad l.slot (fun l => { l with fail := some 0xF, ended := true })
    else s) s |>.endLoads

/-- The start-up order of a region begins for a load (R263). -/
def State.beginStartup (s : State) (r slot : Nat) (trailer : List Byte) : State :=
  s.setFab r (fun f => { f with startup := { slot := some slot, order := fld trailer 0 1, tree := bitsOf (fld trailer 0 4) 10 8,
                                             delays := (List.range 4).map (fun k => fld trailer (4 + 2 * k) 2),
                                             running := true } })

/-- Every configured region runs its start-up order again (R363, R388). -/
def State.restartFabrics (s : State) : State :=
  (List.range 64).foldl (fun s r =>
    let f := s.fabric r
    if f.configured && !s.fabGone r then
      s.setFab r (fun f => { f with startup := { f.startup with
        slot := none, running := true, steps := 0, done := false, timedOut := false } })
    else s) s

/-- What is wrong with a blank image's stream (R266, R268): the flag's bit, the cause and the status. `short`: its read
met an error. -/
def blankFault (b : List Byte) (short : Bool) : Option (Nat × Nat × Nat) :=
  let e := slice b 256 28
  if short || b.length < 284 then some (31, 1, 0xB)
  else if !(fld e 0 1 == 0xF && fld e 1 1 == 0xFF && fld e 2 2 == 0 && fld e 4 4 == 16 && fld e 8 4 == 1 &&
      fld e 12 4 == 0 && fld e 16 8 == 0 && fld b 0x10 8 == 0) then some (29, 3, 2)
  else if fld e 24 4 != crc32c (e.take 24) then some (28, 4, 0xE)
  else none

/-- An accepted load begins (R261, R262): the covered regions are isolated, their trees stopped and PLLs reset; a blank
image clears them (R268). -/
def State.beginLoad (s : State) (slot : Nat) : State :=
  match s.load slot with
  | none => s
  | some l =>
    let rs := (members l.covered).filter (fun r => !s.fabGone r)
    let dropped := (members l.covered).filter s.fabGone
    let s := s.setLoad slot (fun l => dropped.foldl (fun l r => l.setPart r (fun p => { p with dropped := true }))
      { l with begun := true, ended := l.kind == 2 })
    let s := rs.foldl (fun s r =>
      if l.kind = 2 then s.beginClear r
      else (s.isolate r).setFab r (fun f => { f with
        loading := true, configured := false, gsr := true, writes := false, control := [], pllLock := 0,
        trees := [], startup := {}, cells := { f.cells with ffs := [], leaving := [] } })) s
    let s := match (if l.kind = 2 then blankFault l.stream l.short else none) with
      | some (bit, cause, code) => s.failLoad slot bit cause 0 0 code
      | none => s
    (List.range 4).foldl (fun s i =>
      if (members l.covered).any (fun r => r / 16 == i) then
        { s with fcfg := { s.fcfg with chainSent := put 0 s.fcfg.chainSent i 0 } }
      else s) s

/-- A step in progress arms a ring naming a port of one of the regions (R261). -/
def State.portsBusy (s : State) (regions : DWord) : Bool :=
  s.sess.any (fun x => match x.running with
    | some run => run.finish.isNone && ((look {} x.images run.item.image).portsArmed run.live).any (fun r => regions.getLsbD r)
    | none => false)

/-- A load may begin: it is accepted, its stream is not held (R198), and no step in progress uses a port it covers
(R261). -/
def State.mayBegin (s : State) (l : Load) : Bool :=
  !l.begun && !l.ended && !s.portsBusy l.covered && (match l.mb with | some n => !s.mbHeld n | none => true)

/-- An input that the primary of a shadow pair forwards (R323): it takes the next pair sequence number and the tag of the next
tick, and stays with the primary until the secondary has acknowledged it (R324). -/
def State.forward (s : State) (i : Input) : State :=
  if s.pair.shadow && s.pair.role == 1 then
    { s with pair := { s.pair with
        seq := s.pair.seq + 1
        unacked := s.pair.unacked ++ [{ seq := s.pair.seq + 1, tag := s.tick.count + 1, input := i }] } }
  else s

/-- The primary of a shadow pair decides, as a tick ends, which loads begin at its boundary, and forwards that (R261,
R323). -/
def State.decideLoads (s : State) : State :=
  if s.pair.shadow && s.pair.role == 1 then
    s.loads.foldl (fun s l =>
      if s.mayBegin l && !l.decided then
        (s.setLoad l.slot (fun l => { l with decided := true })).forward (.loadStart l.slot)
      else s) s
  else s

/-- The load was decided on by the primary, as far as this part knows (R323); out of shadow service nothing is asked. -/
def State.loadDecided (s : State) (l : Load) : Bool :=
  if s.pair.shadow then
    l.decided || s.pair.inputs.any (fun f => f.input == .loadStart l.slot && decide (f.tag ≤ s.tick.count + 1))
  else true

/-- At a tick boundary, loads whose ports no step uses begin (R261). -/
def State.beginLoads (s : State) : State :=
  (s.loads.foldl (fun s l => if s.mayBegin l && s.loadDecided l then s.beginLoad l.slot else s) s).endLoads

/-- What the fence of a region does to its fabric (R243, R267, R370): isolated; a load under way takes no further records
for it, and a start-up order there ends. A control port read that is outstanding stays, to be answered with an error
(R242; log entry 59). -/
def State.fenceFabric (s : State) (r : Nat) : State :=
  let reads := (s.fabric r).cps
  let s := s.isolate r
  let s := s.setFab r (fun f => { f with
    cps := reads, loading := false, clearing := false, startup := { f.startup with running := false } })
  let s := s.loads.foldl (fun s l =>
    if l.covered.getLsbD r && l.fail.isNone then
      s.setLoad l.slot (fun l => let l := l.setPart r (fun p => { p with dropped := true })
                                 { l with ended := l.ended || (l.begun && l.kind == 1) })
    else s) s
  s.endLoads

end Sys2Proof.Machine
end

