-- ==== Sys2Proof/Machine/PairOps.lean ====
section
/-! DEFINITION. What several events do to a pair (12): taking the primary role, writing suppressed records, leaving pair
service; and what ends the work of a region (R47, R56, R370). -/

namespace Sys2Proof.Machine

/-- A tile slot without work, its memory, queues and registers kept; a pass in the array is discarded (R84). -/
def emptyTile (t : Tile) : Tile :=
  { t with job := none, passes := [], array := [], crq := [], sqTaken := 0, tqTaken := 0, ctx0 := {}, ctx1 := {},
           ctx2 := {}, ctx3 := {}, r := { t.r with discard := t.r.discard || !t.array.isEmpty } }

/-- The slots of a region that the state lists. -/
def State.slotsOf (s : State) (r : Nat) : List Nat := (s.tiles.filter (fun p => p.1 / 36 == r)).map (fun p => p.1)

/-- Some pass of a region stands in an array. -/
def State.inArray (s : State) (r : Nat) : Bool := s.tiles.any (fun p => p.1 / 36 == r && !p.2.array.isEmpty)

/-- `EMERG` is set when an emergency discards at least one pass (02, `DEV_TICK_STATUS`). -/
def State.markEmerg (s : State) (hit : Bool) : State :=
  if hit then ({ s with tick := { s.tick with trouble := true } }).raise .tickStatus 0x20000000 else s

/-- The work of a region dropped: passes and tasks discarded, streams disarmed (R369, R370). -/
def State.dropWork (s : State) (r : Nat) : State :=
  let s := s.markEmerg (s.inArray r)
  let s := (s.slotsOf r).foldl (fun s i => s.runTile i emptyTile) s
  (List.range 32).foldl (fun s n => s.setStream r n (fun x => x.disarm)) s

/-- Ticks of a changeover (R47). -/
def State.changeoverTicks (s : State) : Nat := ceilDiv 6000 s.tickNs

/-- A stream as a changeover leaves it (R47, R175): telemetry counts kept. -/
def Stream.cleared (x : Stream) : Stream :=
  { grants := x.grants, lateCnt := x.lateCnt, stallCnt := x.stallCnt, overruns := x.overruns }

/-- A region enters changeover (R47, R175): tile memories, cluster buffers, staging, queues and stream state are cleared,
all streams disarmed; its fabric is not cleared. -/
def State.changeover (s : State) (r : Nat) : State :=
  let s := s.dropWork r
  let s := (s.slotsOf r).foldl (fun s i => s.putTile i (clearTile (s.tile i))) s
  let s := { s with bufs := mapTab {} (fun c b => if c / 4 = r then {} else b) s.bufs }
  let s := { s with eng := modify {} s.eng r (fun e =>
    { streams := mapTab {} (fun _ x => x.cleared) e.streams }) }
  s.setRegion r (fun x => { x with owner := 0, change := s.changeoverTicks,
                                   changeovers := x.changeovers + 1 })

/-- An emergency stops a region (R56, R84, R144, R174): its passes are discarded to run again, its tasks restart, its
streams reissue what they had not delivered. -/
def State.stopRegion (s : State) (r : Nat) : State :=
  let s := s.markEmerg (s.inArray r)
  let s := (s.slotsOf r).foldl (fun s i => s.haltSlot i stopTile) s
  (List.range 32).foldl (fun s n => s.restartStream r n) s

/-- An emergency of package scope (R58, R266): every region is stopped and fabric loads abort. -/
def State.emergency (s : State) : State :=
  let s := (List.range 64).foldl State.stopRegion s
  s.abortLoads (fun l => l.begun)

/-- Records that wait for an entry of the host's ring go to the suppressed ring of a part that becomes secondary (R332,
R345): the new primary has them too. -/
def State.keepRecords (s : State) : State :=
  s.sess.foldl (fun s x =>
    ({ s with pair := { s.pair with
        suppressed := modify [] s.pair.suppressed x.id (fun l => x.ring.waiting ++ l) } }).setSess x.id
      (fun y => { y with ring := { y.ring with waiting := [] } })) s

/-- Suppressed records beyond the primary's count written to the sessions' rings (R340 step 6, R345). -/
def State.flushSuppressed (s : State) : State :=
  let all := s.pair.suppressed
  let s := { s with pair := { s.pair with suppressed := [] } }
  all.foldl (fun s p => p.2.foldl (fun s rec => s.postRecord p.1 false rec) s) s

/-- The role of the part changes (R295, R340, R345): notice bit 3 in every session, and the lanes that follow it. -/
def State.setRole (s : State) (role : Nat) : State :=
  let s := { s with pair := { s.pair with role := role } }
  (s.fixLanes).notifyAll 8

/-- The Strait link after its lanes have changed (R406, R408, `LNK_STR_STATUS.DOWN`). -/
def State.judgeLink (s : State) : State :=
  if s.strait.wasUp && decide (s.lanesUp < 16) then
    ({ s with strait := { s.strait with wasUp := false } }).raise .strStatus 0x08000000
  else { s with strait := { s.strait with wasUp := decide (16 ≤ s.lanesUp) } }

/-- Every Strait lane to electrical idle, out of the link, coefficients kept (R414, R415). -/
def State.idleStrait (s : State) : State :=
  ((List.range 32).foldl (fun s l => s.setStrLane l (fun x => { x with
    up := false, training := false, step := 0, idle := true, back := false, rejoin := false })) s).judgeLink

/-! What crosses the Strait link. -/

/-- The Strait link carries messages (R405, R406). -/
def State.hears (s : State) : Bool := s.dev.pwrGood && decide (16 ≤ s.lanesUp)

/-- The host writes among inputs. -/
def writesIn (l : List Forwarded) : Nat := (l.filter (fun f => match f.input with | .write _ _ => true | _ => false)).length

/-- Inputs up to a sequence number acknowledged: the host writes among them complete to the host (R324). -/
def State.acknowledge (s : State) (n : Nat) : State :=
  let (got, rest) := s.pair.unacked.partition (fun f => decide (f.seq ≤ n))
  { s with pair := { s.pair with unacked := rest }, out := { s.out with writesDone := s.out.writesDone + writesIn got } }

/-- Every session discarded (R344): mailboxes unbound, commands in service ended with `E_PAIR_STATE`, regions given back
through changeover. -/
def State.discardSessions (s : State) : State :=
  let s := s.release (fun _ => true) (fun o => { o with code := 0xD })
  let s := s.abortLoads (fun l => l.mb.isSome)
  let rs := (s.sess.map (fun x => members x.regions)).flatten
  let ns := (s.sess.map (fun x => x.mbs)).flatten
  let s := rs.foldl State.changeover s
  let s := ns.foldl (fun s n => s.setMb n (fun m => { m with sess := 0 })) s
  { s with sess := [] }

/-- The part is out of pair service (R339, R344). -/
def State.quitPair (s : State) : State :=
  let s := { s with pair := { s.pair with noticeSent := decide (16 ≤ s.lanesUp), left := true, formed := false,
                                          waits := false, role := 0, phase := 0, joinHold := false, promoteIn := 0,
                                          inputs := [], mine := [], theirs := [], suppressed := [], toSend := [],
                                          marked := [], lastWindow := none, outcomes := [], theirOut := [],
                                          diverging := false, got := [], standby := [], theirOcc := [], theirHeld := 0 }
                    dev := { s.dev with hbOn := false, hbLevel := false } }
  ((s.acknowledge s.pair.seq).idleStrait).discardSessions

/-- The part leaves pair service (R339, R344); a part in no pair has nothing to leave. -/
def State.leavePair (s : State) : State := if s.pair.formed then s.quitPair else s

end Sys2Proof.Machine
end

