-- ==== Sys2Proof/Machine/StepOps.lean ====
section
/-! DEFINITION. A running step through its image ticks (02, 08): its binding, the move of cluster-buffer data, the work
placed at the issue of a tick, the advance at its end, and how it stops. -/

namespace Sys2Proof.Machine

/-- The image a run uses, with the tensors bound as they were when it started (R303). -/
def Sess.imageOf (x : Sess) (run : Run) : Image := { look {} x.images run.item.image with bound := run.bound }

/-- The running step of a session changed. -/
def State.setRun (s : State) (id : Nat) (f : Run → Run) : State :=
  s.setSess id (fun x => { x with running := x.running.map f })

/-- The sessions that have a running step that has not ended, with it. -/
def State.runs (s : State) : List (Sess × Run) :=
  s.sess.filterMap (fun x => match x.running with
    | some run => if run.finish.isNone then some (x, run) else none
    | none => none)

/-- The live clusters that a run's image clusters run on (R40). -/
def Run.used (run : Run) (clusters : Nat) : List Nat := run.live.take clusters

/-- Every running step that the test names stops at the next boundary (R369). -/
def State.stopUsers (s : State) (hit : Sess → Run → Bool) (code : Nat) : State :=
  (s.runs.filter (fun p => p.2.begun && hit p.1 p.2)).foldl (fun s p => s.stopStep p.1.id code) s

/-- The program section of an image in the form program memory holds it (R452). -/
def Image.program (i : Image) : List Byte := fit 65536 (slice i.bytes (i.sect 5).1 (i.sect 5).2)

/-- Firmware writes a step's program into every tile of the clusters it runs on (R452). -/
def State.writePrograms (s : State) (i : Image) (live : List Nat) : State :=
  let m := wrBytes [] 0 i.program
  ((live.take i.clusters).flatMap (fun c => (List.range 8).map (fun k => s.units.slotOf (c * 8 + k)))).foldl (fun s slot =>
    s.putTile slot { s.tile slot with loc := copyRange m 0 (s.tile slot).loc progBase 65536 }) s

/-- Hardware streams for the image streams that one engine hosts: which free one each takes is a free value (R147; log
entry 16). -/
def State.bindKeys (s : State) (i : Image) (r : Nat) : List Nat → List Nat → State
  | [], _ => s
  | k :: ks, free =>
    let (v, s) := s.draw
    let n := free.getD (if free.isEmpty then 0 else v % free.length) 0
    let (rsv, shared, rate) := i.sconf k
    let s := s.setStream r n (fun x => { x with bound := some k, reserve := rsv, sharedMax := shared, rate := rate })
    s.bindKeys i r ks (free.filter (fun m => m != n))

/-- The streams of a partition's regions bound for an image (R41, R147, R163). -/
def State.bindStreams (s : State) (i : Image) (regions : DWord) (live : List Nat) : State :=
  (members regions).foldl (fun s r =>
    let s := (List.range 32).foldl (fun s n => s.setStream r n (fun x =>
      { x with bound := none, reserve := 0, sharedMax := 0, rate := 0 })) s
    s.bindKeys i r (i.boundOn live r) (List.range 32)) s

/-- The readable bank of a cluster that takes over slices under a new binding (R43): each image cluster's bytes below the
new slice size come from where they lay. -/
def State.movedBank (s : State) (clusters k : Nat) (old new : Run) : Mem :=
  ((List.range clusters).filter (fun c => (new.bindOf c).1 == k)).foldl (fun m c =>
    let (a, ab) := old.bindOf c
    copyRange (s.buf a).read ab m (new.bindOf c).2 (Nat.min (sliceOf old.sliceFold) (sliceOf new.sliceFold))) []

/-- The readable banks moved to a new binding (R43). -/
def State.moveData (s : State) (clusters : Nat) (old new : Run) : State :=
  let banks := (new.live.take clusters).map (fun k => (k, s.movedBank clusters k old new))
  banks.foldl (fun s b =>
    let x := s.buf b.1
    s.putBuf b.1 (if x.rd then { x with bank1 := b.2 } else { x with bank0 := b.2 })) s

/-- An old place of a binding cannot be read (R43, R369). -/
def State.unreadable (s : State) (live : List Nat) : Bool :=
  live.any (fun c => (s.buf c).lost || s.units.fenced (c / 4))

/-- A step whose fold is infeasible ends at this boundary (R44, R305). -/
def State.infeasible (s : State) (x : Sess) : State :=
  s.setRun x.id (fun r => { r with finish := some 6 })

/-- A run bound to live clusters at the start of an image tick (R40, R41, R43, R44, R372). A binding under which every
image cluster keeps its cluster and slice moves nothing and stops nothing. -/
def State.rebind (s : State) (x : Sess) (run : Run) (live : List Nat) : State :=
  let i := x.imageOf run
  let f := foldOf i.clusters live.length
  let new := { run with live := live, fold := f, sliceFold := f }
  if !i.foldOk live then s.infeasible x
  else if run.begun && f == run.fold && (List.range i.clusters).all (fun c => new.bindOf c == run.bindOf c) then
    s.setRun x.id (fun _ => new)
  else if run.begun && (i.carry || s.unreadable (run.used i.clusters)) then
    s.setRun x.id (fun r => { r with finish := some 0xF })
  else
    let s := if run.begun then s.moveData i.clusters run new else s
    let s := s.setRun x.id (fun _ => new)
    (s.bindStreams i x.regions live).writePrograms i live

/-- The remaining sub-ticks of an image tick need only clusters that still count, in a shadow pair in both parts (R44,
R333). -/
def State.restHolds (s : State) (i : Image) (run : Run) : Bool :=
  let n := run.live.length
  (List.range i.clusters).all (fun c => n == 0 || decide (c / n < run.sub) ||
    (let k := run.live.getD (c % n) 0
    (s.liveOf (k / 4)).contains k))

/-- An image is inside an image tick of a running step: its new fold waits for the next one (R44). -/
def Sess.midTick (x : Sess) (h : Nat) : Bool :=
  match x.running with
  | some run => run.item.image == h && run.finish.isNone && run.sub != 0
  | none => false

/-- The fold of a loaded image recomputed on its session's live clusters; a change is a notice (R44, R295, R307). -/
def State.refoldImage (s : State) (x : Sess) (h : Nat) (i : Image) : State :=
  let f := foldOf i.clusters (s.live x.regions).length
  if x.midTick h || f == i.fold then s
  else
    let s := s.setSess x.id (fun y => { y with images := modify {} y.images h (fun i => { i with fold := f }) })
    s.notify x.id 1

/-- The folds of every loaded image recomputed on the partitions as they stand (R44, R48 step 3). -/
def State.refoldImages (s : State) : State :=
  s.sess.foldl (fun s x => x.images.foldl (fun s p => s.refoldImage x p.1 p.2) s) s

/-- Bindings of the running steps recomputed on the partitions as they stand (R44, R48 step 3). -/
def State.rebindRuns (s : State) : State :=
  s.runs.foldl (fun s p =>
    match s.session p.1.id with
    | none => s
    | some x =>
      let run := p.2
      let live := s.live x.regions
      if run.sub ≠ 0 then
        if s.restHolds (x.imageOf run) run then s else s.setRun x.id (fun r => { r with finish := some 0xF })
      else if run.begun && live == run.live then s
      else s.rebind x run live) s

/-- Folds and bindings recomputed on the partitions as they stand (R44, R48 step 3). -/
def State.refold (s : State) : State := s.rebindRuns.refoldImages

/-- Sessions whose partition's live count changed get the notice (R295, R307). -/
def State.noteCapacity (s : State) : State :=
  s.sess.foldl (fun s x =>
    let n := (s.live x.regions).length
    if n = x.lastCap then s
    else
      let s := s.setSess x.id (fun y => { y with lastCap := n })
      if x.opening then s else s.notify x.id 2) s

/-- The work of one image tile in a sub-tick put into its slot (R36 to R38, R42, R113, R116, R118). -/
def State.placeTile (s : State) (x : Sess) (run : Run) (tile : Nat) : State :=
  let i := x.imageOf run
  let (c, base) := run.bindOf (tile / 8)
  let slot := s.units.slotOf (c * 8 + tile % 8)
  let ps := ((i.tickPasses run.tick).map i.passEnt).filter (fun p => p.tile == tile)
  let ts := ((i.tickTasks run.tick).map i.taskEnt).filter (fun t => t.tile == tile)
  let ctx := fun (k : Nat) => match ts.find? (fun t => t.ctx == k) with
    | some t => startCtx t.progAddr t.arg t.budget
    | none => {}
  let has := fun (k : Nat) => ts.any (fun t => t.ctx == k)
  let t := s.tile slot
  s.putTile slot { t with
    job := if ps.isEmpty && ts.isEmpty then none else some {
      sess := x.id, image := run.item.image, tile := tile, sub := run.sub, sliceBase := base, sessSeed := x.seed,
      schedSeed := i.schedSeed, counter := run.item.counter, carry := i.carry }
    passes := ps.map (fun p => {
      seq := p.seq, ctx := p.ctx, waitArm := bitAt p.pflags 0, budget := p.budget, desc := i.passDesc p,
      released := !has p.ctx })
    array := [], crq := [], sqTaken := 0, tqTaken := 0
    cur := ((List.range 4).find? has).getD t.cur
    ctx0 := ctx 0, ctx1 := ctx 1, ctx2 := ctx 2, ctx3 := ctx 3, tickOvf := 0 }

/-- The hardware stream that carries an image stream on an engine (R147). -/
def State.boundTo (s : State) (r key : Nat) : Option Nat :=
  (List.range 32).find? (fun n => (s.stream r n).bound == some key)

/-- The image clusters that run in a sub-tick (R40). -/
def Run.clustersIn (run : Run) (clusters : Nat) : List Nat :=
  (List.range clusters).filter (fun c => run.live.length ≠ 0 && c / run.live.length == run.sub)

/-- The arm-list entries of the tick whose rings are hosted with a cluster a test names take effect, in list order
(R147, R159). -/
def State.armRings (s : State) (x : Sess) (run : Run) (hosted : Nat → Bool) : State :=
  let i := x.imageOf run
  (i.tickArms run.tick).foldl (fun s k =>
    let a := i.armEnt k
    let c := i.ringCluster a
    if hosted c then
      let r := (run.bindOf c).1 / 4
      match s.boundTo r (32 * a.region + a.stream) with
      | some n =>
        let seq := s.tick.armSeq
        let s := { s with tick := { s.tick with armSeq := seq + 1 } }
        s.arm r n { off := a.off, count := a.count, tick := s.tick.count, seq := seq, sess := x.id,
                    image := run.item.image, imgCluster := c }
      | none => s
    else s) s

/-- The work of a run's sub-tick placed and armed (R29, R41). -/
def State.placeRun (s : State) (x : Sess) (run : Run) : State :=
  let i := x.imageOf run
  let cs := run.clustersIn i.clusters
  let s := s.setRun x.id (fun r => { r with
    begun := true, startTick := if r.begun then r.startTick else s.tick.count, lastTick := s.tick.count })
  let s := (cs.flatMap (fun c => (List.range 8).map (fun k => 8 * c + k))).foldl (fun s t => s.placeTile x run t) s
  s.armRings x run (fun c => cs.contains c)

/-- A region has no work left: every tile is done and no stream holds a ring (R29, R117). -/
def State.regionThrough (s : State) (r : Nat) : Bool :=
  s.tiles.all (fun p => p.1 / 36 != r || p.2.job.isNone || tileDone p.2) &&
    (s.engine r).streams.all (fun p => p.2.ring.isNone && p.2.shadow.isNone)

/-- A region has no work in the tick at all. -/
def State.regionIdle (s : State) (r : Nat) : Bool :=
  s.tiles.all (fun p => p.1 / 36 != r || p.2.job.isNone) &&
    (s.engine r).streams.all (fun p => p.2.ring.isNone && p.2.shadow.isNone)

/-- The digest of a region from its clusters' records (R213). -/
def State.regionDigest (s : State) (r : Nat) : DWord :=
  (List.range 4).foldl (fun d k => d ^^^ look 0 s.tick.cdig (4 * r + k)) 0

/-- The package digest of the tick (R213). -/
def State.tickDigest (s : State) : DWord := s.tick.cdig.foldl (fun d p => d ^^^ p.2) 0

/-- The digest chained over tick digests (R213, R215). -/
def chainDigest (l : List DWord) : Nat := crc64 (l.flatMap (fun d => leBytes 8 d.toNat))

/-- The image tick after which a run ends: a step's last, or a replay's tick (R215). -/
def Run.lastImageTick (run : Run) (i : Image) : Nat :=
  match run.item.replay with | some q => q.tick | none => i.stepTicks - 1

/-- The log entries of a commit group that ends with this image tick (R214): a digest each. -/
def State.logDigests (s : State) (x : Sess) (i : Image) (run : Run) (digests : List DWord) (t : Nat) : State :=
  if bitAt (i.tickEnt t).tflags 1 then
    let from_ := (((List.range t).filter (fun u => bitAt (i.tickEnt u).tflags 1)).getLast?.map (· + 1)).getD 0
    (List.range (t + 1 - from_)).foldl (fun s k =>
      s.note .digests 0 x.id (leBytes 8 (digests.getD (from_ + k) 0).toNat ++ leBytes 8 run.item.counter ++
        leBytes 4 (from_ + k))) s
  else s

/-- A step that a test of its run ends at this boundary does so (R44, R291, R306); the command that cancelled it learns
whether it was stopped. -/
def State.endIf (s : State) (id : Nat) (finish : Option Nat) (cancelled : Bool) : State :=
  match finish with
  | none => s
  | some _ =>
    let s := s.setRun id (fun r => { r with finish := finish })
    s.release (fun w => w == .stepStop id) (fun o => { o with fields := o.fields ++ [(0x124, leBytes 4 (b2n cancelled))] })

/-- Bytes of a tile's local memory in the order of R17; those of its queues stand in no promised arrangement and are free
(R160, log entry 24). -/
def State.tileBytes (s : State) (slot off len : Nat) : List Byte × State :=
  let l := rdBytes (s.tile slot).loc off len
  if off + len ≤ 0x80000 ∨ 0x90000 ≤ off then (l, s)
  else
    let (f, s) := s.drawBytes len
    (l.zipIdx.map (fun q => if 0x80000 ≤ off + q.2 ∧ off + q.2 < 0x90000 then f.getD q.2 0 else q.1), s)

/-- What a replay of a tile's local memory keeps as the sub-tick of its tile in the replayed image tick ends (R41, R215): a
later sub-tick runs another tile there. -/
def State.snapTile (s : State) (run : Run) : List Byte × State :=
  match run.item.replay with
  | none => (run.snap, s)
  | some rp =>
    if rp.target = 2 ∧ run.tick = rp.tick ∧ run.live.length ≠ 0 ∧ rp.unit / 8 / run.live.length = run.sub then
      s.tileBytes (s.units.slotOf ((run.bindOf (rp.unit / 8)).1 * 8 + rp.unit % 8)) rp.offset rp.length
    else (run.snap, s)

/-- A running step advances by the tick that has closed (R41, R161, R213, R292). -/
def State.advance (s : State) (x : Sess) (run : Run) : State :=
  let i := x.imageOf run
  let dig := (members x.regions).foldl (fun d r => d ^^^ s.regionDigest r) run.curDigest
  let ovf := (s.tiles.filter (fun p => match p.2.job with | some j => j.sess == x.id | none => false)).foldl
    (fun n p => n + p.2.tickOvf) run.ovf
  let whole := decide (run.fold ≤ run.sub + 1)
  let (snap, s) := s.snapTile run
  let digests := if whole then run.digests ++ [dig] else run.digests
  let s := if whole then { s with bufs := run.live.foldl (fun t c => modify {} t c (fun b => { b with rd := !b.rd })) s.bufs }
    else s
  let s := if whole then s.logDigests x i run digests run.tick else s
  let s := s.setRun x.id (fun _ => { run with
    curDigest := if whole then 0 else dig, digests := digests, ovf := ovf, snap := snap,
    sub := if whole then 0 else run.sub + 1, tick := if whole then run.tick + 1 else run.tick })
  let last := whole && decide (run.lastImageTick i ≤ run.tick)
  s.endIf x.id (match run.stop with
    | some c => some c
    | none => if last then some 0 else if run.cancel then some 0xF else none) (run.cancel && run.stop.isNone && !last)

/-- The steps advance by the closed tick (R29, R213). -/
def State.settle (s : State) : State :=
  let s := (s.runs.filter (fun p => p.2.begun)).foldl (fun s p => s.advance p.1 p.2) s
  ({ s with tick := { s.tick with settled := true } }).decideLoads

/-- Steps told to stop since the tick closed end at this boundary. -/
def State.settleStops (s : State) : State :=
  s.runs.foldl (fun s p => s.endIf p.1.id (match p.2.stop with
    | some c => some c
    | none => if p.2.cancel then some 0xF else none) (p.2.cancel && p.2.stop.isNone)) s

/-- The tick closes (R29, R213): every Rooster is done. Out of shadow service the steps advance at once; in it, once the
two parts' digests have been compared (R321, R335). -/
def State.closeTick (s : State) : State :=
  let s := { s with tick := { s.tick with active := false, closed := true } }
  if s.pair.shadow then s else s.settle

/-- The tick closes if every Rooster is done. -/
def State.maybeClose (s : State) : State :=
  if s.tick.active && s.tick.done == 0xFFFFFFFFFFFFFFFF then s.closeTick else s

/-- A region is fenced (R369, R370): its blocks are gated, its work dropped at once and its fabric isolated, steps that
use its clusters stop, the owner is told, and its Rooster reports done on its behalf. -/
def State.shutRegion (s : State) (r : Nat) : State :=
  let s := { s with clk := { s.clk with gateRegion := put 0 s.clk.gateRegion r 0 } }
  let s := s.stopUsers (fun x run => (run.used (x.imageOf run).clusters).any (fun c => c / 4 == r)) 0xF
  let s := s.dropWork r
  let s := s.fenceFabric r
  let o := (s.region r).owner
  let s := if o = 0 then s else s.notify o 4
  let s := s.note .unit r 0 []
  { s with tick := { s.tick with done := withBit s.tick.done r true } }

/-- A region fenced; a second one of its die fences the die (R368, R370). -/
def State.fenceRegion (s : State) (r : Nat) : State :=
  if s.units.fenced r then s
  else
    let s := { s with units := { s.units with fencedRegions := withBit s.units.fencedRegions r true } }
    let s := if s.units.fencedRegions.getLsbD (r ^^^ 1) then
        { s with units := { s.units with dieFenced := s.units.dieFenced ||| bitW (r / 2) true } } else s
    s.shutRegion r

/-- A die fenced, with both its regions (R368, R370). -/
def State.fenceDie (s : State) (d : Nat) : State :=
  if s.units.dieFenced.getLsbD d then s
  else
    let fresh := [2 * d, 2 * d + 1].filter (fun r => !s.units.fenced r)
    let s := { s with units := { s.units with dieFenced := s.units.dieFenced ||| bitW d true } }
    fresh.foldl State.shutRegion s

/-- The identity of a slot moves to its cluster's mule, with its local memory, the operand queues in it, or without (R17,
R52, R53, R59, R160); none when no mule is free. -/
def State.moveIdentity (s : State) (i : Nat) (copy : Bool) : Option State :=
  let c := i / 9
  match s.units.tileOf i, s.units.mule c with
  | some lt, some m =>
    let ps := setAt (s.units.places c) (lt % 8) (fun _ => m)
    let s := { s with units := { s.units with
      place := put (List.range 8) s.units.place c ps, retiredSlots := s.units.retiredSlots ++ [i] } }
    let t := s.tile i
    let s := s.putTile (c * 9 + m) (if copy then { s.tile (c * 9 + m) with loc := t.loc, sq := t.sq, tq := t.tq }
      else { s.tile (c * 9 + m) with sq := [], tq := [], sq0 := [], tq0 := [] })
    some (s.putTile i { r := t.r })
  | _, _ => none

/-- A cluster retired: its nine slots and its buffer (R368, R372). -/
def State.retireCluster (s : State) (c : Nat) : State :=
  if s.units.retiredClusters.contains c then s
  else
    let more := ((List.range 9).map (fun p => c * 9 + p)).filter (fun i => !s.units.retiredSlots.contains i)
    let s := { s with units := { s.units with
      retiredClusters := s.units.retiredClusters ++ [c], retiredSlots := s.units.retiredSlots ++ more } }
    s.note .unit c 0 []

/-- A slot retired at a boundary (R52, R53, R372): the spare goes, or the identity moves with a copy, or the cluster is
retired. -/
def State.retireSlot (s : State) (i : Nat) : State :=
  if s.units.retiredSlots.contains i then s
  else match s.units.tileOf i with
    | none => { s with units := { s.units with retiredSlots := s.units.retiredSlots ++ [i] } }
    | some _ =>
      match s.moveIdentity i true with
      | some s => ({ s with tick := { s.tick with copying := s.tick.copying + 1 } }).note .unit i 0 []
      | none => s.retireCluster (i / 9)

/-- A slot in service again: its cluster's spare (R314, R373). -/
def State.restoreSlot (s : State) (i : Nat) : State :=
  if s.units.retiredClusters.contains (i / 9) then s
  else { s with units := { s.units with retiredSlots := s.units.retiredSlots.filter (fun j => j != i) } }

/-- A cluster's slots placed as at stage 1 with the failing slots known (R357); none with two or more failures. -/
def placedWith (fails : List Nat) : Option (List Nat) :=
  match fails with
  | [] => some (List.range 8)
  | [f] => some ((List.range 8).map (fun k => if k = f then 8 else k))
  | _ => none

/-- A retired cluster in service again, with at most one failing slot (R373). -/
def State.restoreCluster (s : State) (c : Nat) (fails : List Nat) : State :=
  match if fails.contains 9 then none else placedWith fails with
  | none => s
  | some ps => { s with
      units := { s.units with
        place := put (List.range 8) s.units.place c ps
        retiredClusters := s.units.retiredClusters.filter (fun d => d != c)
        retiredSlots := s.units.retiredSlots.filter (fun i => i / 9 != c) ++ fails.map (fun f => c * 9 + f) }
      bufs := modify {} s.bufs c (fun b => { b with lost := false }) }

/-- The gate word of a region in service (R382). -/
def regionGates : Word := 0x000001EF

/-- A fence lifted: the region's clocks run and it passes a changeover before any grant (R373). -/
def State.unfence (s : State) (r : Nat) : State :=
  let s := { s with units := { s.units with fencedRegions := withBit s.units.fencedRegions r false } }
  if s.units.fenced r then s
  else
    let s := { s with clk := { s.clk with gateRegion := put 0 s.clk.gateRegion r regionGates } }
    s.changeover r

end Sys2Proof.Machine
end

