-- ==== Sys2Proof/Machine/PairCopy.lean ====
section
/-! DEFINITION. What the parts of a pair copy to one another in a rejoin or a checkpoint, and how a part takes it on (12:
R346 to R350). -/

namespace Sys2Proof.Machine

/-- The pages of every allocation and placed tensor (R347, R348). -/
def Sess.pages (x : Sess) : List Nat :=
  x.allocs.flatMap (fun a => pagesOf a.addr a.size) ++
    x.images.flatMap (fun p => (List.range p.2.tensors).flatMap (fun t =>
      if p.2.tKind t < 2 then pagesOf (look 0 p.2.place t) (up64k (p.2.tBytes t)) else []))

/-- A page of device memory as it crosses the link (R347). -/
def State.pageOut (s : State) (n : Nat) : Input :=
  .page n (s.mem.filter (fun c => decide (65536 * n ≤ c.1) && decide (c.1 < 65536 * (n + 1))))

/-- The record of a session with its claims (R347, R348). -/
def State.copyOf (s : State) (x : Sess) : Input :=
  .session { sess := x, opens := s.dev.openCount
             claims := x.mbs.map (fun n => let m := s.mb n; ⟨n, m.claims, m.tag, m.seq⟩) }

/-- The clusters that running steps use. -/
def State.usedClusters (s : State) : List Nat := (s.runs.flatMap (fun p => p.2.live)).eraseDups

/-- The state of the running steps and of the sessions, which follows the last pages of a rejoin (R347). -/
def State.stateOut (s : State) : List Input :=
  s.usedClusters.map (fun c => .bank c (s.buf c).read) ++
    s.usedClusters.flatMap (fun c => (List.range 9).map (fun p =>
      let t := s.tile (9 * c + p)
      .tile (9 * c + p) t.loc t.sq t.tq)) ++
    s.sess.map s.copyOf

/-- A mailbox claimed as in the other part; one that serves a session here stays as it is (R347, R350; log entry 62). -/
def State.takeClaim (s : State) (id : Nat) (c : Claim) : State :=
  if (s.mb c.mb).sess ≠ 0 then s
  else s.setMb c.mb (fun m => { m with
    claims := c.claims, claimed := true, tag := c.tag, seq := c.seq, sess := id, opened := true })

/-- A session of the other part taken on (R347, R350); an identifier in use here stays with its session (log entry 62). -/
def State.takeSession (s : State) (c : SessCopy) : State :=
  if (s.session c.sess.id).isSome then s
  else
    let s := { s with sess := s.sess ++ [c.sess], dev := { s.dev with openCount := Nat.max s.dev.openCount c.opens } }
    let s := (members c.sess.regions).foldl (fun s r => s.setRegion r (fun x => { x with owner := c.sess.id })) s
    c.claims.foldl (fun s k => s.takeClaim c.sess.id k) s

/-- Cells written to a memory one after another. -/
def wrCells (m : Mem) (l : Mem) : Mem := l.foldl (fun t c => wrByte t c.1 c.2) m

/-- A cluster buffer with the readable bank replaced. -/
def ClusterBuf.setRead (b : ClusterBuf) (m : Mem) : ClusterBuf := if b.rd then { b with bank1 := m } else { b with bank0 := m }

/-- A received part of a transfer put in place (R347, R350). -/
def State.takePart (s : State) : Input → State
  | .page n m =>
    let cells := m.filter (fun c => decide (65536 * n ≤ c.1) && decide (c.1 < 65536 * (n + 1)))
    { s with mem := wrCells (clearRange s.mem (65536 * n) 65536) cells }
  | .bank c m => s.putBuf c ((s.buf c).setRead (wrCells [] m))
  | .tile i m sq tq => s.putTile i { s.tile i with loc := wrCells [] m, sq := sq, tq := tq }
  | .session c => s.takeSession c
  | .order _ _ | .write _ _ | .word _ _ | .stepStart _ | .loadStart _ | .retire _ _ => s

end Sys2Proof.Machine
end

