-- ==== Sys2Proof/Machine/Cmd.lean ====
section
/-! DEFINITION. One command of Icura from its go write to its answer (11): acceptance (R280, R281), the checks of R285,
the payload (R275), and what a command's own meaning answers with. -/

namespace Sys2Proof.Machine

/-- What a row of R298 and its parameter table say of a command: opcode, whether it needs a session, whether it is
privileged, its payload (0 none, 1 in, 2 out), the parameter bytes it defines as (offset in the mailbox, length), its rules
for the reserved bits of those and for `PAY_LEN` (R285 item 4), and whether a pair orders it (R329). -/
structure Cmd where
  opcode : Nat
  needs : Bool := true
  priv : Bool := false
  pay : Nat := 0
  used : List (Nat × Nat) := []
  form : Go → Option Fail := fun _ => none
  ordered : Bool := false

/-- What a command's own meaning does: it is answered at once, or waits with what it has gathered (R298). -/
inductive Reply where
  | done (o : Outcome)
  | wait (w : WaitFor) (o : Outcome := {})

/-- A failing check's answer. -/
def Fail.outcome (f : Fail) : Outcome := { code := f.code, detail := f.detail, shortfall := f.short }

/-- A parameter field by its offset in the mailbox (R273). -/
def par (g : Go) (off n : Nat) : Nat := fld g.params (off - 0x20) n

/-- Parameter bytes by their offset in the mailbox. -/
def raw (g : Go) (off n : Nat) : List Byte := slice g.params (off - 0x20) n

/-- The host reaches the mailbox window: the link carries it, the function is in D0, and the port is clocked (R271,
R383, R399). -/
def State.reachable (s : State) : Bool :=
  s.dev.pwrGood && s.cxl.up && !s.cxl.d3 && (s.gateIsle 0).getLsbD 24 && !s.cxl.ideStopped.getLsbD 0

/-- The sequence number that the next accepted go write carries (R280). -/
def Mailbox.nextSeq (m : Mailbox) : Nat := if m.seq + 1 = 2 ^ 32 then 1 else m.seq + 1

/-- A go write of a value starts a command (R280). -/
def Mailbox.takes (m : Mailbox) (v : Nat) : Bool := m.claimed && m.busy.isNone && v == m.nextSeq

/-- A go write on a mailbox of the window is accepted (R278, R280, R296). -/
def State.accepts (s : State) (n v : Nat) : Bool :=
  s.reachable && s.serving && decide (1 ≤ n) && decide (n < 256) && (s.mb n).takes v

/-- A go write that is ignored and counted (R280). -/
def State.ignoreGo (s : State) (n : Nat) : State :=
  (s.raise (.mbStatus n) 0x10000000).setMb n (fun m => { m with goIgnored := m.goIgnored + 1 })

/-- The header and the parameters of a command as they stand in its mailbox (R273, R274). -/
def goHeader (g : Go) (opcode : Nat) : List Byte :=
  leBytes 2 opcode ++ leBytes 2 g.flags.toNat ++ leBytes 4 g.session.toNat ++ leBytes 8 g.tag.toNat ++
    leBytes 4 g.payLen.toNat ++ leBytes 4 g.rsv.toNat ++ leBytes 8 g.payAddr.toNat ++ fit 224 g.params

/-- A go write accepted (R281): the sequence number recorded, the status word at busy, what the host wrote for it in the
mailbox. `CODE` stays that of the last completed command (R283). -/
def State.accept (s : State) (opcode : Nat) (g : Go) : State :=
  s.setMb g.mb (fun m => { m with
    seq := g.go.toNat, state := 1, statusSeq := g.go.toNat % 256, hdr := wrBytes m.hdr 0 (goHeader g opcode)
    opened := m.opened || opcode == 0x10
    busy := some { opcode := opcode, go := g, wait := .ready }
    inl := if g.flags.getLsbD 0 then wrBytes m.inl 0 (g.payload.take 3328) else m.inl })

/-- The session a command acts for, when it is open and bound to the mailbox and not closing (R285). -/
def State.sessOf (s : State) (g : Go) : Option Sess :=
  match s.session g.session.toNat with
  | some x => if (s.mb g.mb).sess = x.id && !x.closing then some x else none
  | none => none

/-- The bytes from offset `o` on are 0 but for those of the fields named. -/
def restZero (used : List (Nat × Nat)) : Nat → List Byte → Bool
  | _, [] => true
  | o, b :: r => (b == 0 || used.any (fun u => decide (u.1 ≤ o) && decide (o < u.1 + u.2))) && restZero used (o + 1) r

/-- Every parameter byte that a command does not define is 0 (R285). -/
def reservedOk (g : Go) (used : List (Nat × Nat)) : Bool := restZero used 0x20 (g.params.take 224)

/-- The device range of a payload lies where the session may have it (R275). -/
def State.devRangeOk (s : State) (x : Option Sess) (a n : Nat) : Bool :=
  match x with
  | none => false
  | some x =>
    x.allocs.any (fun r => decide (r.addr ≤ a) && decide (a + n ≤ r.addr + r.size)) ||
      (x.priv && s.isDram a && (n == 0 || s.isDram (a + n - 1)))

/-- A parameter's failure, located by its offset (R284). -/
def badPar (ok : Bool) (code off : Nat) : Option Fail := need ok code (detailOf 5 off)

/-- The bits of a 4-byte field above its defined ones are 0 (R285 item 4). -/
def lowBits (off bits : Nat) (g : Go) : Option Fail := badPar (decide (par g off 4 < 2 ^ bits)) 2 off

/-- A rule of a command's own for `PAY_LEN` (R285 item 4). -/
def payRule (p : Go → Bool) (g : Go) : Option Fail := need (p g) 2 (detailOf 1 0x10)

/-- The checks of R285, items 2 to 4, and those of R275. -/
def State.preCheck (s : State) (c : Cmd) (g : Go) : Option Fail :=
  let x := s.sessOf g
  need (if c.needs then x.isSome else g.session == 0 || x.isSome) 3 <|>
  need (!c.priv || (match x with | some x => x.priv | none => false)) 4 <|>
  need (g.flags.toNat < 4) 2 (detailOf 1 2) <|>
  need (g.rsv == 0) 2 (detailOf 1 0x14) <|>
  need (reservedOk g c.used) 2 <|>
  need (c.pay == 0 || !g.flags.getLsbD 0 || decide (g.payLen.toNat ≤ 3328)) 2 (detailOf 1 0x10) <|>
  c.form g <|>
  need (c.pay == 0 || g.flags.toNat != 2 || s.devRangeOk x g.payAddr.toNat g.payLen.toNat) 4 (detailOf 1 0x18)

/-- The input payload of a command (R275); one in device memory is read behind the writes that are held before it. -/
def State.payload (s : State) (g : Go) : List Byte :=
  if g.flags.toNat = 2 then rdBytes s.memView g.payAddr.toNat g.payLen.toNat else fit g.payLen.toNat g.payload

/-- The transfer of an input payload met an error response or poison (R195, R275, R383). -/
def State.payFails (s : State) (g : Go) : Bool :=
  if g.flags.toNat = 2 then g.payLen != 0 && !s.served g.payAddr.toNat g.payLen.toNat else g.payBad

/-- The fetch of an input payload from device memory: one that is held keeps the command's answer back (R198; log entry
58), another is an access like any (R189, R193). -/
def State.fetchPayload (s : State) (g : Go) : State :=
  let a := g.payAddr.toNat
  let n := g.payLen.toNat
  if g.flags.toNat ≠ 2 || n = 0 then s
  else if s.waits a n then s.holdAccess { kind := .fetch, addr := a, len := n, mb := some g.mb }
  else (s.touch a n false).correctRead a n

/-- A command answered, or left waiting (R282, R298). -/
def State.answer (s : State) (opcode : Nat) (g : Go) : Reply → State
  | .done o => s.postResult opcode g o
  | .wait w o => s.setMb g.mb (fun m => { m with busy := some { opcode := opcode, go := g, wait := w, acc := o } })

/-- A left part answers only a mailbox bound since to a privileged session, and a privileged open (R344). -/
def State.leftOut (s : State) (c : Cmd) (g : Go) : Bool :=
  s.pair.left && (s.mb g.mb).sess == 0 && !(c.opcode == 0x10 && bitAt (par g 0x20 4) 1)

/-- The checks before a command's own meaning: R344, R285 and the payload's transfer. `own` are the command's own checks
that a pair's verdict counts (R330): signatures, owner tags and keys. -/
def State.check (s : State) (c : Cmd) (g : Go) (own : State → Option Fail × State) : Option Fail × State :=
  if s.leftOut c g then (some { code := 0xD }, s)
  else match s.preCheck c g with
  | some f => (some f, s)
  | none =>
    if c.pay = 1 && s.payFails g && c.opcode != 0x50 && c.opcode != 0x51 then (some { code := 0xE }, s)
    else own (if c.pay = 1 then s.fetchPayload g else s)

/-- No check of its own. -/
def noCheck (s : State) : Option Fail × State := (none, s)

/-- A command in shadow service of a pair is ordered first (R329). -/
def State.orders (s : State) (c : Cmd) : Bool := c.ordered && s.pair.shadow

/-- The command digest of R330. -/
def State.cmdDigest (s : State) (c : Cmd) (g : Go) : List Byte :=
  let p := if c.opcode = 0x10 then overlay (overlay g.params 0x28 (zeroBytes 4)) 0x30 (zeroBytes 64) else g.params
  let pay := if c.pay = 1 then
      (let b := s.payload g
      if c.opcode = 0x50 || c.opcode = 0x51 then slice b 0x0C 1 ++ slice b 0x0E 1 ++ slice b 0x10 8 else b)
    else []
  sha256 (leBytes 2 c.opcode ++ leBytes 4 g.session.toNat ++ leBytes 8 g.tag.toNat ++ leBytes 4 g.payLen.toNat ++ p ++ pay)

end Sys2Proof.Machine
end

