-- ==== Sys2Proof/Machine/SessOps.lean ====
section
/-! DEFINITION. The meanings of the session, memory, schedule, step and replay commands (11: R286 to R291, R300 to R308),
without their acceptance and their pair ordering. -/

namespace Sys2Proof.Machine



/-- An answer with an error alone. -/
def err (code : Nat) (detail : Nat := 0) : Reply := .done { code := code, detail := detail }

/-- The regions that the partner has in checkpoint mode (R348): its own sessions' at the primary, the standby copy's at the
secondary. -/
def State.pairRegions (s : State) : DWord :=
  if s.pair.mode = 2 ∧ s.pair.formed then
    s.pair.standby.foldl (fun m c => m ||| c.sess.regions ||| c.sess.grant) s.pair.theirHeld
  else 0

/-- The regions held or being granted elsewhere (R286, R300, R348). -/
def State.heldElsewhere (s : State) (id : Nat) : DWord :=
  let others := s.sess.filter (fun x => x.id != id)
  others.foldl (fun m x => m ||| x.regions ||| x.grant) s.pairRegions

/-- Grants wait for stage 2 when the settings name a flash fabric image (R359). -/
def State.grantsBarred (s : State) : Bool :=
  decide (s.dev.stage < 2) && fld s.dev.atStart 0x80 4 != 0

/-- A lease in its range (R289, R300). -/
def leaseOk (v : Nat) : Bool := v == 0 || (decide (10 ≤ v) && decide (v ≤ 3600000))

/-- A ring length in its range (R292, R300). -/
def ringOk (v : Nat) : Bool := decide (16 ≤ v) && decide (v ≤ 65536) && v == 2 ^ Nat.log2 v

/-- A new nonce for privileged opens (R288). -/
def State.newNonce (s : State) : State :=
  let (b, s) := s.drawBytes 32
  { s with dev := { s.dev with nonce := b } }

/-- `OPEN_SESSION`'s own checks: its parameters (R300, R301), R355, the owner tag (R287) and the signature (R288). DESIGN
CHOICE: a ring address in host memory that is not 4 KiB aligned gets `E_BAD_LENGTH`, a code that no rule gives it (log
entry 56). -/
def ownOpen (g : Go) (s : State) : Option Fail × State :=
  let fl := par g 0x20 4
  let m := s.mb g.mb
  let attach := bitAt fl 0
  let priv := bitAt fl 1
  let ringDev := bitAt fl 2
  match need (!s.dev.pkgFault || priv) 8 <|> need (m.sess == 0) 7 with
  | some f => (some f, s)
  | none =>
    if attach then
      let zero := fl == 1 && par g 0x24 4 == 0 && par g 0x28 8 == 0 && par g 0x30 8 == 0 && par g 0x38 8 == 0 &&
        par g 0x40 4 == 0 && (raw g 0x50 64).all (fun b => b == 0)
      let tagOk := match s.session (par g 0x44 4) with
        | some x => !x.closing && x.mbs.any (fun n => (s.mb n).tag == par g 0x48 4)
        | none => false
      (badPar zero 2 0x20 <|> badPar tagOk 4 0x48, s)
    else
      match badPar (leaseOk (par g 0x24 4)) 2 0x24 <|>
          badPar (if ringDev then par g 0x38 8 == 0 else par g 0x38 8 % 4096 == 0) 2 0x38 <|>
          badPar (ringOk (par g 0x40 4)) 2 0x40 with
      | some f => (some f, s)
      | none =>
        if priv then
          let hash := sha256 (s.dev.nonce ++ leBytes 8 (par g 0x28 8) ++ leBytes 4 g.mb)
          let ok := match s.operKey with
            | some k => ecdsaVerify k hash (raw g 0x50 64)
            | none => false
          (need ok 9 (detailOf 5 0x50), s.newNonce)
        else (none, s)

/-- The identifier of the next session on a mailbox and the count it takes (R286). -/
def nextSession (count mb : Nat) : Nat × Nat :=
  let c := (count + 1) % 2 ^ 24
  let c := if c = 0 then 1 else c
  (c * 256 + mb, c)

/-- `OPEN_SESSION` with `ATTACH` (R287). -/
def coreAttach (g : Go) (s : State) : Reply × State :=
  let id := par g 0x44 4
  match s.session id with
  | none => (err 4, s)
  | some x =>
    if 16 ≤ x.mbs.length then (err 7, s)
    else
      let s := s.setSess id (fun x => { x with mbs := x.mbs ++ [g.mb] })
      let s := s.setMb g.mb (fun m => { m with sess := id })
      (.done { fields := [(0x120, leBytes 4 id), (0x124, leBytes 4 (x.mbs.length + 1)),
                          (0x128, leBytes 8 x.regions.toNat), (0x130, leBytes 8 (s.tick.count + 1))] }, s)

/-- `OPEN_SESSION` (R286 to R289, R300, R301, R359). -/
def coreOpen (g : Go) (s : State) : Reply × State :=
  let fl := par g 0x20 4
  if bitAt fl 0 then coreAttach g s
  else
    let regions := BitVec.ofNat 64 (par g 0x30 8)
    let conflict := regions &&& s.heldElsewhere 0
    let ents := par g 0x40 4
    let size := up64k (ents * 64)
    let occ := s.occupied
    let ringAt := if bitAt fl 2 then s.lowestFree false size occ else some (par g 0x38 8)
    if regions != 0 && s.grantsBarred then (err 8, s)
    else if conflict ≠ 0 then (.done { code := 7, fields := [(0x128, leBytes 8 conflict.toNat)] }, s)
    else match ringAt with
    | none => (.done { code := 5, shortfall := size - s.tierFree false occ }, s)
    | some a =>
      let (id, count) := nextSession s.dev.openCount g.mb
      let s := { s with dev := { s.dev with openCount := count } }
      let s := if bitAt fl 2 then s.devZero a size (some g.mb) else s
      let x : Sess := {
        id := id, mbs := [g.mb], priv := bitAt fl 1, seed := par g 0x28 8, lease := par g 0x24 4,
        allocs := if bitAt fl 2 then [{ addr := a, size := size, ring := true }] else [],
        ring := { addr := a, dev := bitAt fl 2, entries := ents }, grant := regions, opening := true }
      let s := { s with sess := s.sess ++ [x] }
      let s := s.setMb g.mb (fun m => { m with sess := id })
      (.wait (.grant id) { fields := [(0x120, leBytes 4 id), (0x124, leBytes 4 1), (0x128, leBytes 8 regions.toNat),
                                      (0x138, leBytes 8 (if bitAt fl 2 then a else 0))] }, s)

/-- A waiting replay answered, if it still waits. -/
def State.endReplay (s : State) (n id : Nat) (o : Outcome) : State :=
  match (s.mb n).busy with
  | some b => if b.wait == .replay id && !b.done then s.finishBusy n o else s
  | none => s

/-- Queued steps and replays that a test names are removed with a code (R291, R306); how many there were of each. -/
def State.removeQueued (s : State) (id : Nat) (hit : QItem → Bool) (code : Nat) : (Nat × Nat) × State :=
  match s.session id with
  | none => ((0, 0), s)
  | some x =>
    let gone := x.queue.filter hit
    let s := s.setSess id (fun x => { x with queue := x.queue.filter (fun q => !hit q) })
    let s := gone.foldl (fun s q => match q.replay with
      | none => s.postRecord id false (removedRecord q code)
      | some rp => s.endReplay rp.mb id { code := code }) s
    ((gone.length, (gone.filter (fun q => q.replay.isNone)).length), s)

/-- A session begins to close (R289, R291): its queue removed, its step stopped, its other commands ended. `own` is the
mailbox whose command stays. How many steps are aborted. -/
def State.beginClose (s : State) (id : Nat) (own : Option Nat) : Nat × State :=
  match s.session id with
  | none => (0, s)
  | some x =>
    let running := match x.running with
      | some run => run.item.replay.isNone && run.finish.isNone
      | none => false
    let (n, s) := s.removeQueued id (fun _ => true) 0xF
    let s := s.stopStep id 0xF
    let s := x.mbs.foldl (fun s n =>
      if some n = own then s else match (s.mb n).busy with
        | some b => if b.done then s else match b.wait with
          | .load _ => s
          | _ => s.finishBusy n { b.acc with code := 0xF }
        | none => s) s
    let s := s.abortLoads (fun l => l.sess == id && l.mb.isSome)
    (n.2 + b2n running, s.setSess id (fun x => { x with closing := true, grant := 0 }))

/-- `CLOSE_SESSION` (R291). -/
def coreClose (g : Go) (s : State) : Reply × State :=
  let id := (s.mb g.mb).sess
  let (n, s) := s.beginClose id (some g.mb)
  (.wait (.close id) { fields := [(0x120, leBytes 4 n)] }, s)

/-- `SET_SESSION_LIMITS`'s parameter checks (R300). -/
def ownLimits (g : Go) (s : State) : Option Fail × State :=
  let fl := par g 0x20 4
  (badPar (!bitAt fl 0 || Nat.land (par g 0x28 8) (par g 0x30 8) == 0) 2 0x28 <|>
   badPar (!bitAt fl 2 || leaseOk (par g 0x38 4)) 2 0x38, s)

/-- `SET_SESSION_LIMITS` (R197, R289, R300, R359). -/
def coreLimits (g : Go) (s : State) : Reply × State :=
  let fl := par g 0x20 4
  let id := (s.mb g.mb).sess
  let grant := if bitAt fl 0 then BitVec.ofNat 64 (par g 0x28 8) else (0 : DWord)
  let release := if bitAt fl 0 then BitVec.ofNat 64 (par g 0x30 8) else (0 : DWord)
  match s.session id with
  | none => (err 3, s)
  | some x =>
    let conflict := grant &&& s.heldElsewhere id
    if grant != 0 && s.grantsBarred then (err 8, s)
    else if conflict ≠ 0 then (.done { code := 7, fields := [(0x120, leBytes 8 conflict.toNat)] }, s)
    else if release &&& ~~~ x.regions ≠ 0 then (err 4 (detailOf 5 0x30), s)
    else
      let s := s.setSess id (fun x => { x with
        grant := x.grant ||| (grant &&& ~~~ x.regions), release := x.release ||| release,
        lpUnused := if bitAt fl 1 then bitAt fl 3 else x.lpUnused,
        lease := if bitAt fl 2 then par g 0x38 4 else x.lease })
      (.wait (.limits id), s)

/-- The free bytes of the tiers that `TIER` allows (R302). -/
def State.freeFor (s : State) (tier : Nat) (occ : List (Nat × Nat)) : Nat :=
  (if tier = 1 then 0 else s.tierFree false occ) + (if tier = 0 then 0 else s.tierFree true occ)

/-- `ALLOC_MEMORY` (R302, R359). -/
def coreAlloc (g : Go) (s : State) : Reply × State :=
  let id := (s.mb g.mb).sess
  let bytes := par g 0x20 8
  let tier := par g 0x28 1
  let size := up64k bytes
  let occ := s.occupied
  match s.session id with
  | none => (err 3, s)
  | some x =>
    if bytes = 0 || bytes > 2 ^ 40 then (err 2 (detailOf 5 0x20), s)
    else if tier > 2 then (err 4 (detailOf 5 0x28), s)
    else if 4096 ≤ x.allocs.length then (err 7, s)
    else
      let hbm := if tier = 1 then none else s.lowestFree false size occ
      let place := match hbm with
        | some a => some a
        | none => if tier = 0 then none else s.lowestFree true size occ
      if s.dev.stage < 2 && hbm.isNone && tier ≠ 0 then (err 8, s)
      else match place with
      | none => (.done { code := 5, shortfall := size - s.freeFor tier occ }, s)
      | some a =>
        let s := s.devZero a size (some g.mb)
        let s := s.setSess id (fun x => { x with allocs := x.allocs ++ [{ addr := a, size := size }] })
        (.done { fields := [(0x120, leBytes 8 a), (0x128, leBytes 8 size)] }, s)

/-- A replay delivers into a range of device memory (R302). -/
def ReplayReq.into (q : ReplayReq) (a n : Nat) : Bool := q.devDest && meet (a, n) (q.dest, q.length)

/-- A tensor bound into an allocation. -/
def Alloc.holds (r : Alloc) (bound : Tab Nat) : Bool :=
  bound.any (fun b => decide (r.addr ≤ b.2 - 1) && decide (b.2 - 1 < r.addr + r.size))

/-- An allocation is in use (R302, R303): bound by an image or for the running step, or a replay's destination. -/
def Sess.uses (x : Sess) (r : Alloc) : Bool :=
  x.images.any (fun p => r.holds p.2.bound) ||
    x.queue.any (fun q => match q.replay with | some rp => rp.into r.addr r.size | none => false) ||
    (match x.running with
    | some run => r.holds run.bound || (match run.item.replay with | some rp => rp.into r.addr r.size | none => false)
    | none => false)

/-- `FREE_MEMORY` (R301, R302). -/
def coreFree (g : Go) (s : State) : Reply × State :=
  let id := (s.mb g.mb).sess
  let a := par g 0x20 8
  match s.session id with
  | none => (err 3, s)
  | some x =>
    match x.allocs.find? (fun r => r.addr == a && !r.ring) with
    | none => (err 4 (detailOf 5 0x20), s)
    | some r =>
      if x.uses r then (err 7, s)
      else (.done {}, s.setSess id (fun x => { x with allocs := x.allocs.filter (fun q => q != r) }))

/-- Bytes of an image's placed tensors in one tier (R303). -/
def Image.placedIn (i : Image) (lp : Bool) (p : Tab Nat) : Nat :=
  (((List.range i.tensors).filter (fun t => i.tKind t < 2 && isLp (look 0 p t) == lp)).map
    (fun t => up64k (i.tBytes t))).foldl (· + ·) 0

/-- The lowest handle not in use (R303). -/
def Sess.freeHandle (x : Sess) : Option Nat := (List.range 8).find? (fun k => !x.images.any (fun p => p.1 == k))

/-- `LOAD_SCHEDULE` (R196, R199, R200, R303, R359, R451). -/
def coreLoad (g : Go) (s : State) : Reply × State :=
  let id := (s.mb g.mb).sess
  let i : Image := { bytes := s.payload g }
  match s.session id with
  | none => (err 3, s)
  | some x =>
    let live := s.live x.regions
    if s.anyFrozen then (err 8, s)
    else match s.checkImage i g.payLen.toNat live with
    | some f =>
      let s := if f.code = 9 && f.detail = detailOf 1 0xC0 then s.raise .secStatus 0x08000000 else s
      (.done f.outcome, s)
    | none =>
      match x.freeHandle, s.admission i with
      | none, _ => (err 7, s)
      | some _, .error f => (.done f.outcome, s)
      | some h, .ok p =>
        if s.dev.stage < 2 && 0 < i.placedIn true p then (err 8, s)
        else
          let s := s.zeroPlaced i p g.mb
          let f := foldOf i.clusters live.length
          let (v, s) := s.draw
          let i := { i with place := p, fold := f, homes := i.portHomes live, descAt := s.descPlace v }
          let s := s.setSess id (fun x => { x with images := put {} x.images h i })
          (.done { fields := [(0x120, leBytes 1 h), (0x121, leBytes 1 f), (0x122, leBytes 2 live.length),
                              (0x128, leBytes 8 (i.placedIn false p)), (0x130, leBytes 8 (i.placedIn true p))] }, s)

/-- An image of a session by handle; none where the handle names no loaded image (R297, R7). -/
def Sess.image (x : Sess) (h : Nat) : Option Image := (x.images.find? (fun p => p.1 == h)).map (fun p => p.2)

/-- A step or replay of an image is queued or running (R303). -/
def Sess.imageBusy (x : Sess) (h : Nat) : Bool :=
  x.queue.any (fun q => q.image == h) || (match x.running with | some run => run.item.image == h | none => false)

/-- `UNLOAD_SCHEDULE` (R303). -/
def coreUnload (g : Go) (s : State) : Reply × State :=
  let id := (s.mb g.mb).sess
  let h := par g 0x20 1
  match s.session id with
  | none => (err 3, s)
  | some x =>
    match x.image h with
    | none => (err 4 (detailOf 5 0x20), s)
    | some _ =>
      if x.imageBusy h then (err 7, s)
      else (.done {}, s.setSess id (fun x => { x with images := put {} x.images h {} }))

/-- `BIND_TENSOR` (R303). -/
def coreBind (g : Go) (s : State) : Reply × State :=
  let id := (s.mb g.mb).sess
  let h := par g 0x20 1
  let t := par g 0x22 2
  let a := par g 0x28 8
  match s.session id with
  | none => (err 3, s)
  | some x =>
    match x.image h with
    | none => (err 4 (detailOf 5 0x20), s)
    | some i =>
      if !(decide (t < i.tensors) && i.tKind t == 2) then (err 4 (detailOf 5 0x22), s)
      else if !x.allocs.any (fun r => decide (r.addr ≤ a) && decide (a + i.tBytes t ≤ r.addr + r.size)) then
        (err 4 (detailOf 5 0x28), s)
      else (.done {}, s.setSess id (fun x => { x with
        images := modify {} x.images h (fun i => { i with bound := put 0 i.bound t (a + 1) }) }))

/-- The entries of a submission in turn, with the next-step value they leave; the index of the first bad one (R205,
R304). -/
def readEntries (image : Nat) (pay : List Byte) : Nat → Nat → Nat → Except Nat (List QItem × Nat)
  | _, 0, next => .ok ([], next)
  | k, n + 1, next =>
    let e := slice pay (32 * k) 32
    let fl := fld e 0 4
    let ctr := fld e 8 8
    let ok := decide (fl ≤ 1) && fld e 4 4 == 0 && fld e 0x18 8 == 0 && (fl == 1 || ctr == 0) &&
      (fl == 1 || next != 2 ^ 64 - 1)
    if ok then
      let q : QItem := { image := image, counter := if fl = 1 then ctr else next, cookie := fld e 0x10 8, replay := none }
      match readEntries image pay (k + 1) n (if fl = 1 then next else next + 1) with
      | .ok (l, m) => .ok (q :: l, m)
      | .error j => .error j
    else .error k

/-- `SUBMIT_STEPS`'s own check (R304). -/
def ownSubmit (g : Go) (s : State) : Option Fail × State :=
  let n := par g 0x24 4
  (badPar (decide (1 ≤ n) && decide (n ≤ 65536)) 2 0x24, s)

/-- `SUBMIT_STEPS` (R196, R205, R304). -/
def coreSubmit (g : Go) (s : State) : Reply × State :=
  let id := (s.mb g.mb).sess
  let h := par g 0x20 1
  let n := par g 0x24 4
  match s.session id with
  | none => (err 3, s)
  | some x =>
    if s.anyFrozen then (err 8, s)
    else match x.image h with
    | none => (err 4 (detailOf 5 0x20), s)
    | some _ =>
      match readEntries h (s.payload g) 0 n x.next with
      | .error k => (err 2 (detailOf 4 k), s)
      | .ok (l, next) =>
        if 65536 < x.queue.length + n then (err 7, s)
        else (.done { fields := [(0x120, leBytes 4 n), (0x128, leBytes 8 next)] },
              s.setSess id (fun x => { x with queue := x.queue ++ l, next := next }))



/-- `CANCEL_STEPS` (R306). -/
def coreCancel (g : Go) (s : State) : Reply × State :=
  let id := (s.mb g.mb).sess
  let fl := par g 0x20 4
  let first := par g 0x28 8
  let last := par g 0x30 8
  match s.session id with
  | none => (err 3, s)
  | some x =>
    let hit := fun (q : QItem) => bitAt fl 1 || (bitAt fl 0 && decide (first ≤ q.counter) && decide (q.counter ≤ last))
    let (n, s) := s.removeQueued id hit 0xF
    let f := (0x120, leBytes 4 n.1)
    let live := match x.running with | some run => run.finish.isNone | none => false
    if bitAt fl 2 && live then
      (.wait (.stepStop id) { fields := [f] }, s.setRun id (fun run => { run with cancel := true }))
    else (.done { fields := [f] }, s)

/-- The size of a replay's target (R17, R42, R308). -/
def Image.targetSize (i : Image) (target unit : Nat) : Nat :=
  if target = 0 then i.tBytes unit else if target = 1 then 0x1600000 else 0xC0000

/-- Units of a replay's target (R215). -/
def Image.targetUnits (i : Image) (target : Nat) : Nat :=
  if target = 0 then i.tensors else if target = 1 then i.clusters else i.tiles

/-- `REPLAY_INTERMEDIATE`'s own parameter checks (R308). -/
def ownReplay (g : Go) (s : State) : Option Fail × State :=
  (badPar (par g 0x21 1 ≤ 2) 4 0x21 <|>
   badPar (decide (1 ≤ par g 0x38 8) && decide (par g 0x38 8 ≤ 2 ^ 32)) 2 0x38, s)

/-- `REPLAY_INTERMEDIATE` (R215, R218, R275, R308). -/
def coreReplay (g : Go) (s : State) : Reply × State :=
  let id := (s.mb g.mb).sess
  let h := par g 0x20 1
  let target := par g 0x21 1
  let unit := par g 0x22 2
  let len := par g 0x38 8
  let dev := bitAt (par g 0x48 4) 0
  match s.session id with
  | none => (err 3, s)
  | some x =>
    match x.image h with
    | none => (err 4 (detailOf 5 0x20), s)
    | some i =>
      if i.targetUnits target ≤ unit then (err 4 (detailOf 5 0x22), s)
      else if i.stepTicks ≤ par g 0x24 4 then (err 4 (detailOf 5 0x24), s)
      else if i.targetSize target unit < par g 0x30 8 + len then (err 4 (detailOf 5 0x30), s)
      else if dev && !s.devRangeOk (some x) (par g 0x40 8) len then (err 4 (detailOf 5 0x40), s)
      else if 65536 < x.queue.length + 1 then (err 7, s)
      else
        let q : QItem := { image := h, counter := par g 0x28 8, cookie := 0, replay := some {
          mb := g.mb, target := target, unit := unit, tick := par g 0x24 4, offset := par g 0x30 8, length := len,
          dest := par g 0x40 8, devDest := dev } }
        (.wait (.replay id), s.setSess id (fun x => { x with queue := x.queue ++ [q] }))

end Sys2Proof.Machine
end

