-- ==== Sys2Proof/Machine/SecOps.lean ====
section
/-! DEFINITION. What chapter 16 derives and checks: the keys of R417, the sealed key store (R425, R426), firmware images
(R420, R421), the rollback exchange (R423) and the measurements (R427). -/

namespace Sys2Proof.Machine

/-- The identity private key from the seed (R417). -/
def identityOf (seed : List Byte) : Nat := 1 + ofBe (hkdf seed [] (ascii "LQID") 40) % (p256N - 1)

/-- The sealing key from the seed (R417). -/
def sealKeyOf (seed : List Byte) : List Byte := hkdf seed [] (ascii "LQSEAL") 32

/-- The identity public key, X then Y; none without an identity (R417, R418). -/
def State.idPublic (s : State) : Option (List Byte) :=
  match s.sec.idKey with
  | none => none
  | some d => (toAffine (pointMul d p256G)).map (fun q => beBytes 32 q.1 ++ beBytes 32 q.2)

/-- A slot of the sealed key store. -/
def State.sealSlot (s : State) (k : Nat) : SealSlot := look {} s.flash.seals k

/-- The nonce of a slot's ciphertext (R425). -/
def sealNonce (k gen : Nat) : List Byte := leBytes 4 k ++ leBytes 4 gen ++ zeroBytes 4

/-- The user key of a slot, if it is occupied and unseals under the identity (R253, R425). -/
def State.unseal (s : State) (k : Nat) : Option (List Byte) :=
  let x := s.sealSlot k
  match x.cipher, s.sec.idKey with
  | some (c, t), some _ => gcmOpen s.sec.kSeal (sealNonce k x.gen) [] c t
  | _, _ => none

/-- The envelope as it stands in the buffer (R426). -/
def State.envelope (s : State) : List Byte := (List.range 32).flatMap (fun w => leBytes 4 (look 0 s.sec.sealBuf w).toNat)

/-- The key that an envelope wraps: a result code, or the key (R426). -/
def State.unwrap (s : State) (env : List Byte) : Except Nat (List Byte) :=
  match s.sec.idKey with
  | none => .error 6
  | some d =>
    match ecdhX d (slice env 0x10 64) with
    | none => .error 3
    | some x =>
      let w := hkdf x s.deviceId (ascii "LQSEAL-IN" ++ slice env 1 1) 32
      match gcmOpen w (zeroBytes 12) (env.take 16) (slice env 0x50 32) (slice env 0x70 16) with
      | some k => .ok k
      | none => .error 4

/-- An operation of the sealed key store ends (R426): its result, the buffer cleared. -/
def State.sealEnd (s : State) (result : Nat) : State :=
  { s with sec := { s.sec with busy := false, sealResult := result, sealBuf := [] } }

/-- The checks of an envelope before its key (R426): `OP`, `SLOT` and reserved bytes, identity, `GEN`. -/
def State.envelopeFault (s : State) (env : List Byte) : Option Nat :=
  let op := fld env 0 1
  let slot := fld env 1 1
  let opOk := (op == 1 || op == 2 || op == 3) && decide (slot < 8) && (op != 3 || slot == 0) && zeros env 2 2 &&
    zeros env 8 8 && (op == 1 || zeros env 0x10 0x70)
  let genOk := if op = 3 then fld env 4 4 == 0 else fld env 4 4 == ((s.sealSlot slot).gen + 1) % 2 ^ 32
  if !opOk then some 1 else if s.sec.idKey.isNone then some 6 else if !genOk then some 2 else none

/-- A firmware header's fixed fields (R420, R421 step 1). -/
def fwKnown (h : List Byte) : Bool :=
  fld h 0 4 == 0x5746514C && fld h 4 2 == 1 && fld h 6 2 == 1 && fld h 8 2 == 0x3216

/-- A firmware header's reserved bytes and lengths (R421 step 2). -/
def fwShaped (h : List Byte) (len : Nat) : Bool :=
  zeros h 0x12 14 && zeros h 0x2C 4 && zeros h 0x70 336 && decide (1 ≤ fld h 0x28 4) && decide (fld h 0x28 4 ≤ 2048) &&
    512 + fld h 0x20 8 + fld h 0x28 4 == len && decide (len ≤ 64 * 2 ^ 20)

/-- Step 5 of R421: the security version against the counter. -/
def fwFresh (h : List Byte) (rb : Option Nat) : Bool :=
  match rb with
  | none => true
  | some c => decide (c ≤ fld h 0xA 2)

/-- A valid answer of the root of trust to a nonce (R423). -/
def rbValid (key nonce : List Byte) (a : RbAnswer) : Bool :=
  a.inTime && decide (a.counter < 2 ^ 32) &&
    ecdsaVerify key (sha256 (ascii "LQRB" ++ nonce ++ leBytes 4 a.counter)) a.sig

/-- The settings copy in use as bytes; none when the defaults are in use (R427). -/
def State.copyInUse (s : State) : Option (List Byte) :=
  if s.dev.setCopy = 1 then some s.flash.setA else if s.dev.setCopy = 2 then some s.flash.setB else none

/-- Measurement `i` of R427. -/
def State.measurement (s : State) (i : Nat) : List Byte :=
  if i = 1 then s.sec.romHash
  else if i = 2 then sha256 s.dev.fw
  else if i = 3 then (match s.copyInUse with | some b => sha256 b | none => zeroBytes 32)
  else if i = 4 then sha256 ((List.range 64).flatMap (fun r =>
    let f := s.fabric r
    leBytes 8 (if f.configured then f.imageId else 0)))
  else sha256 ((List.range 8).flatMap (fun k =>
      let x := s.sealSlot k
      leBytes 4 x.gen ++ leBytes 1 (b2n x.cipher.isSome)) ++ leBytes 1 (b2n s.flash.enrolment.isSome))

/-- The reset reads of a signature's per-message secret: the manual gives none, so it is a free value (log entry 7). -/
def State.signId (s : State) (msg : List Byte) : List Byte × State :=
  match s.sec.idKey with
  | none => (zeroBytes 64, s)
  | some d =>
    let (k, s) := s.draw
    (ecdsaSign d (1 + k % (p256N - 1)) (sha256 msg), s)

end Sys2Proof.Machine
end

