-- ==== Sys2Proof/Machine/FabAccept.lean ====
section
/-! DEFINITION. The acceptance of a fabric image (10): its header (R252), ownership, chains and key (R250, R253, R259). -/

namespace Sys2Proof.Machine

/-- The header checks of R252 in order of offset. `region` is the region or scope that the command names; `full` says
that the command carries full images rather than partial ones. -/
def fabHeader (b : List Byte) (full : Bool) (region : Nat) : Option Fail :=
  let at_ := fun (o : Nat) => detailOf 1 o
  let kind := fld b 0xC 1
  let src := fld b 0xD 1
  let target := fld b 0xE 1
  let slot := fld b 0xF 1
  let id := fld b 0x10 8
  let len := fld b 0x18 8
  need (fld b 0 4 == 0x4246514C) 0xA (at_ 0) <|> need (fld b 4 2 == 1) 0xA (at_ 4) <|>
  need (fld b 6 2 == 256) 2 (at_ 6) <|> need (fld b 8 2 == 1) 0xA (at_ 8) <|> need (fld b 0xA 2 == 0x3216) 0xA (at_ 0xA) <|>
  need (kind ≤ 2) 2 (at_ 0xC) <|> need (src ≤ 2 && (src == 2) == (kind == 2)) 2 (at_ 0xD) <|>
  need (if kind = 0 then target == 0xFF else if kind = 1 then decide (target < 64)
        else decide (target < 64) || target == 0xFF) 2 (at_ 0xE) <|>
  need (target == region && (if full then kind != 1 else kind != 0)) 0xA (at_ 0xE) <|>
  need (if src = 1 then decide (slot < 8) else slot == 0) 2 (at_ 0xF) <|>
  need (kind == 2 || id != 0) 2 (at_ 0x10) <|>
  need (len % 4 == 0 && (if kind = 0 then decide (len ≤ 512 * 2 ^ 20) else if kind = 1 then decide (len ≤ 8 * 2 ^ 20)
        else len == 28)) 2 (at_ 0x18) <|>
  need (src == 0 || zeros b 0x40 64) 2 (at_ 0x40) <|> need (zeros b 0x80 128) 2 (at_ 0x80)

/-- The regions that a load covers (R250, R261). -/
def coveredBy (target : Nat) : DWord := if target = 0xFF then 0xFFFFFFFFFFFFFFFF else withBit 0 target true

/-- The isles whose chains a load uses (R250). -/
def islesOf (covered : DWord) : List Nat := (List.range 4).filter (fun i => (members covered).any (fun r => r / 16 == i))

/-- A chain that a load would use carries one that has not ended, or a region it covers is still being cleared (R250) or in
the start-up order of a load (DESIGN CHOICE, log entry 59: the manual gives no answer there). -/
def State.chainsInUse (s : State) (covered : DWord) : Bool :=
  s.loads.any (fun l => !l.ended && (islesOf l.covered).any (fun i => (islesOf covered).contains i)) ||
    (members covered).any (fun r => (s.fabric r).clearing || (s.fabric r).loading)

/-- The secret of an image's key chain: none where the key check fails (R253, R259). -/
def State.fabSecret (s : State) (b : List Byte) : Option (List Byte) :=
  if fld b 0xD 1 = 0 then
    (match s.sec.idKey with | some d => ecdhX d (slice b 0x40 64) | none => none)
  else if fld b 0xD 1 = 1 then s.unseal (fld b 0xF 1)
  else some []

/-- The first segment key (R258). -/
def firstKey (secret salt : List Byte) : List Byte := hkdf secret salt (ascii "LQFAB-K0") 32

/-- A fabric stream judged (R250, R252, R253): the failure, or the first key. `owned` are the caller's regions; the
flash load of stage 2 has no caller (R270). -/
def State.judgeFabric (s : State) (b : List Byte) (full : Bool) (region : Nat) (owned : Option DWord) :
    Except Fail (List Byte) :=
  if b.length < 256 then .error { code := 0xB, detail := 0 }
  else match fabHeader b full region with
  | some f => .error f
  | none =>
    let covered := coveredBy (fld b 0xE 1)
    let mine := match owned with | some m => covered &&& ~~~ m == 0 | none => true
    if !mine then .error { code := 4 }
    else if s.chainsInUse covered then .error { code := 7 }
    else match s.fabSecret b with
    | some k => .ok (if fld b 0xC 1 = 2 then [] else firstKey k (slice b 0x20 32))
    | none => .error { code := 9 }

/-- A refused stream's flag: `REJECT` for a check of R252 or R253, and `TRUNC` where the source has not delivered a whole
header (R266). DESIGN CHOICE: the manual gives the flag of a stream that ends within its header nowhere (log entry 59). -/
def State.rejectFabric (s : State) (b : List Byte) : State :=
  s.raise .cfg (if b.length < 256 then 0x80000000 else 0x02000000)

/-- An accepted load put on its chains (R250, R261). -/
def State.addLoad (s : State) (b : List Byte) (short : Bool) (key : List Byte) (mb : Option Nat) (sess : Nat) :
    Nat × State :=
  let slot := s.fcfg.nextSlot
  let l : Load := {
    slot := slot, mb := mb, sess := sess, kind := fld b 0xC 1, target := fld b 0xE 1, covered := coveredBy (fld b 0xE 1),
    stream := b, short := short, imageId := fld b 0x10 8, plainLen := fld b 0x18 8, key := key }
  (slot, { s with loads := s.loads ++ [l], fcfg := { s.fcfg with nextSlot := slot + 1 } })

/-- The bytes of a range of device memory up to the first 2 KiB whose controller does not serve them (R195, R383). -/
def State.servedPrefix (s : State) (a n : Nat) : Nat :=
  let k := ((List.range ((a % 2048 + n + 2047) / 2048)).takeWhile (fun i => s.served ((a / 2048 + i) * 2048) 1)).length
  Nat.min n (k * 2048 - a % 2048)

/-- The stream a fabric load command delivers; what an error keeps back is missing (R266, R275). -/
def State.fabStream (s : State) (g : Go) : List Byte :=
  if g.flags.toNat = 2 then rdBytes s.memView g.payAddr.toNat (s.servedPrefix g.payAddr.toNat g.payLen.toNat)
  else g.payload.take g.payLen.toNat

/-- `LOAD_FABRIC`'s and `LOAD_FABRIC_REGION`'s own checks: the region parameter (R7, R309), the header and key (R252,
R253) and, in a pair, the partner's `IMAGE_ID` (R261). -/
def ownFabric (full : Bool) (partner : Option Nat) (g : Go) (s : State) : Option Fail × State :=
  let region := if full then 0xFF else par g 0x20 1
  let b := s.fabStream g
  let owned := match s.session (s.mb g.mb).sess with | some x => x.regions | none => 0
  if !(decide (region < 64) || region == 0xFF) then (badPar false 4 0x20, s)
  else match s.judgeFabric b full region (some owned) with
  | .error f => (some f, s.rejectFabric b)
  | .ok _ =>
    if s.pair.shadow && (match partner with | some i => i != fld b 0x10 8 | none => false) then
      (some { code := 0xD }, s)
    else (none, s)

/-- An accepted `LOAD_FABRIC` or `LOAD_FABRIC_REGION` waits for its load (R261, R264). -/
def coreFabric (full : Bool) (g : Go) (s : State) : Reply × State :=
  let id := (s.mb g.mb).sess
  let region := if full then 0xFF else par g 0x20 1
  let b := s.fabStream g
  let owned := match s.session id with | some x => x.regions | none => 0
  match s.judgeFabric b full region (some owned) with
  | .error f => (.done f.outcome, s.rejectFabric b)
  | .ok key =>
    let (slot, s) := s.addLoad b (s.payFails g) key (some g.mb) id
    (.wait (.load slot), s)

end Sys2Proof.Machine
end

