-- ==== Sys2Proof/Machine/Orders.lean ====
section
/-! DEFINITION. Commands from go write to answer, in and out of a shadow pair (11, 12): the order of R329 to R331, and
what a survivor does when it takes over (R340). -/

namespace Sys2Proof.Machine

/-- The meaning of an ordered command by opcode (R329). -/
def coreOf (opcode : Nat) (g : Go) (s : State) : Reply × State :=
  if opcode = 0x10 then coreOpen g s else if opcode = 0x11 then coreClose g s
  else if opcode = 0x12 then coreLimits g s else if opcode = 0x20 then coreAlloc g s
  else if opcode = 0x21 then coreFree g s else if opcode = 0x30 then coreLoad g s
  else if opcode = 0x31 then coreUnload g s else if opcode = 0x32 then coreBind g s
  else if opcode = 0x40 then coreSubmit g s else if opcode = 0x41 then coreCancel g s
  else if opcode = 0x50 then coreFabric true g s else if opcode = 0x51 then coreFabric false g s
  else if opcode = 0xD0 then coreReplay g s else (err 1, s)

/-- The outcome of an ordered `LOAD_SCHEDULE` or `ALLOC_MEMORY`, kept to be compared with the partner's (R334). -/
def State.keepOutcome (s : State) (b : BusyCmd) (o : Outcome) : State :=
  if (b.opcode = 0x20 ∨ b.opcode = 0x30) ∧ s.pair.shadow then
    let value := ((o.fields.find? (fun f => f.1 == 0x120)).map (fun f => f.2)).getD []
    let place := if b.opcode = 0x30 then
        ((s.session (s.mb b.go.mb).sess).map (fun x => (look {} x.images (ofLe value)).place)).getD []
      else []
    { s with pair := { s.pair with outcomes := s.pair.outcomes ++
        [{ mb := b.go.mb, go := b.go.go.toNat, code := o.code, shortfall := o.shortfall, value := value, place := place }] } }
  else s

/-- The secondary's outcomes against the primary's of the same commands: any difference makes it leave (R334). -/
def State.compareOutcomes (s : State) : State :=
  if s.pair.role = 2 then
    let same := fun (a b : OrderOutcome) => a.mb == b.mb && a.go == b.go
    let both := s.pair.outcomes.filter (fun a => s.pair.theirOut.any (same a))
    let bad := both.any (fun a => s.pair.theirOut.any (fun b => same a b && a != b))
    let s := { s with pair := { s.pair with
      outcomes := s.pair.outcomes.filter (fun a => !both.any (same a))
      theirOut := s.pair.theirOut.filter (fun a => !both.any (same a)) } }
    if bad then s.leavePair else s
  else s

/-- A command that waited goes on to its own meaning, in pair order (R331). -/
def State.applyOrdered (s : State) (b : BusyCmd) : State :=
  let (r, s) := coreOf b.opcode b.go s
  let s := match r with | .done o => s.keepOutcome b o | .wait _ o => s.keepOutcome b o
  match r with
  | .done o => s.finishBusy b.go.mb o
  | .wait w o => s.answer b.opcode b.go (.wait w o)

/-- The command of a mailbox that waits to be ordered. -/
def State.unordered (s : State) (mb go : Nat) : Option BusyCmd :=
  match (s.mb mb).busy with
  | some b => if b.wait == .pairOrder && !b.done && b.go.go.toNat == go then some b else none
  | none => none

/-- What this part and its partner hold of a command, forgotten. -/
def State.dropOrder (s : State) (mb go : Nat) : State :=
  let keep := fun (o : OrderRec) => !(o.mb == mb && o.go == go)
  { s with pair := { s.pair with mine := s.pair.mine.filter keep, theirs := s.pair.theirs.filter keep } }

/-- A command completed unmatched (R330). -/
def State.unmatch (s : State) (mb go : Nat) : State :=
  let s := s.dropOrder mb go
  let s := { s with pair := { s.pair with unmatched := s.pair.unmatched + 1 } }
  match s.unordered mb go with
  | some _ => s.finishBusy mb { code := 0xD }
  | none => s

/-- The primary's decision on a command that both parts hold (R330); a passing one is ordered and forwarded (R323), and
applied by the secondary when the order reaches it. -/
def State.matchOne (s : State) (m t : OrderRec) : State :=
  if m.digest != t.digest || m.verdict != t.verdict then s.unmatch m.mb m.go
  else match s.unordered m.mb m.go with
  | none => s.dropOrder m.mb m.go
  | some b =>
    if m.verdict ≠ 0 then (s.dropOrder m.mb m.go).finishBusy m.mb b.acc
    else if s.pair.role = 1 then ((s.dropOrder m.mb m.go).forward (.order m.mb m.go)).applyOrdered b
    else s

/-- Every command that both parts hold is decided on (R330). -/
def State.matchOrders (s : State) : State :=
  s.pair.mine.foldl (fun s m =>
    match s.pair.theirs.find? (fun t => t.mb == m.mb && t.go == m.go) with
    | some t => s.matchOne m t
    | none => s) s

/-- An ordered command in shadow service is held, reported and matched (R330). -/
def State.holdOrder (s : State) (c : Cmd) (g : Go) (f : Option Fail) : State :=
  let o : Outcome := match f with | some f => f.outcome | none => {}
  let s := s.setMb g.mb (fun m => { m with busy := some { opcode := c.opcode, go := g, wait := .pairOrder, acc := o } })
  let r : OrderRec := { mb := g.mb, go := g.go.toNat, digest := s.cmdDigest c g, verdict := o.code }
  ({ s with pair := { s.pair with mine := s.pair.mine ++ [r] } }).matchOrders

/-- Orders of a list in increasing mailbox and go value (R340 step 4). -/
def byMailbox (l : List OrderRec) : List OrderRec :=
  l.mergeSort (fun a b => decide (a.mb < b.mb) || (a.mb == b.mb && decide (a.go ≤ b.go)))

/-- Held commands that the lost primary never ordered are ordered by the survivor (R340 step 4). -/
def State.orderRest (s : State) : State :=
  let l := byMailbox s.pair.mine
  let s := { s with pair := { s.pair with mine := [], theirs := [] } }
  l.foldl (fun s m => match s.unordered m.mb m.go with
    | some b => if b.acc.code ≠ 0 then s.finishBusy m.mb b.acc else s.applyOrdered b
    | none => s) s

/-- A checkpoint secondary restores each session of the lost primary from its last complete checkpoint; what had begun to
arrive of the next is lost (R350). The queue of a checkpoint holds every step that had not completed then, so those run
again, with their own counters. -/
def State.restore (s : State) : State :=
  let l := s.pair.standby
  l.foldl State.takeSession { s with pair := { s.pair with standby := [], got := [], theirHeld := 0, theirOcc := [] } }

/-- What a pair that has ended leaves: no transfer, promotion, exchange or outcome is under way. -/
def Pair.alone (p : Pair) : Pair :=
  { p with formed := false, waits := false, joinHold := false, promoteIn := 0, phase := 0, toSend := [], marked := [],
           lastWindow := none, diverging := false, theirRegions := [], myCheck := none, theirCheck := none, outcomes := [],
           theirOut := [] }

/-- What every survivor does (R340 step 3): ingress closed, commands of the pair ended, the tick accepted without
comparison. -/
def State.endPair (s : State) : State :=
  let s := (s.acknowledge s.pair.seq).idleStrait
  let s := { s with pair := s.pair.alone }
  let s := s.release (fun w => w == .pairRejoin)
    (fun o => { o with code := 0xD, fields := [(0x120, leBytes 8 s.pair.bytesSent)] })
  let s := s.release (fun w => w == .pairPromote) (fun o => { o with code := 0xD })
  if s.tick.closed && !s.tick.settled then s.settle else s

/-- A secondary becomes primary (R340 steps 4 to 6): it orders what was left, rewrites the health record and writes the
suppressed records, or restores the standby copy (R350). -/
def State.promoteSelf (s : State) : State :=
  let s := ((s.orderRest).setRole 1).rewriteHealth
  if s.pair.mode = 2 then s.restore else s.flushSuppressed

/-- A survivor carries on alone (R340 from step 3); a joining part gives up what it received (R347). -/
def State.takeOver (s : State) : State :=
  let was := s.pair.role
  let s := s.endPair
  if was = 2 then s.promoteSelf
  else if was = 3 then ({ s with pair := { s.pair with got := [] } }).setRole 0
  else s

end Sys2Proof.Machine
end

