-- ==== Sys2Proof/Machine/TickOps.lean ====
section
/-! DEFINITION. What happens at a tick boundary and at the issue of a tick (02: R28 to R30, R43 to R49, R52 to R55; 12:
R321, R335 to R337; 14: R388 to R394), and what a failed tile leads to (R58, R59). -/

namespace Sys2Proof.Machine

/-- The boundary between two ticks stands open: the tick is done and compared, the next is due, no copy runs (R30, R48,
R53, R321). -/
def State.atBoundary (s : State) : Bool :=
  s.tick.on && s.tick.closed && s.tick.settled && s.tick.due && s.tick.copying == 0 && s.tilesRun

/-! The issue of a tick. -/

/-- Regions that a session gives up at the coming boundary have the pre-emption notice raised (R54, R141): this is the
last tick in which it holds them. -/
def State.noticeRelease (s : State) : State :=
  s.sess.foldl (fun s x =>
    let rs := x.release &&& x.regions
    if rs = 0 then s
    else
      let s := (members rs).foldl (fun s r =>
        (s.slotsOf r).foldl (fun s i => s.runTile i (fun t => raiseAll t 1)) s) s
      s.setSess x.id (fun y => { y with noticed := rs })) s

/-- Regions without work in the tick, and fenced ones, are done at once (R29, R370). -/
def State.idleDone (s : State) : State :=
  { s with tick := { s.tick with
      done := mapOf ((List.range 64).filter (fun r => s.units.fenced r || s.regionIdle r)) } }

/-- The work of the tick placed and armed (R29); what was left of the tick before is cleared away. -/
def State.placeTick (s : State) : State :=
  let s := { s with
    tiles := mapTab {} (fun _ t => { emptyTile t with tickOvf := 0, sq0 := t.sq, tq0 := t.tq }) s.tiles
    eng := mapTab {} (fun _ e => { e with streams := mapTab {} (fun _ x => { x with stopped := false }) e.streams }) s.eng
    tick := { s.tick with cdig := [], armSeq := 0, done := 0, warned := 0, trouble := false } }
  let s := s.runs.foldl (fun s p => s.placeRun p.1 p.2) s
  s.idleDone

/-- A tick issued (R29, R213). -/
def State.issue (s : State) : State :=
  let t := s.tick
  let s := { s with
    tick := { t with
      pkgDigest := if 0 < t.count then s.tickDigest else t.pkgDigest
      digestTick := if 0 < t.count then t.count else t.digestTick
      count := t.count + 1, active := true, due := false, held := false, closed := false, settled := false, late := 0 }
    regions := mapTab {} (fun _ x => { x with digest := 0 }) s.regions
    mpk := { s.mpk with served := false }
    ctl := mapTab {} (fun _ c => { c with wrote := false, inorder := false }) s.ctl
    pair := { s.pair with rerun := false } }
  (s.placeTick.noticeRelease).maybeClose

/-- A held tick's lateness recorded (R49, R53; 02, `DEV_TICK_STATUS`), in units of 10 ns. -/
def State.noteStretch (s : State) (late : Nat) : State :=
  if late = 0 && !s.tick.held then s
  else
    let s := if s.tick.held then s else s.raise .tickStatus 0x40000000
    let s := { s with tick := { s.tick with lastStretch := late } }
    (members s.tick.late).foldl (fun s r => s.setRegion r (fun x => { x with
      stretches := x.stretches + 1, stretchTotal := x.stretchTotal + late, lastStretch := late })) s

/-! The steps of a boundary, in the order of R48. -/

/-- The controllers read their temperatures once per tick (R188). -/
def State.readTemps (s : State) (l : List (Nat × Nat)) : State :=
  l.foldl (fun s p =>
    if p.1 < 40 then
      let s := s.setCtl p.1 (fun c => { c with temp := p.2 })
      if 85 < p.2 then s.raise (.memStatus p.1) 0x20000000 else s
    else s) s

/-- A controller read above 85 degrees in the ended tick (R188, R394). -/
def State.anyHot (s : State) : Bool := s.ctl.any (fun p => decide (85 < p.2.temp))

/-- The target of a region with work (R394): `down` and `up` as the ended tick gives them. -/
def judged (down up : Bool) (x : Region) : Region :=
  let target := if down then x.op - 1 else if up then Nat.min 7 (x.op + 1) else x.target
  if target < x.op then
    { x with target := target, step := if x.target < x.op && x.step ≠ 0 then x.step else if x.locked then 2 else 1 }
  else if x.op < target then
    (if x.op < x.target && x.step ≠ 0 then { x with target := target }
     else { x with target := target, step := 1, locked := false })
  else { x with target := target, step := 0 }

/-- A region without work stands at OP0, its standby PLL there too (R390, R394). -/
def Region.rest (x : Region) : Region := { x with op := 0, target := 0, step := 0, locked := true }

/-- The sequencer judges the ended tick (R393, R394). -/
def State.judge (s : State) : State :=
  let p := s.pwr
  let avg := if p.elapsed = 0 then 0 else p.energy / p.elapsed
  let hot := s.anyHot
  let down := decide (p.elapsed < p.clampTime * 50) || hot
  let low := p.elapsed != 0 && decide (avg * 100 < p.envelope * 92) && p.clampTime == 0 && !hot && !p.die95
  let s := if p.elapsed ≠ 0 && p.elapsed ≤ p.clampTime && p.envelope * p.elapsed < p.energy then
      s.raise .pwrStatus 0x08000000 else s
  let s := { s with pwr := { s.pwr with
    lastAvg := avg, lowTicks := if low then p.lowTicks + 1 else 0, energy := 0, elapsed := 0, clampTime := 0,
    die95 := false, dieHot := 0
    down := (List.range 64).any (fun r => s.working r && (down || p.dieHot.getLsbD (r / 2))) } }
  let up := decide (32 ≤ s.pwr.lowTicks)
  (List.range 64).foldl (fun s r =>
    if s.working r then s.setRegion r (judged (down || p.dieHot.getLsbD (r / 2)) up) else s.setRegion r Region.rest) s

/-- A ready step applied (R390, R391): the released PLL stands one point below after a step up, and relocks after a step
down. -/
def Region.stepped (x : Region) : Region :=
  if x.step = 2 then
    (if x.target < x.op then { x with op := x.op - 1, step := 0, locked := false, steps := x.steps + 1 }
     else if x.op < x.target then { x with op := x.op + 1, step := 0, locked := true, steps := x.steps + 1 }
     else { x with step := 0 })
  else x

/-- A ready step of a region applied: its tile mux passes the other tile PLL (R390, R391). -/
def State.applyStep (s : State) (r : Nat) : State :=
  let s := if (s.region r).target = (s.region r).op then s
    else s.muxAsk (muxKey 3 r) (1 - s.muxGoal (muxKey 3 r))
  s.setRegion r Region.stepped

/-- Ready steps are applied at the boundary (R391; step 4 of R48), but not to a region that is clamped (R396). -/
def State.applySteps (s : State) : State :=
  (List.range 64).foldl (fun s r => if s.clamped r || (s.region r).step != 2 then s else s.applyStep r) s

/-- Settings that take effect at a boundary (R28, R365). -/
def State.applySettings (s : State) : State :=
  let b := s.dev.settings
  let s := if s.dev.applyAt then
      { s with
        dev := { s.dev with applyAt := false }
        tick := { s.tick with ovrThresh := fld b 0x12 1, warnLead := fld b 0x13 1 }
        pwr := { s.pwr with envelope := fld b 0x14 2 }
        mpk := { s.mpk with panicMark := fld b 0x16 1, retireThresh := fld b 0x1A 2 } }
    else s
  if s.dev.applyPeriod && !s.imageLoaded then
    { s with dev := { s.dev with applyPeriod := false }, tick := { s.tick with period := fld b 0x10 2 } }
  else s

/-- A promotion under way comes one boundary nearer, or takes effect (R345). -/
def State.promote (s : State) : State :=
  if s.pair.promoteIn = 0 then s
  else if 1 < s.pair.promoteIn then { s with pair := { s.pair with promoteIn := s.pair.promoteIn - 1 } }
  else
    let s := { s with pair := { s.pair with promoteIn := 0 } }
    if s.pair.shadow then
      let s := s.setRole (if s.pair.role = 2 then 1 else 2)
      let s := if s.pair.role = 1 then s.flushSuppressed else s.keepRecords
      s.release (fun w => w == .pairPromote) (fun o => { o with fields := [(0x120, leBytes 1 s.pair.role)] })
    else s.release (fun w => w == .pairPromote) (fun o => { o with code := 0xD })

/-- A fabric lane retired (R372, R384): its transmitter idle, its receiver out of lock (R411), its clock off. -/
def State.retireLane (s : State) (l : Nat) : State :=
  let s := { s with units := { s.units with retiredLanes := s.units.retiredLanes ||| bitW l true } }
  let s := { s with clk := { s.clk with
    gateIsle := put 0 s.clk.gateIsle (l / 8) (s.gateIsle (l / 8) &&& ~~~ bitW (10 + l % 8) true) } }
  let s := if (s.lane l).rxLock then s.raise (.ftxStatus l) 0x04000000 else s
  (s.setLane l (fun x => { x with rxLock := false })).fixLane l

/-- A fabric lane in service again (R373). -/
def State.restoreLane (s : State) (l : Nat) : State :=
  let s := { s with units := { s.units with retiredLanes := s.units.retiredLanes &&& ~~~ bitW l true } }
  let s := s.setLane l (fun x => { x with slipPos := 0 })
  let s := { s with clk := { s.clk with
    gateIsle := put 0 s.clk.gateIsle (l / 8) (s.gateIsle (l / 8) ||| bitW (10 + l % 8) true) } }
  s.fixLane l

/-- A region's clusters restored with what its test found, and its fence lifted (R373). -/
def State.restoreRegion (s : State) (r : Nat) (fails : List (Nat × Nat)) : State :=
  let s := (List.range 4).foldl (fun s k =>
    let c := 4 * r + k
    let f := (fails.filter (fun p => p.1 == c)).map (fun p => p.2)
    if s.units.retiredClusters.contains c then s.restoreCluster c f
    else if f.contains 9 then s.retireCluster c
    else f.foldl (fun s p =>
      if s.units.retiredSlots.contains (9 * c + p) || s.units.retiredClusters.contains c then s
      else match s.units.tileOf (9 * c + p) with
        | none => { s with units := { s.units with retiredSlots := s.units.retiredSlots ++ [9 * c + p] } }
        | some _ => (s.moveIdentity (9 * c + p) false).getD (s.retireCluster c)) s) s
  s.unfence r

/-- A retirement within a region is absorbed by the region's fence of the same tick (R27, R371). -/
def Units.absorbed (u : Units) (r : Nat) : Bool := u.fenced r && !u.oldFence.getLsbD r

/-- One change of units made (R48 step 1, R52, R53, R58, R368 to R373). -/
def State.changeUnit (s : State) : UnitChange → State
  | .region r => s.fenceRegion r
  | .die d => s.fenceDie d
  | .cluster c => if s.units.absorbed (c / 4) then s else s.retireCluster c
  | .slot c p =>
    if s.units.absorbed (c / 4) || s.units.retiredClusters.contains c then s else s.retireSlot (c * 9 + p)
  | .lane l => s.retireLane l
  | .restoreSlot c p => s.restoreSlot (c * 9 + p)
  | .restoreCluster c f => s.restoreCluster c f
  | .restoreRegion r f => s.restoreRegion r f
  | .restoreDie d f =>
    let s := { s with units := { s.units with dieFenced := s.units.dieFenced &&& ~~~ bitW d true } }
    let s := if s.units.fencedRegions.getLsbD (2 * d) then s else
      { s with units := { s.units with fencedRegions := withBit s.units.fencedRegions (2 * d) true } }
    let s := if s.units.fencedRegions.getLsbD (2 * d + 1) then s else
      { s with units := { s.units with fencedRegions := withBit s.units.fencedRegions (2 * d + 1) true } }
    (s.restoreRegion (2 * d) f).restoreRegion (2 * d + 1) f
  | .restoreLane l => s.restoreLane l

/-- The place of a change in the order of a boundary: higher levels first (R371). -/
def UnitChange.rank : UnitChange → Nat
  | .die _ => 0 | .region _ => 1 | .cluster _ => 2 | .slot _ _ => 3 | .lane _ => 4
  | .restoreDie _ _ => 5 | .restoreRegion _ _ => 6 | .restoreCluster _ _ => 7 | .restoreSlot _ _ => 8 | .restoreLane _ => 9

/-- Units waiting to be removed or restored are (step 1 of R48), and capacity is computed once (R27). -/
def State.changeUnits (s : State) : State :=
  let l := s.units.pend.mergeSort (fun a b => decide (a.rank ≤ b.rank))
  let s := l.foldl State.changeUnit { s with units := { s.units with pend := [] } }
  { s with units := s.units.compute }

/-- Regions leave a session's partition (R46 to R48, R266): through changeover, or at once when fenced. -/
def State.giveUp (s : State) (id : Nat) (rs : DWord) : State :=
  let fenced := mapOf ((members rs).filter s.units.fenced)
  let s := s.abortLoads (fun l => l.mb.isSome && l.covered &&& rs != 0)
  let s := s.setSess id (fun x => { x with
    regions := x.regions &&& ~~~ rs, release := (x.release ||| rs) &&& ~~~ fenced, noticed := 0 })
  (members rs).foldl (fun s r =>
    if s.units.fenced r then s.setRegion r (fun x => { x with owner := 0, change := 0 }) else s.changeover r) s

/-- A session's grant and release can take effect: every region asked for is free, every one given up has had its
notice (R46, R54, R286). -/
def State.changeReady (s : State) (x : Sess) : Bool :=
  let rel := x.release &&& x.regions
  (x.grant != 0 || rel != 0) && rel &&& ~~~ x.noticed == 0 &&
    (members x.grant).all (fun r => (s.region r).owner == 0 && (s.region r).change == 0)

/-- Grants and releases that can take effect do (step 2 of R48). -/
def State.changePartitions (s : State) : State :=
  s.sess.foldl (fun s x =>
    if !x.closing && s.changeReady x then
      let s := s.giveUp x.id (x.release &&& x.regions)
      let s := (members x.grant).foldl (fun s r => s.setRegion r (fun y => { y with owner := x.id })) s
      s.setSess x.id (fun y => { y with regions := y.regions ||| x.grant, grant := 0 })
    else s) s

/-- Closing sessions whose step has ended give up their images, allocations and regions (R291 steps 4 and 5). -/
def State.closeSessions (s : State) : State :=
  s.sess.foldl (fun s x =>
    if x.closing && x.running.isNone && (x.regions != 0 || !x.images.isEmpty || x.allocs.any (fun a => !a.ring)) then
      let s := s.setSess x.id (fun y => { y with images := [], allocs := y.allocs.filter (fun a => a.ring) })
      s.giveUp x.id x.regions
    else s) s

/-- A session gone: its mailboxes released (R291 step 6). -/
def State.dropSession (s : State) (id : Nat) : State :=
  match s.session id with
  | none => s
  | some x =>
    let s := x.mbs.foldl (fun s n => match (s.mb n).busy with
      | some b => if b.done then s.postResult b.opcode b.go b.acc else s
      | none => s) s
    ({ s with sess := s.sess.filter (fun y => y.id != id) }).freeMailboxesOf x.mbs

/-- Nothing is left of a closing session: no step, no region, no changeover, no record waiting (R293), no command. -/
def State.closed (s : State) (x : Sess) : Bool :=
  x.closing && x.running.isNone && x.regions == 0 && x.release == 0 && x.images.isEmpty && x.ring.waiting.isEmpty &&
    x.mbs.all (fun n => match (s.mb n).busy with | some b => b.done || b.wait == .close x.id | none => true)

/-- Sessions that have closed answer their command, or are gone (R289, R291). -/
def State.endCloses (s : State) : State :=
  s.sess.foldl (fun s x =>
    if s.closed x then
      (match s.waiters (fun w => w == .close x.id) with
      | [] => if x.mbs.any (fun n => match (s.mb n).busy with | some b => b.opcode == 0x11 && b.done | none => false) then s
              else s.dropSession x.id
      | _ => s.release (fun w => w == .close x.id) id)
    else s) s

/-- Changeovers come one tick nearer their end (R47). -/
def State.countChangeovers (s : State) : State :=
  { s with regions := mapTab {} (fun _ x => if 1 < x.change then { x with change := x.change - 1 } else x) s.regions }

/-- A session holds data in the LPDDR5X tier (R197). -/
def Sess.holdsLp (x : Sess) : Bool :=
  x.allocs.any (fun a => isLp a.addr) ||
    x.images.any (fun p => (List.range p.2.tensors).any (fun t => p.2.tKind t < 2 && isLp (look 0 p.2.place t)))

/-- A step in progress uses a tensor in the LPDDR5X tier (R197). -/
def State.lpInUse (s : State) : Bool :=
  s.runs.any (fun p =>
    let i := p.1.imageOf p.2
    (List.range i.tensors).any (fun t => isLp (look 0 i.place t) || isLp (look 0 i.bound t - 1)) ||
      (match p.2.item.replay with | some q => q.copies.any (fun c => isLp (c.2 - 1)) | none => false))

/-- The LPDDR5X tier enters self-refresh at a boundary, or begins to leave it (R197, R198). -/
def State.tendTier (s : State) : State :=
  let idle := s.sess.all (fun x => !x.holdsLp || x.lpUnused) && !s.lpInUse
  let t := s.tier true
  if s.mpk.lpN = 0 then s
  else if idle && !t.inSr && !t.leaving && !s.mpk.served && !s.mpk.held.any (fun h => isLp h.addr) then s.setTier true { inSr := true }
  else if !idle && t.inSr then s.setTier true { leaving := true }
  else s

/-- Strait lanes trained again are back in the link from the boundary (R408). -/
def State.rejoinLanes (s : State) : State :=
  ((List.range 32).foldl (fun s l =>
    if (s.strLane l).rejoin then s.setStrLane l (fun x => { x with rejoin := false, up := true }) else s) s).judgeLink

/-- One input of the pair takes effect (R323, R325, R327). -/
def State.applyInput (s : State) : Input → State
  | .write a d => s.devStore a d none
  | .word l d => s.setLane l (fun x => { x with mirrorBuf := x.mirrorBuf ++ [d] })
  | .order _ _ | .stepStart _ | .loadStart _ | .retire _ _ | .page _ _ | .bank _ _ | .tile _ _ _ _ | .session _ => s

/-- Inputs tagged for the tick about to issue take effect (R323, R324). -/
def State.applyInputs (s : State) : State :=
  let (due, later) := s.pair.inputs.partition (fun f => decide (f.tag ≤ s.tick.count + 1))
  (due.foldl (fun (s : State) f => s.applyInput f.input) { s with pair := { s.pair with inputs := later } }).leavePanic

/-- Retirements that the primary has decided change the common count at this boundary (R323, R333). -/
def State.applyRetires (s : State) : State :=
  s.pair.inputs.foldl (fun s f => match f.input with
    | .retire r n => if f.tag ≤ s.tick.count + 1 then
        { s with pair := { s.pair with partnerLive := put 4 s.pair.partnerLive r n } } else s
    | _ => s) s

/-- The words of a mirror buffer delivered since the boundary before (R327): how many word cycles have passed, of the lane's
word clock raised by 500 ppm, is a free value. The outputs are those of the last. -/
def FabLane.deliver (x : FabLane) (v : Nat) : FabLane :=
  let cycles := v / 2 ^ 128
  let got := x.mirrorBuf.take cycles
  let x := { x with mirrorBuf := x.mirrorBuf.drop cycles }
  match (if got.length = cycles then got.getLast? else none) with
  | some (some w) => { x with rxWord := w, rxValid := true, rxDrop := false }
  | some none => { x with rxWord := zeroBytes 16, rxValid := true, rxDrop := true }
  | none => if cycles = 0 then x else { x with rxWord := leBytes 16 v, rxValid := false, rxDrop := false }

/-- Every mirror buffer that holds words delivers (R327). -/
def State.deliverWords (s : State) : State :=
  (List.range 32).foldl (fun s l =>
    if (s.lane l).mirrorBuf.isEmpty then s
    else
      let (v, s) := s.draw
      s.setLane l (fun x => x.deliver v)) s

/-- Commands that waited for the boundary are answered (R286, R298, R300, R314). -/
def State.answerBoundary (s : State) : State :=
  let next := s.tick.count + 1
  let s := s.sess.foldl (fun s x =>
    if x.opening && x.grant == 0 then
      let s := s.setSess x.id (fun y => { y with opening := false })
      s.release (fun w => w == .grant x.id) (fun o => { o with fields := o.fields ++ [(0x130, leBytes 8 next)] })
    else s) s
  let s := s.sess.foldl (fun s x =>
    if x.grant == 0 && x.release &&& x.regions == 0 then
      (s.waiters (fun w => w == .limits x.id)).foldl (fun s n => match (s.mb n).busy with
        | some b =>
          let o := if b.acc.fields.isEmpty then
            { b.acc with fields := [(0x120, leBytes 8 x.regions.toNat), (0x128, leBytes 8 next)] } else b.acc
          if x.release = 0 then s.finishBusy n o else s.setMb n (fun m => { m with busy := some { b with acc := o } })
        | none => s) s
    else s) s
  let s := s.release (fun w => w == .unit) (fun o => { o with
    fields := o.fields ++ [(0x124, leBytes 2 s.units.capacity)] })
  s.endCloses

/-- The actions of a tick boundary (R48), up to the issue. -/
def State.boundary (s : State) (b : BoundarySample) : State :=
  let forming := s.pair.waits
  let s := { s with pair := { s.pair with waits := false } }
  let s := ((if forming then s.fixLanes else s).deliverWords).applyRetires
  let s := (s.settleStops).readTemps b.memTemps
  let s := (s.judge).applySettings
  let s := (s.countChangeovers).changeUnits
  let s := (s.closeSessions).changePartitions
  let s := (s.refold).noteCapacity
  let s := ((s.beginLoads).testBorders).tendTier
  let s := ((s.applySteps).rejoinLanes).promote
  (s.applyInputs).answerBoundary

/-- What holds a shadow primary's next tick: an input not acknowledged, or a rejoin's final hold (R321, R347). -/
def State.pairHolds (s : State) : Bool :=
  s.pair.joinHold || (s.pair.shadow && s.pair.role == 1 && decide (s.pair.partnerSeqHeld < s.pair.seq))

/-! Pair messages. -/

/-- The running firmware's pair protocol number (R319, R420). -/
def State.pairProto (s : State) : Nat := fld s.dev.fw 0x10 2

/-- What this part says of itself to a partner (R319, R320, R346). -/
def State.selfFit (s : State) : PartnerFit :=
  { reachable := true, mode := s.pair.mode, id := s.deviceId, names := slice s.dev.settings 0x30 16
    period := s.tick.period, lpN := s.mpk.lpN, lpCap := s.mpk.lpCap, proto := s.pairProto, noSession := s.sess.isEmpty
    fabrics := (List.range 64).map (fun r => (s.fabric r).imageId), pref := fld s.dev.settings 0x25 1 }

/-- The live clusters of each region for the next tick (R26, R322): those that its boundary's removals leave. -/
def State.nextLive (s : State) : List (Nat × Nat) :=
  let u := (s.changeUnits).units
  (List.range 64).map (fun r => (r, ((List.range 4).filter (fun k => u.capMap.getLsbD (4 * r + k))).length))

/-- Words of a lane that the mirror buffer holds, those that wait for their tick among them (R326). -/
def State.mirrorFill (s : State) (l : Nat) : Nat :=
  ((s.lane l).mirrorBuf.filter (fun w => w.isSome)).length +
    (s.pair.inputs.filter (fun f => match f.input with | .word k (some _) => k == l | _ => false)).length

/-- A mirror buffer of 256 KiB holds no further word of 16 bytes (R326). -/
def State.mirrorFull (s : State) (l : Nat) : Bool := decide (16384 ≤ s.mirrorFill l)

/-- The pair message that the part has to send (R322, R330, R334, R337, R345, R348). -/
def State.message (s : State) : PairMsg :=
  let own := s.pair.mode == 2 && s.pair.role == 2
  { fit := if s.pair.formed then none else some s.selfFit
    done := if s.tick.closed then s.tick.count else s.tick.count - 1
    again := s.tick.closed && s.pair.rerun
    digest := if s.tick.closed then s.tickDigest else s.tick.pkgDigest
    live := s.nextLive
    seqHeld := s.pair.seqHeld
    rings := if s.pair.role = 1 then s.sess.map (fun x => (x.id, x.ring.prod)) else []
    reports := s.pair.mine.map (fun o => { mb := o.mb, go := o.go, digest := o.digest, verdict := o.verdict })
    outcomes := if s.pair.role = 1 then s.pair.outcomes else []
    regions := if s.pair.diverging then (List.range 64).map s.regionDigest else []
    check := s.pair.myCheck
    full := (List.range 32).foldl (fun w l => w ||| bitW l (s.mirrorFull l)) 0
    promote := if s.pair.role = 2 then s.pair.promoteIn else 0
    held := if own then s.sess.foldl (fun m x => m ||| x.regions ||| x.grant) 0 else 0
    occ := if own then s.sess.flatMap Sess.occupied else [] }

/-- A pair message sent (R322): it stands in `out.pairMsg`. -/
def State.sendPair (s : State) : State :=
  if s.hears && s.pair.mode != 0 && !s.pair.left then
    let m := s.message
    { s with
      out := { s.out with pairMsg := some m }
      pair := { s.pair with
        toldLive := m.live.foldl (fun (t : Tab Nat) (p : Nat × Nat) => put 4 t p.1 p.2) s.pair.toldLive
        outcomes := if s.pair.role = 1 then [] else s.pair.outcomes } }
  else s

/-- The message at the part's done for a tick, sent once for each run of the tick (R322, R336). -/
def State.tellDone (s : State) : State :=
  let k := 2 * s.tick.count + b2n s.pair.rerun
  if s.pair.formed && s.tick.closed && s.pair.told != k then ({ s with pair := { s.pair with told := k } }).sendPair else s

/-- The primary of a shadow pair decides at a boundary that clusters are to be retired that its messages had as live, and
forwards that (R323, R333). -/
def State.decideUnits (s : State) : State :=
  if s.pair.shadow && s.pair.role == 1 && s.tick.closed && s.tick.settled && !s.units.pend.isEmpty then
    s.nextLive.foldl (fun s p =>
      if p.2 < look 4 s.pair.toldLive p.1 then
        ({ s with pair := { s.pair with toldLive := put 4 s.pair.toldLive p.1 p.2 } }).forward (.retire p.1 p.2)
      else s) s
  else s

/-! Comparing digests in a shadow pair. -/

/-- No session touched a fabric port in the tick (R335). -/
def State.rerunnable (s : State) : Bool :=
  s.runs.all (fun p =>
    let i := p.1.imageOf p.2
    (i.tickArms p.2.tick).all (fun k => !(i.ring (i.armEnt k)).any (fun d => d.namesPort)))

/-- The tick runs once more (R336): what the first run logged still counts (R337), and the partner's done of the first run
does not. -/
def State.rerunTick (s : State) : State :=
  let s := if s.tick.held then s else s.raise .tickStatus 0x40000000
  let trouble := s.tick.trouble
  let s := { s with
    pair := { s.pair with rerun := true, reruns := s.pair.reruns + 1 }
    tiles := mapTab {} (fun _ t => { t with sq := t.sq0, tq := t.tq0 }) s.tiles
    eng := mapTab {} (fun _ e => { e with streams := mapTab {} (fun _ x => x.disarm) e.streams }) s.eng
    tick := { s.tick with active := true, closed := false, held := true } }
  let s := s.placeTick
  (({ s with tick := { s.tick with trouble := s.tick.trouble || trouble } }).maybeClose).tellDone

/-- The regions whose digests the two parts have different (R337). -/
def State.affected (s : State) : DWord :=
  mapOf ((List.range 64).filter (fun r => s.regionDigest r != s.pair.theirRegions.getD r 0))

/-- Once the partner's region digests are there, this part runs its known-answer pass on every slot of the affected regions
and checks their reduction units (R337): what that finds is the hardware's, a free value (log entry 20). It is singled
out by a failure, and by what it logged in the tick or its rerun. -/
def State.knownAnswer (s : State) : State :=
  if s.pair.diverging && s.pair.theirRegions.length == 64 && s.pair.myCheck.isNone then
    let (v, s) := s.draw
    let bad := (s.affected != 0 && bitAt v 0) || s.tick.trouble || s.runs.any (fun p => p.2.stop.isSome)
    ({ s with pair := { s.pair with myCheck := some bad } }).sendPair
  else s

/-- Both checks are known (R337): the part that alone is singled out leaves; else the steps of the affected regions stop. -/
def State.resolve (s : State) : State :=
  match (if s.pair.diverging then s.pair.myCheck else none), s.pair.theirCheck with
  | some mine, some theirs =>
    let hit := s.affected
    let s := { s with pair := { s.pair with diverging := false, theirRegions := [], myCheck := none, theirCheck := none } }
    if mine && !theirs then (s.settle).leavePair
    else if theirs && !mine then s.takeOver
    else
      let s := s.raise .pairState 0x00800000
      (s.sess.foldl (fun s x => if x.regions &&& hit != 0 then s.stopStep x.id 0x11 else s) s).settle
  | _, _ => s

/-- The parts still differ (R337): each reports its region digests. -/
def State.diverge (s : State) : State :=
  let s := { s with pair := { s.pair with cmpTick := s.tick.count, diverging := true } }
  ((s.sendPair).knownAnswer).resolve

/-- The digests of the tick are compared once both parts have done it, or its rerun (R321, R335 to R337). -/
def State.compareTick (s : State) : State :=
  let s := s.tellDone
  if s.pair.shadow && s.tick.closed && !s.tick.settled && !s.pair.diverging && s.pair.partnerDone == s.tick.count &&
      s.pair.partnerAgain == s.pair.rerun then
    if s.tickDigest = s.pair.partnerDigest then
      ({ s with pair := { s.pair with cmpTick := s.tick.count } }).settle
    else if s.rerunnable && !s.pair.rerun then s.rerunTick
    else s.diverge
  else s

/-! A failed tile. -/

/-- A cluster's work of the tick is given up (R58, R59): its tiles emptied, the streams that serve it stopped, so that
its region reports done when its other work ends. -/
def State.abandon (s : State) (c : Nat) : State :=
  let s := s.markEmerg ((List.range 9).any (fun p => !(s.tile (c * 9 + p)).array.isEmpty))
  let s := (List.range 9).foldl (fun s p => s.runTile (c * 9 + p) emptyTile) s
  (List.range 32).foldl (fun s n =>
    match (s.stream (c / 4) n).ring with
    | some g => (match s.homeOf g with
      | some h => if h.cluster = c then s.setStream (c / 4) n (fun x => { x.disarm with stopped := true }) else s
      | none => s)
    | none => s) s

/-- A cluster's work of the tick starts again from its beginning (R59); its Rooster is no longer done. -/
def State.rerunCluster (s : State) (c : Nat) (x : Sess) (run : Run) : State :=
  let i := x.imageOf run
  let r := c / 4
  let mine := (run.clustersIn i.clusters).filter (fun k => (run.bindOf k).1 == c)
  let s := (List.range 9).foldl (fun s p =>
    let t := s.tile (c * 9 + p)
    s.putTile (c * 9 + p) { t with sq := t.sq0, tq := t.tq0 }) s
  let s := (List.range 32).foldl (fun s n =>
    match (s.stream r n).ring with
    | some g => if mine.contains g.imgCluster then
        (let s := s.restartStream r n
        s.setStream r n (fun x =>
          match x.shadow with
          | some h => if mine.contains h.imgCluster then x.disarm else { x.disarm with ring := some h }
          | none => x.disarm)) else s
    | none => s) s
  let s := { s with tick := { s.tick with cdig := put 0 s.tick.cdig c 0, done := withBit s.tick.done r false } }
  let s := (mine.flatMap (fun k => (List.range 8).map (fun t => 8 * k + t))).foldl (fun s t => s.placeTile x run t) s
  s.armRings x run (fun k => mine.contains k)

/-- The running step that uses a cluster. -/
def State.userOf (s : State) (c : Nat) : Option (Sess × Run) := s.runs.find? (fun p => p.2.begun && p.2.live.contains c)

/-- The passes that stand in a cluster's arrays are discarded by an emergency (R56, R84). -/
def State.discardArrays (s : State) (c : Nat) : State :=
  let s := s.markEmerg ((List.range 9).any (fun p => !(s.tile (c * 9 + p)).array.isEmpty))
  (List.range 9).foldl (fun s p => s.haltSlot (c * 9 + p) dropArray) s

/-- A tile fails beyond correction (R58, R59): its identity moves to a free mule within the tick and the cluster's work
reruns, firmware having written the program that the mule could not receive (R452), or the cluster retires at the next
boundary and the step stops. -/
def State.tileFails (s : State) (i : Nat) : State :=
  let c := i / 9
  if s.units.retiredSlots.contains i || s.units.retiredClusters.contains c || s.units.fenced (c / 4) then s
  else
    let s := { s with tick := { s.tick with trouble := true } }
    match s.units.tileOf i with
    | none => ({ s with units := { s.units with retiredSlots := s.units.retiredSlots ++ [i] } }).note .unit i 0 []
    | some _ =>
      let s := s.discardArrays c
      match s.moveIdentity i false with
      | some s' =>
        let s' := s'.note .unit i 0 []
        (match s'.userOf c with
        | none => s'
        | some (x, run) =>
          if (x.imageOf run).carry then (s'.abandon c).stopStep x.id 0xF
          else
            let s' := s'.writePrograms (x.imageOf run) [c]
            if s'.tick.active then s'.rerunCluster c x run else s')
      | none =>
        let s := { s with units := { s.units with pend := s.units.pend ++ [UnitChange.cluster c] } }
        (match s.userOf c with
        | none => s
        | some (x, _) => (if s.tick.active then s.abandon c else s).stopStep x.id 0xF)

/-- Some released pass of a slot is held for data by R82 or R83, or by a step of the operating point, whose time counts
against no tile (R117, R391). -/
def State.passHeld (s : State) (i : Nat) : Bool :=
  let t := s.tile i
  t.array.any (fun j => j.held) ||
    (match nextPass t with
    | none => false
    | some k => (match t.passes[k]? with
      | none => false
      | some p => p.released && roomFor t p &&
          ((s.region (regionOf i)).step == 2 || !operandsReady t p (s.ringsDone i))))

/-- A slot is busy, not merely waiting on streams (R117, R173): its array works, or some context is ready, or no released
pass is held. -/
def State.slotBusy (s : State) (i : Nat) : Bool :=
  let t := s.tile i
  t.job.isSome && !tileDone t &&
    (t.array.any (fun j => !j.held) && !t.array.any (fun j => j.held) || (List.range 4).any (ready t) || !s.passHeld i)

end Sys2Proof.Machine
end

