-- ==== Sys2Proof/Machine/Ticks.lean ====
section
/-! DEFINITION. The events of the tick source, the Roosters and the steps (02, 11). -/

namespace Sys2Proof.Machine

/-- The tick source runs: it is on and clocked, and nothing stops the part's clocks (R30, R58, R362, R382). -/
def State.tickRuns (s : State) : Bool := s.tick.on && s.tilesRun && (s.gateIsle 0).getLsbD 26

/-- The next tick can be issued: every Rooster is done, the digests are compared, nothing in the pair holds it (R30,
R321). -/
def State.mayIssue (s : State) : Bool := s.tick.closed && s.tick.settled && !s.pairHolds

/-- The next tick falls due now. -/
def State.comesDue (s : State) : Bool := s.tickRuns && s.tick.count != 0 && !s.tick.due && s.tick.copying == 0

/-- The next tick falls due (R30, R49): it can be issued, or is held. -/
def State.due (s : State) : State :=
  let s := { s with tick := { s.tick with due := true } }
  if s.mayIssue then s
  else { s.raise .tickStatus 0x40000000 with tick := { (s.raise .tickStatus 0x40000000).tick with
    held := true, late := ~~~ s.tick.done } }

/-- `TICK_DUE` (R30, R49). -/
def execTickDue (s : State) : Host.Outcome State Fault Refusal := if s.comesDue then .next s.due else .next s

/-- The budget of a slot in the tick (R39, R51). -/
def Tile.budget (t : Tile) : Nat :=
  (t.passes.map (fun p => p.budget)).foldl (· + ·) 0 +
    ([0, 1, 2, 3].map (fun c => if (t.ctx c).task then (t.ctx c).budget else 0)).foldl (· + ·) 0

/-- An overrun of a slot counted among the last 1,024 ticks, once for a tick that is run again (R336); at the threshold its
identity is to move (R51, R52). -/
def State.countOverrun (s : State) (i : Nat) : State :=
  let n := s.tick.count
  let old := look [] s.units.overruns i
  let l := n :: old.filter (fun k => k != n && decide (n - k < 1024))
  let s := { s with units := { s.units with
    overruns := put [] s.units.overruns i l
    ovrTotal := if old.contains n then s.units.ovrTotal else modify 0 s.units.ovrTotal i (· + 1) } }
  let ch := UnitChange.slot (i / 9) (i % 9)
  if s.tick.ovrThresh ≠ 0 && s.tick.ovrThresh ≤ l.length && !s.units.pend.contains ch then
    { s with units := { s.units with pend := s.units.pend ++ [ch] } }
  else s

/-- The slots of a region that ran over their budget, by the busy cycles measured (R51). -/
def State.overran (s : State) (r : Nat) (busy : List (Nat × Nat)) : List Nat :=
  (s.slotsOf r).filter (fun i => (s.tile i).job.isSome &&
    busy.any (fun b => b.1 == i && decide ((s.tile i).budget < b.2)))

/-- A region reports done now: its Rooster is clocked and its work of the tick has completed (R29,
R382). -/
def State.mayReport (s : State) (r : Nat) : Bool :=
  s.tickRuns && decide (r < 64) && s.tick.active && !s.tick.done.getLsbD r && s.regionThrough r &&
    (s.gateOf r).getLsbD 6

/-- A region reports done (R29, R51, R213). -/
def State.reportDone (s : State) (r : Nat) (busy : List (Nat × Nat)) : State :=
  let s := s.setRegion r (fun x => { x with digest := s.regionDigest r })
  let s := (s.overran r busy).foldl State.countOverrun s
  let s := { s with tick := { s.tick with
    done := withBit s.tick.done r true, lastLate := if s.tick.due then r else s.tick.lastLate } }
  (s.maybeClose).compareTick

/-- `REGION_DONE` (R29, R51, R213). -/
def execRegionDone (r : Nat) (busy : List (Nat × Nat)) (s : State) : Host.Outcome State Fault Refusal :=
  if s.mayReport r then .next (s.reportDone r busy) else .next s

/-- The boundary's actions may run now. -/
def State.mayCross (s : State) : Bool := s.atBoundary && !s.pairHolds

/-- The boundary's actions, and the issue unless an identity is being copied (R48, R49, R53). -/
def State.cross (s : State) (late : Nat) (b : BoundarySample) : State :=
  let s := s.boundary b
  if s.tick.copying ≠ 0 then
    (if s.tick.held then s
     else { s.raise .tickStatus 0x40000000 with tick := { (s.raise .tickStatus 0x40000000).tick with held := true } })
  else ((s.noteStretch late).issue).tellDone

/-- A boundary reached: the primary of a shadow pair first forwards the retirements it has decided, which hold the next tick
until they are acknowledged (R323, R324). -/
def State.reach (s : State) (late : Nat) (b : BoundarySample) : State :=
  let t := s.decideUnits
  if t.mayCross then t.cross late b else t

/-- `TICK_BOUNDARY` (R48, R49): `late` is how much later than due the next tick is issued, in units of 10 ns. -/
def execTickBoundary (late : Nat) (b : BoundarySample) (s : State) : Host.Outcome State Fault Refusal :=
  if s.mayCross then .next (s.reach late b) else .next s

/-- One copy of an identity's memory is over; after the last the held tick is issued (R53). -/
def State.endCopy (s : State) (late : Nat) : State :=
  let s := { s with tick := { s.tick with copying := s.tick.copying - 1 } }
  if s.tick.copying = 0 then ((s.noteStretch late).issue).tellDone else s

/-- `IDENTITY_COPY_COMPLETE` (R53). -/
def execIdentityCopyComplete (late : Nat) (s : State) : Host.Outcome State Fault Refusal :=
  if s.tickRuns && s.tick.copying != 0 then .next (s.endCopy late) else .next s

/-- A region's changeover ends at this boundary (R47). -/
def State.changeoverOver (s : State) (r : Nat) : Bool := s.atBoundary && decide (r < 64) && (s.region r).change == 1

/-- A region's changeover is over: the session that gave it up has released it, and a session that waits for it may
have it (R46, R47, R300). -/
def State.endChangeover (s : State) (r : Nat) : State :=
  let s := s.setRegion r (fun x => { x with change := 0 })
  let s := { s with sess := s.sess.map (fun (x : Sess) => { x with release := withBit x.release r false }) }
  let s := s.changePartitions
  let s := s.sess.foldl (fun s x =>
    if x.release = 0 then
      (s.waiters (fun w => w == .limits x.id)).foldl (fun s n => match (s.mb n).busy with
        | some b => if b.acc.fields.isEmpty then s else s.finishBusy n b.acc
        | none => s) s
    else s) s
  s.endCloses

/-- `CHANGEOVER_END` (R47). -/
def execChangeoverEnd (r : Nat) (s : State) : Host.Outcome State Fault Refusal :=
  if s.changeoverOver r then .next (s.endChangeover r) else .next s

/-- A region's tick warning is raised now: once per tick, before the next is due (R54, R55). -/
def State.mayWarn (s : State) (r : Nat) : Bool :=
  s.tickRuns && decide (r < 64) && s.tick.active && s.tick.warnLead != 0 && !s.tick.warned.getLsbD r && !s.tick.due

/-- The tick-warning event in every context of a region with a task (R55, R141). -/
def State.warn (s : State) (r : Nat) : State :=
  let s := { s with tick := { s.tick with warned := withBit s.tick.warned r true } }
  (s.slotsOf r).foldl (fun s i => s.runTile i (fun t => raiseAll t 2)) s

/-- `TICK_WARNING` (R54, R55). -/
def execTickWarning (r : Nat) (s : State) : Host.Outcome State Fault Refusal :=
  if s.mayWarn r then .next (s.warn r) else .next s

/-- `PAIR_HB_OUT` toggles now (R50): the tick source runs and the part drives its heartbeat. -/
def State.heartBeats (s : State) : Bool :=
  s.tick.on && s.dev.hbOn && !s.clk.hold && s.dev.pwrGood && s.dev.stage != 3 && (s.gateIsle 0).getLsbD 26

/-- `HEARTBEAT_TOGGLE` (R50, R322): a pair message goes with the edge. -/
def execHeartbeatToggle (s : State) : Host.Outcome State Fault Refusal :=
  if s.heartBeats then .next ({ s with dev := { s.dev with hbLevel := !s.dev.hbLevel } }).sendPair else .next s

/-- A region reaches the hang limit (R58), the slot named being its last busy one, or none being busy (R173). -/
def State.hangs (s : State) (r slot : Nat) : Bool :=
  s.tickRuns && decide (r < 64) && s.tick.active && !s.tick.done.getLsbD r && slot / 36 == r && !s.regionThrough r &&
    (s.slotBusy slot || (s.slotsOf r).all (fun i => !s.slotBusy i))

/-- `HANG` (R58, R173). -/
def execHang (r slot : Nat) (s : State) : Host.Outcome State Fault Refusal :=
  if s.hangs r slot then
    let t := s.raise .tickStatus 0x80000000
    if s.slotBusy slot then .next (t.tileFails slot) else .next t
  else .next s

/-- An uncorrectable error met in a tile (R58). -/
def State.tileMeets (s : State) (slot : Nat) : Bool := decide (slot < 2304) && s.dev.pwrGood && s.dev.stage != 3

/-- `TILE_UNCORRECTABLE_ERROR` (R58, R59). -/
def execTileUncorrectableError (slot : Nat) (s : State) : Host.Outcome State Fault Refusal :=
  if s.tileMeets slot then .next (s.tileFails slot) else .next s

/-! Steps. -/

/-- The tensors that some descriptor of an image writes (R216). -/
def Image.written (i : Image) : List Nat :=
  ((List.range (i.entries 3)).flatMap (fun k =>
    ((i.ring (i.armEnt k)).filter (fun d => d.dst == 0)).map (fun d => d.dstTensor))).eraseDups

/-- The address of a tensor of an image, bound or placed (R200, R303). -/
def Image.addrOf (i : Image) (t : Nat) : Nat := let b := look 0 i.bound t; if b ≠ 0 then b - 1 else look 0 i.place t

/-- A replay's own copies with the tensors' present contents (R216). A tier in self-refresh that the copy needs begins to
leave it; what the copies hold can be seen only through accesses that wait for the tier too (R198; log entry 58). -/
def State.copyTensors (s : State) (i : Image) (p : Tab Nat) : List Nat → State
  | [] => s
  | t :: r =>
    let s := s.mark (look 0 p t) (i.tBytes t)
    let s := if s.tierHeld (i.addrOf t) then s.startExit (i.addrOf t) else s
    let s := if s.tierHeld (look 0 p t) then s.startExit (look 0 p t) else s
    ({ s with mem := copyRange s.memView (i.addrOf t) s.mem (look 0 p t) (i.tBytes t) }).copyTensors i p r

/-- A fabric load that is waiting or under way covers a port that an image names (R261). -/
def State.loadHolds (s : State) (i : Image) (live : List Nat) : Bool :=
  s.loads.any (fun l => l.fail.isNone && (i.portsNamed live).any (fun r => l.covered.getLsbD r))

/-- Why an item is refused at its start: an unconfigured fabric region (R269), a tensor never bound (R303). -/
def State.refusedStart (s : State) (i : Image) (live : List Nat) : Bool :=
  (i.portsArmed live).any (fun r => !(s.fabric r).configured) ||
    (List.range i.tensors).any (fun t => i.tKind t == 2 && look 0 i.bound t == 0)

/-- The item at the front of a session's queue may start at this boundary (R261, R293, R305, R323). A secondary starts what
the primary has decided to start, and keeps the record in its suppressed ring (R332). -/
def State.mayStart (s : State) (x : Sess) (q : QItem) : Bool :=
  x.running.isNone && !x.closing && x.refusedAt != some s.tick.count && !s.loadHolds (look {} x.images q.image) (s.live x.regions) &&
    (q.replay.isSome || s.suppressing || x.ring.hasFree) &&
    (!s.suppressing || s.pair.inputs.any (fun f => f.input == .stepStart x.id && f.tag == s.tick.count + 1))

/-- An item refused at its start completes at once (R305). -/
def State.refuseStart (s : State) (x : Sess) (q : QItem) (o : Outcome) : State :=
  let s := s.setSess x.id (fun y => { y with queue := y.queue.drop 1, refusedAt := some s.tick.count })
  match q.replay with
  | none =>
    let s := s.setSess x.id (fun y => { y with lastDone := some q.counter })
    s.postRecord x.id false (removedRecord q o.code)
  | some rp => s.endReplay rp.mb x.id o

/-- The item at the front of a session's queue starts or is refused (R216, R269, R303, R305, R323). -/
def State.startItem (s : State) (x : Sess) (q : QItem) : State :=
  let i := look {} x.images q.image
  let s := s.forward (.stepStart x.id)
  if s.refusedStart i (s.live x.regions) then s.refuseStart x q { code := 8 }
  else
    let go := fun (s : State) (q : QItem) => s.setSess x.id (fun y => { y with
      queue := y.queue.drop 1, running := some { item := q, bound := i.bound }
      ring := { y.ring with reserved := q.replay.isNone } })
    match q.replay with
    | none => go s q
    | some rp =>
      let occ := s.occupied
      match s.placeAll i i.written occ [] with
      | some p =>
        let s := s.copyTensors i p i.written
        go s { q with replay := some { rp with copies := i.written.foldl (fun c t => put 0 c t (look 0 p t + 1)) [] } }
      | none =>
        let need := (i.written.map (fun t => up64k (i.tBytes t))).foldl (· + ·) 0
        s.refuseStart x q { code := 5, shortfall := need - (s.tierFree false occ + s.tierFree true occ) }

/-- `STEP_START` (R305). -/
def execStepStart (sess : Nat) (s : State) : Host.Outcome State Fault Refusal :=
  match (if s.atBoundary then s.session sess else none) with
  | none => .next s
  | some x => match x.queue with
    | [] => .next s
    | q :: _ => if s.mayStart x q then .next (s.startItem x q) else .next s

/-- Where a replay's bytes of a tensor lie: in its own copy of one that is written, else in the tensor (R215, R216). -/
def ReplayReq.srcAddr (rp : ReplayReq) (i : Image) : Nat :=
  let c := look 0 rp.copies rp.unit
  (if c ≠ 0 then c - 1 else i.addrOf rp.unit) + rp.offset

/-- The bytes a replay delivers (R215): of a tensor, of the cluster-buffer bank written in its last tick, of a tile. -/
def State.replayBytes (s : State) (x : Sess) (run : Run) (rp : ReplayReq) : List Byte :=
  let i := x.imageOf run
  if rp.target = 0 then rdBytes s.memView (rp.srcAddr i) rp.length
  else if rp.target = 1 then
    let (c, base) := run.bindOf rp.unit
    rdBytes (s.buf c).read (base + rp.offset) rp.length
  else run.snap

/-- A replay ends (R215, R216, R218, R308). -/
def State.endRun (s : State) (x : Sess) (run : Run) (rp : ReplayReq) (code : Nat) : State :=
  if code ≠ 0 then s.endReplay rp.mb x.id { code := code }
  else
    let b := s.replayBytes x run rp
    let src := rp.srcAddr (x.imageOf run)
    if (rp.devDest && !s.served rp.dest b.length) || (rp.target == 0 && !s.served src rp.length) then
      s.endReplay rp.mb x.id { code := 0xE }
    else
      let s := if rp.target == 0 && s.waits src rp.length then
          s.holdAccess { kind := .fetch, addr := src, len := rp.length, mb := some rp.mb } else s
      let s := if rp.devDest then s.devStore rp.dest b (some rp.mb)
        else { s with out := { s.out with hostMem := wrBytes s.out.hostMem rp.dest b } }
      s.endReplay rp.mb x.id { fields := [
        (0x120, leBytes 8 (run.digests.getLastD 0).toNat), (0x128, leBytes 8 (chainDigest run.digests))] }

/-- A step's own completion record (R292). -/
def stepRecord (run : Run) (code : Nat) : Record :=
  recordOf run.item.image code 0 run.item.counter run.item.cookie (if code = 0 then chainDigest run.digests else 0)
    (if code = 0 then run.ovf else 0) run.digests.length run.startTick run.lastTick

/-- When an image's fold has become infeasible under a running step, the image's queued work completes too (R44). -/
def State.dropImage (s : State) (x : Sess) (run : Run) (code : Nat) : State :=
  if code = 6 && run.begun then (s.removeQueued x.id (fun q => q.image == run.item.image) 6).2 else s

/-- A session's ended step or replay completes (R215, R292). -/
def State.completeRun (s : State) (x : Sess) (run : Run) (code : Nat) : State :=
  let s := s.setSess x.id (fun y => { y with running := none })
  match run.item.replay with
  | some rp => (s.endRun x run rp code).dropImage x run code
  | none =>
    let s := s.setSess x.id (fun y => { y with lastDone := some run.item.counter })
    (s.postRecord x.id true (stepRecord run code)).dropImage x run code

/-- `STEP_COMPLETE` (R292, R215). -/
def execStepComplete (sess : Nat) (s : State) : Host.Outcome State Fault Refusal :=
  match s.session sess with
  | none => .next s
  | some x => match x.running with
    | none => .next s
    | some run => match run.finish with
      | some c => .next (s.completeRun x run c)
      | none => .next s

/-- `COMPLETION_RECORD_WRITE` (R293): the first waiting record takes the entry that has come free. -/
def execCompletionRecordWrite (sess : Nat) (s : State) : Host.Outcome State Fault Refusal :=
  match s.session sess with
  | none => .next s
  | some x => match x.ring.waiting with
    | [] => .next s
    | rec :: more =>
      if x.ring.hasFree && s.ringReachable x.ring then
        let s := s.setSess sess (fun y => { y with ring := { y.ring with waiting := more } })
        .next ((s.putRecord x rec).endCloses)
      else .next s

end Sys2Proof.Machine
end

