-- ==== Sys2Proof/Machine/Mailboxes.lean ====
section
/-! DEFINITION. The events of the mailbox window besides go writes (11): claims, the ring consumer index, leases, the
health record and the event pending words. -/

namespace Sys2Proof.Machine

/-- What a claim read returns when the mailbox cannot be claimed (R276, R278, R296). -/
def taken : Nat := 0xFFFFFFFF

/-- The count of the next claim of mailbox n: one that would make the tag all-ones is skipped (R276). -/
def nextClaim (count n : Nat) : Nat :=
  let c := (count + 1) % 2 ^ 24
  if c * 256 + n = taken then (c + 1) % 2 ^ 24 else c

/-- A mailbox as a claim leaves it (R276, R277). -/
def Mailbox.claim (m : Mailbox) (n : Nat) : Mailbox :=
  { m with claims := nextClaim m.claims n, claimed := true, tag := nextClaim m.claims n * 256 + n, sess := 0, seq := 0,
           state := 0, code := 0, statusSeq := 0, mask := 0, pend := 0, opened := false, goIgnored := 0 }

/-- Mailbox n can be claimed (R276, R278, R296). -/
def State.claimable (s : State) (n : Nat) : Bool := s.serving && decide (1 ≤ n) && decide (n < 256) && !(s.mb n).claimed

/-- A read of a claim word: what it returns and the claim it makes (R276, R277, R278, R296). -/
def State.readClaim (s : State) (n : Nat) : Nat × State :=
  if s.claimable n then (((s.mb n).claim n).tag, s.setMb n (fun m => m.claim n)) else (taken, s)

/-- `CLAIM_READ` (R276): the answer stands in `out.claimTag`. -/
def execClaimRead (n : Nat) (s : State) : Host.Outcome State Fault Refusal :=
  if !s.reachable then .next s
  else
    let (v, s) := s.readClaim n
    .next { s with out := { s.out with claimTag := v } }

/-- A claimed mailbox that is bound to no session and carries no command. -/
def Mailbox.idleClaim (m : Mailbox) : Bool := m.claimed && m.sess == 0 && m.busy.isNone

/-- A write of a claim word (R277): any but one of the owner tag is ignored. -/
def State.writeClaim (s : State) (n : Nat) (tag : Word) : State :=
  if s.serving && (s.mb n).idleClaim && (s.mb n).tag == tag.toNat then s.setMb n Mailbox.freed else s

/-- `CLAIM_RELEASE` (R277). -/
def execClaimRelease (n : Nat) (tag : Word) (s : State) : Host.Outcome State Fault Refusal :=
  if s.reachable then .next (s.writeClaim n tag) else .next s

/-- `CLAIM_LAPSE` (R277): 1 s has passed since the claim. -/
def execClaimLapse (n : Nat) (s : State) : Host.Outcome State Fault Refusal :=
  if (s.mb n).idleClaim && !(s.mb n).opened then .next (s.setMb n Mailbox.freed) else .next s

/-- A value from the consumer index in force up to the producer index (R294). -/
def CRing.mayConsume (c : CRing) (v : Nat) : Bool := decide ((c.prod + 2 ^ 32 - v) % 2 ^ 32 ≤ (c.prod + 2 ^ 32 - c.cons) % 2 ^ 32)

/-- A write of a ring consumer index (R294). -/
def State.writeConsumer (s : State) (n : Nat) (v : Word) : State :=
  match (if s.serving then s.session (s.mb n).sess else none) with
  | none => s
  | some x =>
    if x.ring.mayConsume v.toNat then s.setSess x.id (fun y => { y with ring := { y.ring with cons := v.toNat } })
    else s.raise (.mbStatus n) 0x08000000

/-- `RING_CONSUMER_WRITE` (R294). -/
def execRingConsumerWrite (n : Nat) (v : Word) (s : State) : Host.Outcome State Fault Refusal :=
  if s.reachable then .next (s.writeConsumer n v) else .next s

/-- `LEASE_EXPIRY` (R289): the lease of a session runs out, and it closes as by `CLOSE_SESSION`. -/
def execLeaseExpiry (sess : Nat) (s : State) : Host.Outcome State Fault Refusal :=
  match s.session sess with
  | none => .next s
  | some x =>
    if x.lease ≠ 0 && !x.closing then .next ((s.beginClose sess none).2.note .lease 0 sess []) else .next s

/-- `HEALTH_RECORD_REWRITE` (R296). -/
def execHealthRecordRewrite (s : State) : Host.Outcome State Fault Refusal :=
  if s.dev.pwrGood && !s.dev.uvHold then .next s.rewriteHealth else .next s

/-- The event pending bits that something sets (R295): bit 3 on mailbox 0 only, the others on the rest. -/
def eventBits (n : Nat) : Word := if n = 0 then 8 else 7

/-- The vector of a mailbox raised once for each bit of a word (R295). -/
def State.raiseEach (s : State) (n : Nat) (m : Word) : State :=
  (List.range 4).foldl (fun s b => if m.getLsbD b then s.raiseVector n else s) s

/-- A write of an event pending word (R295, R375, R376): a set by hardware in the same cycle wins, is counted, and raises
the vector if it is enabled. -/
def State.clearEvents (s : State) (n : Nat) (w hwSet : Word) : State :=
  let m := hwSet &&& eventBits n
  (s.w1c (.evPend n) w m).raiseEach n (m &&& (s.mb n).mask)

/-- `EVENT_PENDING_CLEAR` (R295, R375, R376). -/
def execEventPendingClear (n : Nat) (w hwSet : Word) (s : State) : Host.Outcome State Fault Refusal :=
  if s.reachable && decide (n < 256) then .next (s.clearEvents n w hwSet) else .next s

/-- `GO_WRITE_IGNORED` (R280, R296). -/
def execGoWriteIgnored (n : Nat) (v : Word) (s : State) : Host.Outcome State Fault Refusal :=
  if s.reachable && decide (n < 256) && !s.accepts n v.toNat then .next (s.ignoreGo n) else .next s

end Sys2Proof.Machine
end

