-- ==== Sys2Proof/Machine/Windows.lean ====
section
/-! DEFINITION. What the host reaches through the base address registers of the part's function: the mailbox window, which
is BAR0, and the vector table with its pending bits in BAR2 (11: R271 to R273). The model lays BAR0 behind the device
addresses of the register blocks, where the flag selector's block 11 stands, and BAR2 behind BAR0 (log entry 61). -/

namespace Sys2Proof.Machine

/-- Where the model lays BAR0 (R271; log entry 61). -/
def bar0 : Nat := 0x1F000B000000

/-- Where the model lays BAR2 (R271; log entry 61). -/
def bar2 : Nat := 0x1F000C000000

/-- The mailbox and the offset in it of an access that lies in BAR0 (R271). -/
def mailboxAt (a n : Nat) : Option (Nat × Nat) :=
  if bar0 ≤ a ∧ a + n ≤ bar0 + 0x100000 then some ((a - bar0) / 0x1000, (a - bar0) % 0x1000) else none

/-- The offset of an access that lies in BAR2's vector table and pending bits (R271). -/
def vectorsAt (a n : Nat) : Option Nat := if bar2 ≤ a ∧ a + n ≤ bar2 + 0x1020 then some (a - bar2) else none

/-- An access in a mailbox's inline payload (R272, R273). -/
def inlineAt (off n : Nat) : Bool := decide (0x200 ≤ off) && decide (off + n ≤ 0xF00)

/-- The window takes an access outside the inline payload: 4 or 8 bytes, naturally aligned (R272). -/
def windowTakes (off n : Nat) : Bool := (n == 4 || n == 8) && off % n == 0

/-- The status word of a mailbox as the host reads it (R278, R283, R296, R347, R362). -/
def State.statusWord (s : State) (n : Nat) : Word :=
  if n = 0 then 0
  else if !s.serving then fieldsW [(16, 8), (0, 3)]
  else
    let m := s.mb n
    fieldsW [(16, m.code % 65536), (8, m.statusSeq % 256), (0, m.state % 16)]

/-- The ring of the session that a mailbox is bound to; with none its indexes read 0 (R273; log entry 61). -/
def State.ringOf (s : State) (n : Nat) : CRing :=
  match s.session (s.mb n).sess with
  | some x => x.ring
  | none => {}

/-- A word of a mailbox at an offset, but for the claim word and for the header (R273, R280, R283, R294, R296). -/
def State.windowWord (s : State) (n off : Nat) : Word :=
  if off < 0x100 then BitVec.ofNat 32 (fld s.healthRecord off 4)
  else if off < 0x200 then BitVec.ofNat 32 (fld (s.mb n).resp (off - 0x100) 4)
  else if off = 0xF00 then s.statusWord n
  else if off = 0xF04 then (s.mb n).mask
  else if off = 0xF0C then BitVec.ofNat 32 (s.ringOf n).cons
  else if off = 0xF10 then BitVec.ofNat 32 (s.ringOf n).prod
  else if off = 0xF14 then s.flags (.evPend n)
  else if off = 0xFFC then BitVec.ofNat 32 (s.mb n).seq
  else 0

/-- A read of a word of a mailbox: a claim word is claimed by it (R276); the header of a mailbox is written only, and what
a read of it gives is a free value (R273; log entry 61). -/
def State.takeWord (s : State) (n off : Nat) : Word × State :=
  if off = 0xF08 then
    let (v, s) := s.readClaim n
    (BitVec.ofNat 32 v, s)
  else if off < 0x100 ∧ n ≠ 0 then (BitVec.ofNat 32 (Config.freeValue s.free), { s with free := s.free + 1 })
  else (s.windowWord n off, s)

/-- Words of a mailbox read one after another, from the lowest up. -/
def State.takeWords : Nat → Nat → State → Nat → List Byte × State
  | _, _, s, 0 => ([], s)
  | n, off, s, k + 1 =>
    let (v, s) := s.takeWord n off
    let (l, s) := State.takeWords n (off + 4) s k
    (leBytes 4 v.toNat ++ l, s)

/-- A host read in the mailbox window: one that the window does not take is dropped and returns all-ones (R272). -/
def State.readMailbox (s : State) (n off len : Nat) : List Byte × State :=
  if inlineAt off len then (rdBytes (s.mb n).inl (off - 0x200) len, s)
  else if windowTakes off len then State.takeWords n off s (len / 4)
  else (List.replicate len 0xFF, s)

/-- A write of the go word that starts no command is ignored and counted; one that starts a command is the command's own
row (R280; log entry 61). -/
def State.writeGo (s : State) (n : Nat) (v : Word) : State := if s.accepts n v.toNat then s else s.ignoreGo n

/-- A write of a word of a mailbox (R273, R277, R280, R294, R295): what R273 gives no write access is left as it is, and
so is all of mailbox 0 below its status word (R296). -/
def State.putWord (s : State) (hwSet : Word) (n off : Nat) (v : Word) : State :=
  if off < 0x100 then
    (if n = 0 then s else s.setMb n (fun m => { m with hdr := wrBytes m.hdr off (leBytes 4 v.toNat) }))
  else if off = 0xF04 then s.setMb n (fun m => { m with mask := v &&& 0xF })
  else if off = 0xF08 then s.writeClaim n v
  else if off = 0xF0C then s.writeConsumer n v
  else if off = 0xF14 then s.clearEvents n v hwSet
  else if off = 0xFFC then s.writeGo n v
  else s

/-- A host write in the mailbox window: one that the window does not take is dropped (R272). -/
def State.writeMailbox (s : State) (n off : Nat) (b : List Byte) (hwSet : Word) : State :=
  if inlineAt off b.length then
    (if n = 0 then s else s.setMb n (fun m => { m with inl := wrBytes m.inl (off - 0x200) b }))
  else if windowTakes off b.length then
    (List.range (b.length / 4)).foldl (fun s k => s.putWord hwSet n (off + 4 * k) (BitVec.ofNat 32 (fld b (4 * k) 4))) s
  else s

/-- The vector table and its pending-bit array, one bit for each vector that waits (R271, R404). -/
def State.vectorBytes (s : State) : List Byte :=
  rdBytes s.out.msix 0 0x1000 ++
    leBytes 32 ((List.range 256).foldl (fun v n => v + (if s.out.vecWait.contains n then 2 ^ n else 0)) 0)

/-- A host write in BAR2: the table is the host's, the pending bits are the part's (R271). -/
def State.writeVectors (s : State) (off : Nat) (b : List Byte) : State :=
  { s with out := { s.out with msix := wrBytes s.out.msix off (b.take (0x1000 - off)) } }

/-- A host read through a base address register, if the address lies in one (R271). -/
def State.readBar (s : State) (a len : Nat) : Option (List Byte × State) :=
  match mailboxAt a len, vectorsAt a len with
  | some (n, off), _ => some (s.readMailbox n off len)
  | none, some off => some (slice s.vectorBytes off len, s)
  | none, none => none

/-- A host write through a base address register (R271). -/
def State.writeBar (s : State) (a : Nat) (b : List Byte) (hwSet : Word) : State :=
  match mailboxAt a b.length, vectorsAt a b.length with
  | some (n, off), _ => s.writeMailbox n off b hwSet
  | none, some off => s.writeVectors off b
  | none, none => s

end Sys2Proof.Machine
end

