-- ==== Sys2Proof/Machine/Sessions.lean ====
section
/-! DEFINITION. The session, memory, schedule, step and replay commands of Icura (11: R298 to R308): what R298 says of
each, and its meaning from go write to answer. -/

namespace Sys2Proof.Machine

/-- A go write with its command, from acceptance to answer (R280 to R285, R329, R330): `own` are the checks a verdict counts,
`core` the command's own meaning. -/
def State.runCmd (s : State) (c : Cmd) (g : Go) (own : State → Option Fail × State) (core : State → Reply × State) :
    State :=
  if !g.wf || !s.reachable then s
  else if !s.accepts g.mb g.go.toNat then s.ignoreGo g.mb
  else
    let s := s.accept c.opcode g
    let (f, s) := s.check c g own
    if s.orders c && !s.leftOut c g then (s.holdOrder c g f).sendPair
    else match f with
    | some f => s.postResult c.opcode g f.outcome
    | none =>
      let (r, s) := core s
      s.answer c.opcode g r

/-- A go write with its command as an outcome of the block. -/
def icura (c : Cmd) (g : Go) (own : State → Option Fail × State) (core : State → Reply × State) (s : State) :
    Host.Outcome State Fault Refusal :=
  .next (s.runCmd c g own core)

/-- `OPEN_SESSION` in R298 and R300. -/
def cmdOpen : Cmd :=
  { opcode := 0x10, needs := false, ordered := true, form := lowBits 0x20 3
    used := [(0x20, 4), (0x24, 4), (0x28, 8), (0x30, 8), (0x38, 8), (0x40, 4), (0x44, 4), (0x48, 4), (0x50, 64)] }

/-- `OPEN_SESSION` (R286). -/
def execOpenSession (g : Go) (s : State) : Host.Outcome State Fault Refusal := icura cmdOpen g (ownOpen g) (coreOpen g) s

/-- `CLOSE_SESSION` in R298. -/
def cmdClose : Cmd := { opcode := 0x11, ordered := true }

/-- `CLOSE_SESSION` (R291). -/
def execCloseSession (g : Go) (s : State) : Host.Outcome State Fault Refusal := icura cmdClose g noCheck (coreClose g) s

/-- `SET_SESSION_LIMITS` in R298 and R300. -/
def cmdLimits : Cmd :=
  { opcode := 0x12, ordered := true, form := lowBits 0x20 4, used := [(0x20, 4), (0x28, 8), (0x30, 8), (0x38, 4)] }

/-- `SET_SESSION_LIMITS` (R300). -/
def execSetSessionLimits (g : Go) (s : State) : Host.Outcome State Fault Refusal :=
  icura cmdLimits g (ownLimits g) (coreLimits g) s

/-- `ALLOC_MEMORY` in R298 and R302. -/
def cmdAlloc : Cmd := { opcode := 0x20, ordered := true, used := [(0x20, 8), (0x28, 1)] }

/-- `ALLOC_MEMORY` (R302). -/
def execAllocMemory (g : Go) (s : State) : Host.Outcome State Fault Refusal := icura cmdAlloc g noCheck (coreAlloc g) s

/-- `FREE_MEMORY` in R298 and R302. -/
def cmdFree : Cmd := { opcode := 0x21, ordered := true, used := [(0x20, 8)] }

/-- `FREE_MEMORY` (R302). -/
def execFreeMemory (g : Go) (s : State) : Host.Outcome State Fault Refusal := icura cmdFree g noCheck (coreFree g) s

/-- `LOAD_SCHEDULE` in R298 and R303. -/
def cmdLoad : Cmd := { opcode := 0x30, ordered := true, pay := 1 }

/-- `LOAD_SCHEDULE` (R303, R451). -/
def execLoadSchedule (g : Go) (s : State) : Host.Outcome State Fault Refusal := icura cmdLoad g noCheck (coreLoad g) s

/-- `UNLOAD_SCHEDULE` in R298 and R303. -/
def cmdUnload : Cmd := { opcode := 0x31, ordered := true, used := [(0x20, 1)] }

/-- `UNLOAD_SCHEDULE` (R303). -/
def execUnloadSchedule (g : Go) (s : State) : Host.Outcome State Fault Refusal := icura cmdUnload g noCheck (coreUnload g) s

/-- `BIND_TENSOR` in R298 and R303. -/
def cmdBind : Cmd := { opcode := 0x32, ordered := true, used := [(0x20, 1), (0x22, 2), (0x28, 8)] }

/-- `BIND_TENSOR` (R303). -/
def execBindTensor (g : Go) (s : State) : Host.Outcome State Fault Refusal := icura cmdBind g noCheck (coreBind g) s

/-- `SUBMIT_STEPS` in R298 and R304. -/
def cmdSubmit : Cmd :=
  { opcode := 0x40, ordered := true, pay := 1, used := [(0x20, 1), (0x24, 4)]
    form := payRule (fun g => g.payLen.toNat == 32 * par g 0x24 4) }

/-- `SUBMIT_STEPS` (R304). -/
def execSubmitSteps (g : Go) (s : State) : Host.Outcome State Fault Refusal :=
  icura cmdSubmit g (ownSubmit g) (coreSubmit g) s

/-- `CANCEL_STEPS` in R298 and R306. -/
def cmdCancel : Cmd :=
  { opcode := 0x41, ordered := true, form := lowBits 0x20 3, used := [(0x20, 4), (0x28, 8), (0x30, 8)] }

/-- `CANCEL_STEPS` (R306). -/
def execCancelSteps (g : Go) (s : State) : Host.Outcome State Fault Refusal :=
  icura cmdCancel g noCheck (coreCancel g) s

/-- `REPLAY_INTERMEDIATE` in R298 and R308. -/
def cmdReplay : Cmd :=
  { opcode := 0xD0, ordered := true, form := lowBits 0x48 1
    used := [(0x20, 1), (0x21, 1), (0x22, 2), (0x24, 4), (0x28, 8), (0x30, 8), (0x38, 8), (0x40, 8), (0x48, 4)] }

/-- `REPLAY_INTERMEDIATE` (R215, R308). -/
def execReplayIntermediate (g : Go) (s : State) : Host.Outcome State Fault Refusal :=
  icura cmdReplay g (ownReplay g) (coreReplay g) s

/-- `LOAD_FABRIC` in R298 and R309. -/
def cmdFabric : Cmd := { opcode := 0x50, ordered := true, pay := 1 }

/-- `LOAD_FABRIC` (R248 to R253, R309). -/
def execLoadFabric (g : Go) (partner : Option Nat) (s : State) : Host.Outcome State Fault Refusal :=
  icura cmdFabric g (ownFabric true partner g) (coreFabric true g) s

/-- `LOAD_FABRIC_REGION` in R298 and R309. -/
def cmdFabricRegion : Cmd := { opcode := 0x51, ordered := true, pay := 1, used := [(0x20, 1)] }

/-- `LOAD_FABRIC_REGION` (R248 to R253, R309). -/
def execLoadFabricRegion (g : Go) (partner : Option Nat) (s : State) : Host.Outcome State Fault Refusal :=
  icura cmdFabricRegion g (ownFabric false partner g) (coreFabric false g) s

/-- What `QUERY_STEPS` returns (R307); the value of `LAST_DONE` when no step has completed, and that of `FOLD` without an
image, the manual does not give (log entry 7). -/
def coreQuery (g : Go) (s : State) : Reply × State :=
  let id := (s.mb g.mb).sess
  match s.session id with
  | none => (err 3, s)
  | some x =>
    let run := match x.running with | some r => if r.item.replay.isNone then some r else none | none => none
    let (v, s) := s.draw
    let fold := match run, x.image 0 with | some r, _ => (x.imageOf r).fold | none, some i => i.fold | none, none => v
    (.done { fields := [
      (0x120, leBytes 8 (match run with | some r => r.item.counter | none => 2 ^ 64 - 1)),
      (0x128, leBytes 4 (match run with | some r => r.tick | none => 0)),
      (0x12C, leBytes 4 x.queue.length), (0x130, leBytes 8 x.next),
      (0x138, leBytes 8 (x.lastDone.getD v)), (0x140, leBytes 4 x.notices), (0x144, leBytes 1 fold),
      (0x146, leBytes 2 (s.live x.regions).length)] }, s.setSess id (fun y => { y with notices := 0 }))

/-- `QUERY_STEPS` in R298. -/
def cmdQuery : Cmd := { opcode := 0x42 }

/-- `QUERY_STEPS` (R307). -/
def execQuerySteps (g : Go) (s : State) : Host.Outcome State Fault Refusal := icura cmdQuery g noCheck (coreQuery g) s

/-- The opcodes of R298. -/
def opcodes : List Nat :=
  [0x01, 0x02, 0x10, 0x11, 0x12, 0x20, 0x21, 0x30, 0x31, 0x32, 0x40, 0x41, 0x42, 0x50, 0x51, 0x52, 0x60, 0x61, 0x62,
   0x63, 0x70, 0x71, 0x80, 0x81, 0x90, 0x91, 0xA0, 0xA1, 0xB0, 0xB1, 0xB2, 0xC0, 0xC1, 0xD0]

/-- A go write whose opcode R298 does not list is taken and answered so (R285). -/
def State.badOpcode (s : State) (g : Go) (opcode : Nat) : State :=
  if !s.accepts g.mb g.go.toNat then s.ignoreGo g.mb
  else
    let s := s.accept opcode g
    let left := s.leftOut { opcode := opcode } g
    s.postResult opcode g { code := if left then 0xD else 1 }

/-- `UNDEFINED_OPCODE` (R285). -/
def execUndefinedOpcode (g : Go) (opcode : BitVec 16) (s : State) : Host.Outcome State Fault Refusal :=
  if !g.wf || !s.reachable || opcodes.contains opcode.toNat then .next s
  else .next (s.badOpcode g opcode.toNat)

/-! Commands that report. -/

/-- `DFLAGS` of `DEVICE_INFO` (R299). -/
def State.dflags (s : State) : Nat :=
  b2n s.dev.setDefaulted + 2 * b2n (!s.sec.rbOn) + 4 * b2n s.operKey.isSome +
    8 * b2n (s.fcfg.flashRan && s.fcfg.flashStatus == 0)

/-- The map of the regions that a test accepts. -/
def regionMap (p : Nat → Bool) : Nat := (mapOf ((List.range 64).filter p)).toNat

/-- What `DEVICE_INFO` returns (R299, R359). -/
def coreInfo (s : State) : Reply × State :=
  let occ := s.occupied
  (.done { fields := [
    (0x120, leBytes 2 1), (0x122, leBytes 2 0x3216), (0x124, leBytes 2 Config.stepping.toNat), (0x126, leBytes 2 s.dflags),
    (0x128, leBytes 4 s.fwVersion), (0x12C, leBytes 4 s.tickNs), (0x130, leBytes 2 s.units.capacity),
    (0x132, leBytes 2 (s.units.capacity / 8)), (0x134, leBytes 1 s.mpk.lpN),
    (0x135, leBytes 1 (if s.mpk.lpN = 0 then 0 else s.mpk.lpCap)), (0x136, leBytes 1 s.pair.mode),
    (0x137, leBytes 1 s.pair.role), (0x138, leBytes 2 s.freeMailboxes), (0x13A, leBytes 2 s.sess.length),
    (0x140, leBytes 8 (s.tierFree false occ)), (0x148, leBytes 8 (if s.dev.stage < 2 then 0 else s.tierFree true occ)),
    (0x150, fit 32 s.dev.nonce), (0x170, s.deviceId),
    (0x180, leBytes 8 (regionMap (fun r => (s.fabric r).configured))),
    (0x188, leBytes 8 (regionMap s.units.fenced))] }, s)

/-- `DEVICE_INFO` in R298. -/
def cmdInfo : Cmd := { opcode := 0x01, needs := false }

/-- `DEVICE_INFO` (R299). -/
def execDeviceInfo (g : Go) (s : State) : Host.Outcome State Fault Refusal := icura cmdInfo g noCheck coreInfo s

/-- `HEALTH` in R298. -/
def cmdHealth : Cmd := { opcode := 0x02, needs := false }

/-- `HEALTH` (R296, R299). -/
def execHealth (g : Go) (s : State) : Host.Outcome State Fault Refusal :=
  icura cmdHealth g noCheck (fun s => (.done { fields := [(0x120, s.healthRecord.take 48)] }, s)) s

/-- A region may be named by a session: it lies in no other one's partition (R297). -/
def State.mayName (s : State) (id r : Nat) : Bool := decide (r < 64) && ((s.region r).owner == 0 || (s.region r).owner == id)

/-- What `FABRIC_STATUS` returns (R7, R297, R309). -/
def coreFabStatus (g : Go) (s : State) : Reply × State :=
  let r := par g 0x20 1
  if !s.mayName (s.mb g.mb).sess r then (err 4 (detailOf 5 0x20), s)
  else
    let f := s.fabric r
    (.done { fields := [
      (0x120, leBytes 8 (regionMap (fun k => (s.fabric k).configured))),
      (0x128, leBytes 8 (regionMap (fun k => (s.fabric k).isolated))),
      (0x130, leBytes 8 (regionMap (fun k => (s.fabric k).loading))),
      (0x138, leBytes 8 (regionMap (fun k => (s.fabric k).startup.timedOut))),
      (0x140, leBytes 8 f.imageId), (0x148, leBytes 4 (s.regValue (.fabStartup r)).toNat),
      (0x14C, leBytes 4 (s.regValue .cfg).toNat)] }, s)

/-- `FABRIC_STATUS` in R298. -/
def cmdFabStatus : Cmd := { opcode := 0x52, used := [(0x20, 1)] }

/-- `FABRIC_STATUS` (R309). -/
def execFabricStatus (g : Go) (s : State) : Host.Outcome State Fault Refusal :=
  icura cmdFabStatus g noCheck (coreFabStatus g) s

/-- The counters of a telemetry group for one unit (R312): free values, of which the last argument gives one, stand for
what the manual counts without saying how, the energy of a region, the in-order episodes of a controller (R189), and for the address of a tensor never bound. -/
def State.counters (s : State) (x : Sess) (group i free : Nat) : List Nat :=
  if group = 1 then
    (List.range 9).flatMap (fun p =>
      let k := 9 * i + p
      let t := s.tile k
      [((look [] s.units.overruns k).filter (fun n => decide (s.tick.count - n < 1024))).length,
       look 0 s.units.ovrTotal k, t.r.switchesAll, t.r.lateAll, (s.units.tileOf k).getD 0xFFFF])
  else if group = 2 then
    (let r := s.region i
    [r.stretches, r.stretchTotal, r.lastStretch, r.changeovers])
  else if group = 3 then
    (List.range 32).flatMap (fun n =>
      let y := s.stream i n
      [y.grants, y.lateCnt, y.stallCnt, y.overruns, y.bound.getD 0xFFFF])
  else if group = 4 then
    (let c := s.memCtl i
    [c.ceCount] ++ (List.range (if i < 16 then 32 else 4)).map (look 0 c.allCounts) ++ [s.mpk.panics, free])
  else if group = 5 then
    (let m := look {} x.images i
    (List.range m.tensors).flatMap (fun t =>
      [if m.tKind t = 2 && look 0 m.bound t == 0 then free else m.addrOf t, up64k (m.tBytes t)]))
  else if group = 6 then [(s.region i).op, (s.region i).steps, free]
  else
    (let f := s.fabric i
    (List.range 8).flatMap (fun p => [(f.port p).rxBeats, (f.port p).txBeats, (f.port p).credErrs]) ++
      [((List.range 8).map (fun t => (f.tree t).switches)).foldl (· + ·) 0, f.eccFix, f.eccSeen])

/-- A session may read a unit's telemetry (R7, R312). -/
def Sess.mayRead (x : Sess) (group i : Nat) : Bool :=
  if group = 1 then decide (i < 256) && (x.priv || x.regions.getLsbD (i / 4))
  else if group = 4 then decide (i < 40) && x.priv
  else if group = 5 then (x.image i).isSome
  else decide (i < 64) && (x.priv || x.regions.getLsbD i)

/-- `TELEMETRY_READ` (R312) from its checks on. -/
def coreTelemetry (g : Go) (s : State) : Reply × State :=
  let group := par g 0x20 2
  let i := par g 0x24 4
  match s.session (s.mb g.mb).sess with
  | none => (err 3, s)
  | some x =>
    if !(decide (1 ≤ group) && decide (group ≤ 7)) then (err 4 (detailOf 5 0x20), s)
    else if !x.mayRead group i then (err 4 (detailOf 5 0x24), s)
    else
      let (v, s) := s.draw
      (.done { out := (s.counters x group i v).flatMap (leBytes 8) }, s)

/-- `TELEMETRY_READ` in R298 and R312. -/
def cmdTelemetry : Cmd := { opcode := 0xA0, pay := 2, used := [(0x20, 2), (0x24, 4)] }

/-- `TELEMETRY_READ` (R312). -/
def execTelemetryRead (g : Go) (s : State) : Host.Outcome State Fault Refusal :=
  icura cmdTelemetry g noCheck (coreTelemetry g) s

/-- A log entry's 64 bytes (R313). -/
def LogEntry.bytes (e : LogEntry) : List Byte :=
  leBytes 8 e.seq ++ leBytes 8 e.tick ++ leBytes 2 e.code ++ leBytes 2 e.source ++ leBytes 4 e.sess ++ fit 40 e.data

/-- A session may be given an entry (R313). -/
def Sess.mayGet (x : Sess) (e : LogEntry) : Bool := x.priv || (!e.dump && (e.sess == 0 || e.sess == x.id))

/-- `EVENT_LOG_READ` (R275, R313) from its checks on; the first number when nothing is written is a free value. -/
def coreLogRead (g : Go) (s : State) : Reply × State :=
  let from_ := par g 0x20 8
  match s.session (s.mb g.mb).sess with
  | none => (err 3, s)
  | some x =>
    let l := (s.log.entries.filter (fun e => decide (from_ ≤ e.seq) && x.mayGet e)).take
      (Nat.min (par g 0x28 4) (g.payLen.toNat / 64))
    let (v, s) := s.draw
    (.done { out := l.flatMap LogEntry.bytes, fields := [
      (0x120, leBytes 8 (match l with | e :: _ => e.seq | [] => v)), (0x128, leBytes 4 l.length),
      (0x130, leBytes 8 (s.log.base - from_))] }, s)

/-- `EVENT_LOG_READ` in R298 and R313. -/
def cmdLogRead : Cmd := { opcode := 0xA1, pay := 2, used := [(0x20, 8), (0x28, 4)] }

/-- `EVENT_LOG_READ` (R313). -/
def execEventLogRead (g : Go) (s : State) : Host.Outcome State Fault Refusal := icura cmdLogRead g noCheck (coreLogRead g) s

end Sys2Proof.Machine
end

