-- ==== Sys2Proof/Machine/Settings.lean ====
section
/-! DEFINITION. The settings block (13: R356, R365, R366) and the commands that read and write it (R311). -/

namespace Sys2Proof.Machine

/-- A field of the settings block: offset, size, the test of its range, and its default (R365). -/
structure SetField where
  off : Nat
  size : Nat
  ok : List Byte → Bool
  dflt : Nat := 0

/-- A field whose value lies in a range. -/
def ranged (off size lo hi dflt : Nat) : SetField :=
  { off := off, size := size, dflt := dflt, ok := fun b => decide (lo ≤ fld b off size) && decide (fld b off size ≤ hi) }

/-- The fields before the pair's (R365). -/
def fieldsHead : List SetField :=
  [ranged 0 4 0x5453514C 0x5453514C 0x5453514C, ranged 4 2 1 1 1, ranged 0xC 4 0 1 0, ranged 0x10 2 8 256 32,
   ranged 0x12 1 0 255 16, ranged 0x13 1 0 255 32, ranged 0x14 2 400 1600 1600, ranged 0x16 1 9 15 12,
   ranged 0x17 1 0 6 0, ranged 0x18 1 4 8 4, ranged 0x1A 2 0 65535 1024, ranged 0x1C 2 1 448 32,
   ranged 0x20 4 1000 1000000 20000]

/-- The pair fields (R365); `PARTNER_ID` takes any value. -/
def fieldsPair : List SetField :=
  [ranged 0x24 1 0 2 0, ranged 0x25 1 0 1 0,
   { off := 0x28, size := 4, ok := fun b =>
      fld b 0x28 4 == 0 || (fld b 0x24 1 == 2 && decide (fld b 0x28 4 ≤ 3600000)) }]

/-- The fields after the pair's (R365): the operator key and the flash fabric image. -/
def fieldsTail : List SetField :=
  [{ off := 0x40, size := 64, ok := fun b => zeros b 0x40 64 || onCurve (keyOf (slice b 0x40 64)) },
   { off := 0x80, size := 4, ok := fun b => fld b 0x80 4 % 4096 == 0 },
   { off := 0x84, size := 4, ok := fun b => fld b 0x84 4 == 0 || fld b 0x80 4 != 0 }]

/-- The identifier of a unit's kind lies in its range (R7, R314). -/
def unitId (kind id : Nat) : Bool :=
  if kind = 0 then decide (id < 4096) && decide (id % 16 < 9)
  else if kind = 1 then decide (id < 256)
  else if kind = 2 then decide (id < 64)
  else if kind = 4 then decide (id < 512)
  else decide (id < 32)

/-- An entry of the retire list names a unit (R7, R314, R365), or is empty. -/
def retireEntryOk (b : List Byte) (k : Nat) : Bool :=
  let kind := fld b (0x100 + 8 * k) 1
  kind == 0xFF || (decide (kind ≤ 5) && unitId kind (fld b (0x104 + 8 * k) 4))

/-- The retire list (R314, R365), one field of 64 entries. -/
def fieldsList : List SetField :=
  [{ off := 0x100, size := 512, ok := fun b => (List.range 64).all (retireEntryOk b)
     dflt := ofLe ((List.range 64).flatMap (fun _ => leBytes 8 0xFF)) }]

/-- Every field in order of offset, with or without the pair's. -/
def setFields (pair : Bool) : List SetField := fieldsHead ++ (if pair then fieldsPair else []) ++ fieldsTail ++ fieldsList

/-- A block with its check word (R365). -/
def withCheck (b : List Byte) : List Byte :=
  let b := fit 8192 b
  overlay b 0x1FFC (leBytes 4 (crc32c (b.take 0x1FFC)))

/-- The factory defaults (R365). -/
def defaultBlock : List Byte :=
  withCheck ((setFields true).foldl (fun b f => overlay b f.off (leBytes f.size f.dflt)) (zeroBytes 8192))

/-- A copy is valid (R356). -/
def copyValid (b : List Byte) : Bool :=
  b.length == 8192 && fld b 0 4 == 0x5453514C && fld b 4 2 == 1 && fld b 0x1FFC 4 == crc32c (b.take 0x1FFC)

/-- Copy X is newer than copy Y by their sequence numbers (R356). -/
def newer (x y : Nat) : Bool :=
  let d := (x + 2 ^ 32 - y) % 2 ^ 32
  decide (1 ≤ d) && decide (d ≤ 2 ^ 31 - 1)

/-- The copy to use of two: 0 for the defaults, 1 for A, 2 for B (R356). -/
def chooseCopy (a b : List Byte) : Nat :=
  match copyValid a, copyValid b with
  | true, true => if newer (fld b 8 4) (fld a 8 4) then 2 else 1
  | true, false => 1
  | false, true => 2
  | false, false => 0

/-- A valid copy with each field out of range at its default (R366), and whether there was one. -/
def withDefaults (b : List Byte) : List Byte × Bool :=
  (setFields true).foldl (fun p f =>
    if f.ok p.1 then p else (overlay p.1 f.off (leBytes f.size f.dflt), true)) (b, false)

/-- The first field of a block to be written that is out of its range (R366). -/
def fieldFault (b : List Byte) (pair : Bool) : Option Nat :=
  ((setFields pair).find? (fun f => !f.ok b)).map (fun f => f.off)

/-- The bytes of the copy in use, or the factory defaults. -/
def State.inUse (s : State) : List Byte := s.copyInUse.getD defaultBlock

/-- A block written to the copy not in use with the next sequence number, and put in use (R311, R365): the sequence
number and the copy. -/
def State.storeCopy (s : State) (b : List Byte) : Nat × Nat × State :=
  let seq := (fld s.inUse 8 4 + 1) % 2 ^ 32
  let b := withCheck (overlay b 8 (leBytes 4 seq))
  let copy := if s.dev.setCopy = 1 then 2 else 1
  (seq, copy, { s with
    flash := if copy = 1 then { s.flash with setA := b } else { s.flash with setB := b }
    dev := { s.dev with setCopy := copy, settings := (withDefaults b).1, setDefaulted := false
                        fieldDefaulted := (withDefaults b).2 } })

/-- A settings write (R28, R311, R365, R366): a failure, or the new sequence number and the copy written. From the SMBus
the pair fields are the payload's, otherwise those of the copy in use. -/
def State.writeSettings (s : State) (b : List Byte) (fromBus flashOk : Bool) : Except Fail (Nat × Nat × State) :=
  if b.length ≠ 8192 then .error { code := 2, detail := detailOf 1 0x10 }
  else match fieldFault b fromBus with
  | some o => .error { code := 2, detail := detailOf 1 o }
  | none =>
    if fld b 0x10 2 ≠ s.tick.period && s.imageLoaded then .error { code := 7 }
    else if !flashOk then .error { code := 0xE }
    else
      let b := if fromBus then b else overlay b 0x24 (slice s.inUse 0x24 28)
      let (seq, copy, s) := s.storeCopy b
      .ok (seq, copy, { s with dev := { s.dev with applyAt := true, applyPeriod := true } })

/-- `SETTINGS_WRITE` from its own checks on (R311). -/
def coreSettingsWrite (g : Go) (flashOk : Bool) (s : State) : Reply × State :=
  match s.writeSettings (s.payload g) false flashOk with
  | .error f => (.done f.outcome, s)
  | .ok (seq, copy, s) => (.done { fields := [(0x120, leBytes 4 seq), (0x124, leBytes 4 copy)] }, s)

/-- `SETTINGS_WRITE` in R298 and R311. -/
def cmdSettingsWrite : Cmd :=
  { opcode := 0x91, priv := true, pay := 1, form := payRule (fun g => g.payLen == 8192) }

/-- `SETTINGS_WRITE` (R311, R366). -/
def execSettingsWrite (g : Go) (flashOk : Bool) (s : State) : Host.Outcome State Fault Refusal :=
  icura cmdSettingsWrite g noCheck (coreSettingsWrite g flashOk) s

/-- `SETTINGS_READ` from its own checks on (R7, R311). -/
def coreSettingsRead (g : Go) (s : State) : Reply × State :=
  let copy := par g 0x20 1
  let off := par g 0x24 4
  let len := par g 0x28 4
  let b := if copy = 0 then s.inUse else if copy = 1 then s.flash.setA else s.flash.setB
  if copy > 2 then (err 4 (detailOf 5 0x20), s)
  else if off + len > 8192 then (err 2 (detailOf 5 0x28), s)
  else (.done {
    out := slice (fit 8192 b) off len
    fields := [(0x120, leBytes 4 (fld b 8 4)),
      (0x124, leBytes 4 (b2n (copyValid s.flash.setA) + 2 * b2n (copyValid s.flash.setB) + 4 * b2n (s.dev.setCopy == 2)))] },
    s)

/-- `SETTINGS_READ` in R298 and R311. -/
def cmdSettingsRead : Cmd := { opcode := 0x90, pay := 2, used := [(0x20, 1), (0x24, 4), (0x28, 4)] }

/-- `SETTINGS_READ` (R311). -/
def execSettingsRead (g : Go) (s : State) : Host.Outcome State Fault Refusal :=
  icura cmdSettingsRead g noCheck (coreSettingsRead g) s

end Sys2Proof.Machine
end

