-- ==== Sys2Proof/Machine/UnitCmds.lean ====
section
/-! DEFINITION. Retiring, restoring and testing units by command (11: R314; 13: R372 to R374; 07: R194), and the register
commands (11: R315; 07: R179, R180). -/

namespace Sys2Proof.Machine

/-- The checks of a command that names a unit (R7, R314). -/
def ownUnit (g : Go) (s : State) : Option Fail × State :=
  (badPar (par g 0x20 1 ≤ 5) 4 0x20 <|> badPar (unitId (par g 0x20 1) (par g 0x24 4)) 4 0x24, s)

/-- A pseudo-channel that a retirement cannot take, as four already are: its stack freezes as for an uncorrectable command
error (R194, R195). The freeze itself is the caller's. -/
def State.pcsFull (s : State) : Bool := decide (4 ≤ s.mpk.retired + s.mpk.retiring.length)

/-- A pseudo-channel is retired, or its retirement runs (R194). -/
def State.pcGone (s : State) (stack pc : Nat) : Bool :=
  (s.memCtl stack).units.getLsbD pc || s.mpk.retiring.any (fun j => j.stack == stack && j.pc == pc)

/-- The retirement of a pseudo-channel begins (R194): spare space is taken, with no page in it yet. -/
def State.beginRetire (s : State) (stack pc : Nat) (mb : Option Nat) : State :=
  let (seed, s) := s.draw
  let j : RetireJob := { stack := stack, pc := pc, page := 0, seed := seed, mb := mb }
  let p : Spare := { stack := stack, pc := pc, seed := seed, pages := 0 }
  let s := { s with mpk := { s.mpk with retiring := s.mpk.retiring ++ [j], spares := s.mpk.spares ++ [p] } }
  s.setCtl stack (fun c => { c with retireBusy := true })

/-- In panic the ingress buffer's data for a controller is written before the controller begins to freeze: it ranks above
the freeze (R192). -/
def State.drainFor (s : State) (n : Nat) : State :=
  let (mine, rest) := s.mpk.ingress.partition (fun e =>
    s.mpk.panic && (s.ctlsOf e.1 e.2.length).contains n && !s.tierHeld e.1)
  (mine.foldl (fun (s : State) e => s.hostStore e.1 e.2) { s with mpk := { s.mpk with ingress := rest } }).leavePanic

/-- The freeze of a controller (R195, R196; 12: R25, R344): the retirements under way stop where they stand, the
reader's step ends with the memory error and every other one is aborted at the next boundary, fabric loads abort
(R266), and the part leaves pair service. `session` is the reader's, if there is one. -/
def State.freezeCtl (s : State) (n addr : Nat) (cmd : Bool) (session : Option Nat) : State :=
  if (s.memCtl n).frozen then s
  else
    let s := s.drainFor n
    let s := s.raise (.memStatus n) 0x02000000
    let s := s.setCtl n (fun c => { c with frozen := true, ueAddr := addr / 32 * 32, ueCmd := cmd })
    let gone := s.mpk.retiring
    let s := { s with mpk := { s.mpk with retiring := [] } }
    let s := gone.foldl (fun s j =>
      let s := s.setCtl j.stack (fun c => { c with retireBusy := false })
      match j.mb with | some m => s.finishBusy m { code := 0xE } | none => s) s
    let s := s.note .freeze n 0 (leBytes 8 addr ++ leBytes 1 (b2n cmd))
    let s := { s with tick := { s.tick with trouble := true } }
    let s := s.abortLoads (fun l => l.begun)
    let s := s.sess.foldl (fun s x => s.stopStep x.id (if some x.id = session then 0xC else 0xF)) s
    s.leavePair

/-- A pseudo-channel retired by command (R194, R314); for a fifth the manual names no sector: its address is a free value
(log entry 7). -/
def State.retirePc (s : State) (g : Go) (stack pc : Nat) : Reply × State :=
  let cap : Outcome := { fields := [(0x124, leBytes 2 s.units.capacity)] }
  if s.pcGone stack pc then (.done cap, s)
  else if (s.memCtl stack).frozen then (err 0xE, s)
  else if s.pcsFull then (.done { cap with code := 0xE }, s.draw.2.freezeCtl stack s.draw.1 true none)
  else (.wait (.retire stack pc), s.beginRetire stack pc (some g.mb))

/-- The change that retires a unit (R314). -/
def retireOf (kind id : Nat) : UnitChange :=
  if kind = 0 then .slot (id / 16) (id % 16) else if kind = 1 then .cluster id else if kind = 2 then .region id
  else if kind = 3 then .die id else .lane id

/-- A change of units waits for the boundary. -/
def State.addChange (s : State) (u : UnitChange) : State :=
  { s with units := { s.units with pend := s.units.pend ++ [u] } }

/-- `RETIRE_UNIT` from its own checks on (R314, R372). -/
def coreRetire (g : Go) (s : State) : Reply × State :=
  let kind := par g 0x20 1
  let id := par g 0x24 4
  if kind = 4 then s.retirePc g (id / 32) (id % 32)
  else (.wait .unit, s.addChange (retireOf kind id))

/-- `RETIRE_UNIT` in R298 and R314. -/
def cmdRetire : Cmd := { opcode := 0xB0, priv := true, used := [(0x20, 1), (0x24, 4)] }

/-- `RETIRE_UNIT` (R314, R372). -/
def execRetireUnit (g : Go) (s : State) : Host.Outcome State Fault Refusal := icura cmdRetire g (ownUnit g) (coreRetire g) s

/-- The clusters of a unit (R6). -/
def clustersOf (kind id : Nat) : List Nat :=
  if kind = 0 then [id / 16] else if kind = 1 then [id]
  else if kind = 2 then (List.range 4).map (fun k => 4 * id + k)
  else if kind = 3 then (List.range 8).map (fun k => 8 * id + k) else []

/-- What a test found in a cluster: the failing slots, and 9 for its buffer. -/
def testFails (t : SelfTest) (c : Nat) : List Nat :=
  ((t.slots.filter (fun p => p.1 == c && decide (p.2.1 < 9))).map (fun p => p.2.1)).eraseDups ++
    (if t.buffers.contains c then [9] else [])

/-- The first failure that a unit's test reports (R374): of its own parts, then of its clusters' slots and buffers. -/
def testFirst (t : SelfTest) (kind id : Nat) : Nat :=
  if t.result ≠ 0 then t.result
  else if 1 ≤ kind && kind ≤ 3 then
    (((clustersOf kind id).flatMap (fun c =>
      ((t.slots.filter (fun p => p.1 == c)).map (fun p => p.2.2)) ++ (if t.buffers.contains c then [4] else []))).find?
        (fun k => k != 0)).getD 0
  else 0

/-- A unit has been retired or fenced (R314). -/
def State.unitOut (s : State) (kind id : Nat) : Bool :=
  if kind = 0 then s.units.retiredSlots.contains (id / 16 * 9 + id % 16)
  else if kind = 1 then s.units.retiredClusters.contains id
  else if kind = 2 then s.units.fencedRegions.getLsbD id
  else if kind = 3 then s.units.dieFenced.getLsbD id
  else if kind = 4 then s.pcGone (id / 32) (id % 32)
  else s.units.retiredLanes.getLsbD id

/-- A unit is in service (R314): a slot that holds an identity, a region in a partition, and so a cluster or die of one. -/
def State.unitBusy (s : State) (kind id : Nat) : Bool :=
  if kind = 0 then (s.units.tileOf (id / 16 * 9 + id % 16)).isSome
  else (clustersOf kind id).any (fun c => (s.region (c / 4)).owner != 0)

/-- The test that a restoration runs passes (R373). -/
def testPasses (t : SelfTest) (kind id : Nat) : Bool :=
  t.result == 0 && (kind != 1 || (!(testFails t id).contains 9 && decide ((testFails t id).length ≤ 1)))

/-- The change that restores a unit (R373). -/
def restoreOf (kind id : Nat) (t : SelfTest) : UnitChange :=
  let fails := (clustersOf kind id).flatMap (fun c => (testFails t c).map (fun p => (c, p)))
  if kind = 0 then .restoreSlot (id / 16) (id % 16) else if kind = 1 then .restoreCluster id (testFails t id)
  else if kind = 2 then .restoreRegion id fails else if kind = 3 then .restoreDie id fails else .restoreLane id

/-- The fields that a tested unit's answer carries (R314). -/
def State.testFields (s : State) (result : Nat) : List (Nat × List Byte) :=
  [(0x120, leBytes 4 result), (0x124, leBytes 2 s.units.capacity)]

/-- `RESTORE_UNIT` from its own checks on (R314, R370, R373). -/
def coreRestore (g : Go) (t : SelfTest) (s : State) : Reply × State :=
  let kind := par g 0x20 1
  let id := par g 0x24 4
  let r := testFirst t kind id
  if kind = 4 then (err 4 (detailOf 5 0x20), s)
  else if kind = 2 && s.units.dieFenced.getLsbD (id / 2) then (err 4 (detailOf 5 0x24), s)
  else if !s.unitOut kind id then
    (if s.unitBusy kind id then (err 7, s)
     else (.done { code := if r = 0 then 0 else 0xE, fields := s.testFields r }, s))
  else if !testPasses t kind id then (.done { code := 0xE, fields := s.testFields r }, s)
  else (.wait .unit { fields := [(0x120, leBytes 4 r)] }, s.addChange (restoreOf kind id t))

/-- `RESTORE_UNIT` in R298 and R314. -/
def cmdRestore : Cmd := { opcode := 0xB1, priv := true, used := [(0x20, 1), (0x24, 4)] }

/-- `RESTORE_UNIT` (R314, R373): what the test finds is the command's operand (log entry 12). -/
def execRestoreUnit (g : Go) (t : SelfTest) (s : State) : Host.Outcome State Fault Refusal :=
  icura cmdRestore g (ownUnit g) (coreRestore g t) s

/-- `RUN_SELF_TEST` from its own checks on (R314, R374). -/
def coreSelfTest (g : Go) (t : SelfTest) (s : State) : Reply × State :=
  let kind := par g 0x20 1
  let id := par g 0x24 4
  if s.unitBusy kind id then (err 7, s) else (.done { fields := s.testFields (testFirst t kind id) }, s)

/-- `RUN_SELF_TEST` in R298 and R314. -/
def cmdSelfTest : Cmd := { opcode := 0xB2, priv := true, used := [(0x20, 1), (0x24, 4)] }

/-- `RUN_SELF_TEST` (R314, R374). -/
def execRunSelfTest (g : Go) (t : SelfTest) (s : State) : Host.Outcome State Fault Refusal :=
  icura cmdSelfTest g (ownUnit g) (coreSelfTest g t) s

/-! Register commands. -/

/-- What a register command reaches besides the registers (R179): a cluster's buffer, or a tile slot's local memory, with
the offset in it. -/
inductive Window where
  | buffer (c off : Nat)
  | tile (slot off : Nat)
  deriving DecidableEq, Repr

/-- The window that an address lies in (R179); a logical tile of a retired cluster has none. -/
def State.windowOf (s : State) (a : Nat) : Option Window :=
  if 0x100000000000 ≤ a ∧ a < 0x100200000000 then
    (let o := a - 0x100000000000
    if o % 0x2000000 < 0x1800000 then some (.buffer (o / 0x2000000) (o % 0x2000000)) else none)
  else if 0x100200000000 ≤ a ∧ a < 0x100280000000 then
    (let o := a - 0x100200000000
    let lt := o / 0x100000
    if o % 0x100000 < 0xC0000 ∧ !s.units.retiredClusters.contains (lt / 8) then
      some (.tile (s.units.slotOf lt) (o % 0x100000))
    else none)
  else none

/-- The cluster of a window. -/
def Window.cluster : Window → Nat
  | .buffer c _ => c
  | .tile slot _ => slot / 9

/-- Where the rows of the queues and the staged bursts lie in their windows, and which bank a buffer's window shows, the
manual does not say: what is read there is free (log entry 24). -/
def Window.open_ : Window → Bool
  | .buffer _ o => decide (0x1600000 ≤ o)
  | .tile _ o => decide (0x80000 ≤ o) && decide (o < 0x90000)

/-- A word of a window read (R179, log entry 24). -/
def State.readWindow (s : State) (w : Window) : Word × State :=
  let (v, s) := s.draw
  if w.open_ then (BitVec.ofNat 32 v, s)
  else match w with
  | .buffer c o => (BitVec.ofNat 32 (ofLe (rdBytes (if bitAt v 0 then (s.buf c).bank1 else (s.buf c).bank0) o 4)), s)
  | .tile i o => (BitVec.ofNat 32 (ofLe (rdBytes (s.tile i).loc o 4)), s)

/-- One word of the operand queues overwritten, in the row and place that a free value picks, or a word that holds no row
(log entry 24). -/
def putQueue (t : Tile) (v : Nat) (b : List Byte) : Tile :=
  let n := t.sq.length + t.tq.length
  let k := v % (n + 1)
  let f := fun (l : List Byte) => overlay l (4 * (v / (n + 1) % 16)) b
  if k < t.sq.length then { t with sq := setAt t.sq k f }
  else { t with tq := setAt t.tq (k - t.sq.length) f }

/-- One word of the staging pool overwritten (R162), in the burst and place that a free value picks, or a word that holds no
burst (log entry 24): the bursts of the region's streams, in order. -/
def State.putPool (s : State) (r v : Nat) (b : List Byte) : State :=
  let at_ := (List.range 32).flatMap (fun n => (List.range (s.stream r n).staged.length).map (fun i => (n, i)))
  match at_[v % (at_.length + 1)]? with
  | none => s
  | some (n, i) => s.setStream r n (fun x => { x with staged := setAt x.staged i (fun q =>
      { q with data := (overlay q.data (4 * (v / (at_.length + 1) % 128)) b).take q.data.length }) })

/-- A word of a window written (R179, log entry 24). -/
def State.writeWindow (s : State) (w : Window) (x : Word) : State :=
  let (v, s) := s.draw
  let b := leBytes 4 x.toNat
  match w with
  | .buffer c o =>
    if w.open_ then s.putPool (c / 4) v b
    else
      let m := s.buf c
      s.putBuf c (if bitAt v 0 then { m with bank1 := wrBytes m.bank1 o b } else { m with bank0 := wrBytes m.bank0 o b })
  | .tile i o =>
    let t := s.tile i
    s.putTile i (if w.open_ then putQueue t v b else { t with loc := wrBytes t.loc o b })

/-- A word read by a register command (R10, R179, R180, R383): none where the block is gated or nothing is mapped. -/
def State.readWord (s : State) (a : Nat) : Option (Word × State) :=
  match regOf a with
  | some r => if s.blockOn r then some (s.readReg r) else none
  | none => match s.windowOf a with
    | some w => if s.clusterOn w.cluster then some (s.readWindow w) else none
    | none => none

/-- Words read in turn, up to the first that is refused (R315). -/
def State.readWords : Nat → Nat → State → List Word × State
  | _, 0, s => ([], s)
  | a, n + 1, s =>
    match s.readWord a with
    | none => ([], s)
    | some (w, s) =>
      let (l, s) := State.readWords (a + 4) n s
      (w :: l, s)

/-- A gate register is written: the event log has it (R382). -/
def State.noteGate (s : State) : Reg → Word → State
  | .gateRegion r, w => s.note .gate r 0 (leBytes 1 0 ++ leBytes 4 w.toNat)
  | .gateIsle i, w => s.note .gate i 0 (leBytes 1 1 ++ leBytes 4 w.toNat)
  | _, _ => s

/-- A word written by a register command: the state, or the code that stops the command (R28, R180, R383). -/
def State.writeWord (s : State) (a : Nat) (w : Word) : Except Nat State :=
  match regOf a with
  | some r =>
    if !s.blockOn r then .error 0xE
    else if r == .tickCtrl && s.tickCtrlRefused w then .error 7
    else .ok ((s.writeReg r w 0).noteGate r w)
  | none => match s.windowOf a with
    | some x => if s.clusterOn x.cluster then .ok (s.writeWindow x w) else .error 0xE
    | none => .error 0xE

/-- Words written in turn, up to the first that is refused (R315): how many, the code, the state. -/
def State.writeWords (a : Nat) : List Word → State → Nat × Nat × State
  | [], s => (0, 0, s)
  | w :: r, s =>
    match s.writeWord a w with
    | .error c => (0, c, s)
    | .ok s =>
      let (n, c, s) := State.writeWords (a + 4) r s
      (n + 1, c, s)

/-- The checks of a register command: its count in range, its address aligned (R315). -/
def ownReg (limit : Nat) (g : Go) (s : State) : Option Fail × State :=
  let n := par g 0x28 4
  (badPar (decide (1 ≤ n) && decide (n ≤ limit)) 2 0x28 <|> badPar (par g 0x20 8 % 4 == 0) 4 0x20, s)

/-- `REG_READ` from its own checks on (R315). -/
def coreRegRead (g : Go) (s : State) : Reply × State :=
  let n := par g 0x28 4
  let (l, s) := State.readWords (par g 0x20 8) n s
  (.done { code := if l.length < n then 0xE else 0,
           fields := [(0x120, l.flatMap (fun w => leBytes 4 w.toNat)), (0x1F0, leBytes 4 l.length)] }, s)

/-- `REG_READ` in R298 and R315. -/
def cmdRegRead : Cmd := { opcode := 0xC0, priv := true, used := [(0x20, 8), (0x28, 4)] }

/-- `REG_READ` (R315). -/
def execRegRead (g : Go) (s : State) : Host.Outcome State Fault Refusal := icura cmdRegRead g (ownReg 52 g) (coreRegRead g) s

/-- `REG_WRITE` from its own checks on (R315). -/
def coreRegWrite (g : Go) (s : State) : Reply × State :=
  let ws := (List.range (par g 0x28 4)).map (fun k => BitVec.ofNat 32 (par g (0x30 + 4 * k) 4))
  let (n, c, s) := State.writeWords (par g 0x20 8) ws s
  (.done { code := c, fields := [(0x1F0, leBytes 4 n)] }, s)

/-- `REG_WRITE` in R298 and R315. -/
def cmdRegWrite : Cmd := { opcode := 0xC1, priv := true, used := [(0x20, 8), (0x28, 4), (0x30, 192)] }

/-- `REG_WRITE` (R315). -/
def execRegWrite (g : Go) (s : State) : Host.Outcome State Fault Refusal :=
  icura cmdRegWrite g (ownReg 48 g) (coreRegWrite g) s

end Sys2Proof.Machine
end

