-- ==== Sys2Proof/Machine/MemFam.lean ====
section
/-! DEFINITION. The events of the memory controllers (07): freezes, retirement, refresh, self-refresh, the host's accesses
over `CXL.mem` (R190, R400, R401) and the real-time port (R191). -/

namespace Sys2Proof.Machine

/-- A controller serves requests: it carries part of the map and is not frozen (R183, R195). -/
def State.ctlServes (s : State) (n : Nat) : Bool :=
  s.dev.pwrGood && decide (n < 40) && (s.memCtl n).populated && !(s.memCtl n).frozen

/-- The session whose stream made an access, and that stream stopped with `MEM_UE` (R58, R176, R195). -/
def State.readerStops (s : State) (reader : Option (Nat × Nat)) : Option Nat × State :=
  match reader with
  | none => (none, s)
  | some (r, k) =>
    match (if r < 64 ∧ k < 32 then (s.stream r k).ring else none) with
    | none => (none, s)
    | some g => (some g.sess, (s.streamErr r k 0x04000000 (s.stream r k).gDesc).stopStream r k 0xC)

/-- `CONTROLLER_FREEZE` (R195, R196, R58). -/
def execControllerFreeze (n addr : Nat) (cmd : Bool) (reader : Option (Nat × Nat)) (s : State) :
    Host.Outcome State Fault Refusal :=
  if s.ctlServes n then
    let (x, s) := s.readerStops reader
    .next (s.freezeCtl n addr cmd x)
  else .next s

/-- The corrected errors of a pseudo-channel in the last 1,048,576 ticks (R194). -/
def State.recentCe (s : State) (stack pc : Nat) : Nat :=
  ((look [] (s.memCtl stack).ceTicks pc).filter (fun t => decide (s.tick.count < t + 1048576))).length

/-- A pseudo-channel whose corrected errors reach the threshold with one more (R194). -/
def State.mayRetire (s : State) (stack pc : Nat) : Bool :=
  decide (stack < 16) && decide (pc < 32) && s.ctlServes stack && s.mpk.retireThresh != 0 &&
    decide (s.mpk.retireThresh ≤ s.recentCe stack pc + 1) && !s.pcGone stack pc

/-- `PSEUDO_CHANNEL_RETIREMENT` (R193, R194): the corrected error that reaches the threshold is counted, and the
pseudo-channel's retirement begins or its stack freezes. -/
def execPseudoChannelRetirement (stack pc addr : Nat) (s : State) : Host.Outcome State Fault Refusal :=
  if s.mayRetire stack pc then
    let s := s.setCtl stack (fun c => c.correct pc 1 s.tick.count)
    if s.pcsFull then .next (s.freezeCtl stack addr true none) else .next (s.beginRetire stack pc none)
  else .next s

/-- The retirement of a pseudo-channel under way. -/
def State.retireJob (s : State) (stack pc : Nat) : Option RetireJob :=
  s.mpk.retiring.find? (fun j => j.stack == stack && j.pc == pc)

/-- A retirement ends (R194): the pseudo-channel's bit is set, the command that asked for it answered. -/
def State.endRetire (s : State) (j : RetireJob) : State :=
  let rest := s.mpk.retiring.filter (fun k => k != j)
  let s := { s with mpk := { s.mpk with retiring := rest, retired := s.mpk.retired + 1 } }
  let s := s.setCtl j.stack (fun c => { c with
    units := c.units ||| bitW j.pc true, retireBusy := rest.any (fun k => k.stack == j.stack) })
  let s := s.note .memory (32 * j.stack + j.pc) 0 []
  match j.mb with
  | some n => s.finishBusy n { fields := [(0x124, leBytes 2 s.units.capacity)] }
  | none => s

/-- In panic the ingress buffer's data outranks the copying of a stack's pages (R191, R192). -/
def State.copyWaits (s : State) (stack : Nat) : Bool :=
  s.tierHeld 0 || (s.mpk.panic && s.mpk.ingress.any (fun e => (s.ctlsOf e.1 e.2.length).contains stack))

/-- A page of a retirement is copied and remapped (R194). -/
def State.copyPage (s : State) (j : RetireJob) : State :=
  { s with mpk := { s.mpk with
    retiring := s.mpk.retiring.map (fun k => if k = j then { j with page := j.page + 1 } else k)
    spares := s.mpk.spares.map (fun p =>
      if p.stack == j.stack && p.pc == j.pc && p.seed == j.seed then { p with pages := j.page + 1 } else p) } }

/-- `RETIRE_PAGE_COPY` (R194): one more page is remapped. -/
def execRetirePageCopy (stack pc : Nat) (s : State) : Host.Outcome State Fault Refusal :=
  match (if s.copyWaits stack then none else s.retireJob stack pc) with
  | none => .next s
  | some j =>
    let s := s.copyPage j
    if pcPages ≤ j.page + 1 then .next (s.endRetire { j with page := j.page + 1 }) else .next s

/-- A stack or interface refreshes (R187): not in self-refresh (R197), and not frozen (R195). -/
def State.refreshes (s : State) (n : Nat) : Bool :=
  s.ctlServes n && !(s.tier (decide (16 ≤ n))).inSr && !(s.tier (decide (16 ≤ n))).leaving

/-- `REFRESH` (R187): the stall is timing; the refresh is counted. -/
def execRefresh (n : Nat) (s : State) : Host.Outcome State Fault Refusal :=
  if s.refreshes n then .next (s.setCtl n (fun c => { c with refreshes := c.refreshes + 1 })) else .next s

/-- A host read that a controller serves, its errors corrected and counted (R190, R193, R195, R383): a frozen or gated one
answers with poisoned data, whose bytes are free (log entry 7). -/
def State.hostLoad (s : State) (a n : Nat) : State :=
  if s.served a n then
    let t := ((s.touch a n false).track a n).correctRead a n
    { t with out := { t.out with readData := s.rdMem a n, poisoned := false } }
  else
    let (b, s) := s.drawBytes n
    { s with out := { s.out with readData := b, poisoned := true } }

/-- A held access served. -/
def State.serveAccess (s : State) (h : HeldAccess) : State :=
  match h.kind with
  | .read => s.hostLoad h.addr h.len
  | .write => s.hostStore h.addr h.data
  | .zero => s.zeroMem h.addr h.len
  | .fetch => (s.touch h.addr h.len false).correctRead h.addr h.len

/-- The held accesses that need wait no longer are served, in order (R191, R198). -/
def State.serveReady (s : State) : State :=
  s.mpk.held.foldl (fun s h =>
    if s.holds h.addr h.len then { s with mpk := { s.mpk with held := s.mpk.held ++ [h] } } else s.serveAccess h)
    { s with mpk := { s.mpk with held := [] } }

/-- The gate words of the isles with the controllers of a tier clocked or not (R197, R384). -/
def State.gateTier (s : State) (lp on : Bool) : State :=
  (List.range 4).foldl (fun s i =>
    let m := (List.range (if lp then 6 else 4)).foldl (fun (m : Word) k =>
      if (s.memCtl (if lp then 16 + 6 * i + k else 4 * i + k)).populated then m ||| bitW (if lp then 4 + k else k) true
      else m) 0
    let w := if on then s.gateIsle i ||| m else s.gateIsle i &&& ~~~ m
    { s with clk := { s.clk with gateIsle := put 0 s.clk.gateIsle i w } }) s

/-- `SELF_REFRESH_EXIT_COMPLETE` (R197, R198). -/
def execSelfRefreshExitComplete (lp : Bool) (s : State) : Host.Outcome State Fault Refusal :=
  if (s.tier lp).leaving && !s.clk.hold then .next (((s.setTier lp {}).gateTier lp true).serveReady) else .next s

/-- `SELF_REFRESH_REENTRY` (R198): 1 ms without an access while parked. -/
def execSelfRefreshReentry (lp : Bool) (s : State) : Host.Outcome State Fault Refusal :=
  if s.dev.stage = 3 && !(s.tier lp).inSr && !(s.tier lp).leaving then
    .next ((s.setTier lp { inSr := true }).gateTier lp false)
  else .next s

/-- The size of the window that HDM decoder `d` maps (R186, R400). -/
def State.hdmSize (s : State) (d : Nat) : Nat := if d = 0 then hbmLimit else s.lpLimit - lpBase

/-- The device address that a decoder gives a host-physical range (R400). -/
def State.hdm (s : State) (h n : Nat) : Option Nat :=
  let into := fun (d : HdmDecoder) (k base : Nat) =>
    if d.committed && decide (d.base ≤ h) && decide (h + n ≤ d.base + s.hdmSize k) then some (base + (h - d.base)) else none
  match into s.cxl.dec0 0 0 with
  | some a => some a
  | none => into s.cxl.dec1 1 lpBase

/-- The host's `CXL.mem` requests are taken (R398, R403, R404): the link is up in CXL mode, the port is clocked, and no
integrity failure stops their stream. -/
def State.memPort (s : State) : Bool :=
  s.dev.pwrGood && s.cxl.up && s.cxl.cxlMode && (s.gateIsle 0).getLsbD 24 && !s.cxl.ideStopped.getLsbD 2

/-- A host read (R180, R190, R195, R198). -/
def State.hostRead (s : State) (hpa n : Nat) : State :=
  match s.hdm hpa n with
  | none => { s.raise .memPkg 0x80000000 with
      out := { s.out with readData := List.replicate n 0xFF, poisoned := true } }
  | some a =>
    if s.holds a n then s.holdAccess { kind := .read, addr := a, len := n } else s.hostLoad a n

/-- `HOST_MEM_READ` (R180, R190, R400): the data and its poison stand in `out`. -/
def execHostMemRead (hpa len : Nat) (s : State) : Host.Outcome State Fault Refusal :=
  if s.memPort then .next (s.hostRead hpa len) else .next s

/-- A host write to a device address: applied, held, or tagged and forwarded in a shadow pair, where a secondary drops its
own host's (R198, R325). -/
def State.hostWriteAt (s : State) (a : Nat) (b : List Byte) : State :=
  if s.pair.shadow && s.pair.role == 2 then s.raise .pairState 0x00200000
  else if s.pair.shadow then
    let s := s.forward (.write a b)
    { s with pair := { s.pair with inputs := s.pair.inputs ++
        [{ seq := s.pair.seq, tag := s.tick.count + 1, input := .write a b }] } }
  else s.devStore a b none

/-- A host write (R180, R190). -/
def State.hostWrite (s : State) (hpa : Nat) (b : List Byte) : State :=
  match s.hdm hpa b.length with
  | none => s.raise .memPkg 0x80000000
  | some a => s.hostWriteAt a b

/-- A host write that nothing holds back completes to the host; one that the primary of a shadow pair forwards completes once
the secondary has acknowledged it (R324). -/
def State.completeWrite (s t : State) : State :=
  if t.pair.unacked.length = s.pair.unacked.length then
    { t with out := { t.out with writesDone := t.out.writesDone + 1 } }
  else t

/-- `HOST_MEM_WRITE` (R190, R324, R325, R400). -/
def execHostMemWrite (hpa : Nat) (data : List Byte) (s : State) : Host.Outcome State Fault Refusal :=
  if s.memPort then .next (s.completeWrite (s.hostWrite hpa data)) else .next s

/-- Data put into the ingress buffer, which panics past its mark (R191). -/
def State.ingress (s : State) (a : Nat) (b : List Byte) : State :=
  ({ s with mpk := { s.mpk with ingress := s.mpk.ingress ++ [(a, b)] } }).enterPanic

/-- `INGRESS_DRAIN` (R191): the oldest data of the ingress buffer goes to device memory, where its tier is awake (R198); a
frozen controller refuses it (R195); what the panic has held goes on. -/
def execIngressDrain (s : State) : Host.Outcome State Fault Refusal :=
  match s.mpk.ingress with
  | [] => .next s
  | (a, b) :: rest =>
    if s.tierHeld a then .next (s.startExit a)
    else
      let s := { s with mpk := { s.mpk with ingress := rest } }
      .next ((s.hostStore a b).leavePanic).serveReady

/-- A cluster's buffer holds data that work may read: the cluster is in service (R369). -/
def State.bufServes (s : State) (c : Nat) : Bool :=
  s.dev.pwrGood && decide (c < 256) && s.units.counts c && !(s.buf c).lost

/-- `CLUSTER_BUFFER_UNCORRECTABLE` (R368, R369): the cluster retires at the next boundary, and the step that holds it
stops there. -/
def execClusterBufferUncorrectable (c : Nat) (s : State) : Host.Outcome State Fault Refusal :=
  if s.bufServes c then
    let s := s.putBuf c { s.buf c with lost := true }
    let s := s.stopUsers (fun x _ => x.regions.getLsbD (c / 4)) 0xF
    let s := { s with tick := { s.tick with trouble := true } }
    .next (s.addChange (.cluster c))
  else .next s

end Sys2Proof.Machine
end

