-- ==== Sys2Proof/Machine/Faults.lean ====
section
/-! DEFINITION. Faults of the part's larger units in service (01: R23, R25; 13: R368 to R370). -/

namespace Sys2Proof.Machine

/-- Icura has brought the part up and it stands under power: its units can be seen to fail (R354, R368). -/
def State.inService (s : State) : Bool := s.dev.pwrGood && !s.dev.uvHold && s.afterStage1

/-- A fence at once (R369) may end the tick: the fenced Roosters report done on their own behalf (R370). -/
def State.afterFence (s : State) : State := (s.maybeClose).compareTick

/-- `WATCHDOG_EXPIRY` (R23, R25): the core is a failed unit of its isle; the part leaves pair service. DESIGN CHOICE: what a
part in no pair does then is not given; the failure is noted and the part goes on (log entry 56). -/
def execWatchdogExpiry (core : Nat) (s : State) : Host.Outcome State Fault Refusal :=
  if s.inService && decide (core < 8) then
    let s := { s with units := { s.units with coreFail := s.units.coreFail ||| BitVec.ofNat 8 (2 ^ core) } }
    .next s.leavePair
  else .next s

/-- `DIE_LINK_FAILURE` (R25, R368 to R370): the die is fenced at once. -/
def execDieLinkFailure (die : Nat) (s : State) : Host.Outcome State Fault Refusal :=
  if s.inService && decide (die < 32) && !s.units.dieFenced.getLsbD die then .next ((s.fenceDie die).afterFence)
  else .next s

/-- `REGION_UNIT_FAILURE` (R25, R173, R368 to R370): the region is fenced at once. -/
def execRegionUnitFailure (r : Nat) (s : State) : Host.Outcome State Fault Refusal :=
  if s.inService && decide (r < 64) && !s.units.fenced r then .next ((s.fenceRegion r).afterFence) else .next s

/-- `ISLE_MESH_OR_BRIDGE_FAULT` (R25): the part leaves pair service. DESIGN CHOICE: what a part in no pair does then is not
given; the fault is noted and the part goes on (log entry 56). -/
def execIsleMeshOrBridgeFault (isle : Nat) (s : State) : Host.Outcome State Fault Refusal :=
  if s.inService && decide (isle < 4) then
    .next ({ s with units := { s.units with meshFault := true } }).leavePair
  else .next s

/-- `TICK_SOURCE_FAULT` (R25): the part leaves pair service. DESIGN CHOICE: what a part in no pair does then is not given;
the fault is noted and the part ticks on (log entry 56). -/
def execTickSourceFault (s : State) : Host.Outcome State Fault Refusal :=
  if s.inService then .next ({ s with units := { s.units with tickFault := true } }).leavePair else .next s

end Sys2Proof.Machine
end

