-- ==== Sys2Proof/Machine/ClockFam.lean ====
section
/-! DEFINITION. Clocks, power and the register accesses that have rows of their own (14; 00: R10, R11; 02: R28; 13: R377). -/

namespace Sys2Proof.Machine

/-! Clock hold. -/

/-- Steps of operating points that have not been applied are abandoned (R392). -/
def State.dropSteps (s : State) : State :=
  { s with regions := mapTab {} (fun _ x => { x with step := 0 }) s.regions }

/-- Every region restarts at OP0, its standby PLL there too (R392, R395). -/
def State.restRegions (s : State) : State := (List.range 64).foldl (fun s r => s.setRegion r Region.rest) s

/-- The tick in progress is held (R58, R387, R395). -/
def State.holdTick (s : State) : State :=
  if s.tick.active && !s.tick.held then
    let s := s.raise .tickStatus 0x40000000
    { s with tick := { s.tick with held := true, late := ~~~ s.tick.done } }
  else s

/-- What an emergency of package scope stops at once: passes are discarded to run again, the tick is held, fabric loads
abort, steps of operating points are abandoned (R58, R266, R392). -/
def State.halt (s : State) : State := ((s.emergency).holdTick).dropSteps

/-- The CXL link goes down (R387, R404). -/
def State.dropLink (s : State) : State :=
  if s.cxl.up then
    let s := { s with cxl := { s.cxl with up := false, l1 := false } }
    s.raise .cxlStatus 0x08000000
  else s

/-- Clock hold begins (R387, R351): `ref` says that the CXL reference is the one lost, or one of them. -/
def State.enterHold (s : State) (ref : Bool) : State :=
  let s := s.halt
  let s := { s with
    clk := { s.clk with hold := true }
    dev := { s.dev with held := s.dev.stage, stage := 4, qualified := false }
    pwr := { s.pwr with clamp := false }
    mpk := { s.mpk with hbm := { inSr := true }, lp := { inSr := true } } }
  let s := (List.range 64).foldl State.holdFabric s
  let s := ((s.fixLanes).idleStrait).muxAsk (muxKey 1 0) 0
  if ref then s.dropLink else s

/-- A reference is lost, or both are (R380, R387): the flags that say which are set; `ref` that the CXL one is gone. -/
def State.loseReference (s : State) (ref : Bool) (flags : Word) : State :=
  let s := s.raise .clkStatus flags
  if s.clk.hold then
    let s := { s with dev := { s.dev with qualified := false } }
    if ref then s.dropLink else s
  else s.enterHold ref

/-- References are watched: power is good and a first window has passed (R380). -/
def State.watching (s : State) : Bool := s.dev.pwrGood && s.dev.phase != .off && s.dev.phase != .qualify

/-- `REFERENCE_LOSS` (R380, R387): the crystal, the CXL reference or both show no edge for 1 us. -/
def execReferenceLoss (xtal ref : Bool) (s : State) : Host.Outcome State Fault Refusal :=
  if s.watching && (xtal || ref) then .next (s.loseReference ref (bitsW [(29, xtal), (28, ref)])) else .next s

/-- A window of the qualifying measurement ends (R379, R380). -/
def State.window (s : State) (ok late : Bool) : State :=
  if s.dev.phase = .qualify then
    (if ok then { s with dev := { s.dev with qualified := true, phase := .boot, bootErr := 0 } }
     else if late then { s with dev := { s.dev with bootErr := 2 } } else s)
  else if ok then { s with dev := { s.dev with qualified := true } }
  else s.loseReference true 0x38000000

/-- `REFERENCE_QUALIFICATION` (R379, R380): `ok` is the window's verdict, `ppm` the offset it measured, `late` that 1 s has
passed since `PWR_GOOD`. -/
def execReferenceQualification (ok : Bool) (ppm : Int) (late : Bool) (s : State) : Host.Outcome State Fault Refusal :=
  if s.dev.pwrGood && s.dev.phase != .off then
    .next (({ s with clk := { s.clk with ppm := ppm } }).window ok late)
  else .next s

/-- Both tiers are out of self-refresh, their controllers clocked, and what they held is served (R197, R198). -/
def State.wakeTiers (s : State) : State :=
  let s := ((s.setTier false {}).setTier true {}).gateTier false true
  (s.gateTier true true).serveReady

/-- The part leaves clock hold (R388, R344). A part that was parked is parked again, its fabric isolated and its tiers in
self-refresh. -/
def State.exitHold (s : State) : State :=
  let back := s.dev.held
  let s := { s with clk := { s.clk with hold := false }, dev := { s.dev with stage := back } }
  let s := ((s.restRegions).fixLanes).muxAsk (muxKey 1 0) 1
  let s := if back = 3 then s else (s.wakeTiers).restartFabrics
  s.leavePair

/-- `CLOCK_HOLD_EXIT` (R388): both references are present and a window has passed. -/
def execClockHoldExit (s : State) : Host.Outcome State Fault Refusal :=
  if s.clk.hold && s.dev.qualified then .next s.exitHold else .next s

/-! Muxes. -/

/-- A regional tree's switch ends, and a queued one begins (R385, R386). -/
def Tree.finish (t : Tree) : Tree :=
  match t.switching with
  | some (sel, div) => { t with sel := sel, div := div, switching := t.queued, queued := none, switches := t.switches + 1 }
  | none => t

/-- A mux has a switch in progress: a core mux, a tile mux or a regional tree's (R381, R385). -/
def State.muxBusy (s : State) (domain unit : Nat) : Bool :=
  if domain = 4 then decide (unit < 512) && ((s.fabric (unit / 8)).tree (unit % 8)).switching.isSome
  else ((domain == 1 && decide (unit < 4)) || (domain == 3 && decide (unit < 64))) &&
    look 0 s.clk.muxNext (muxKey domain unit) != 0

/-- The switch in progress on a mux ends (R385, R386). -/
def State.muxDone (s : State) (domain unit : Nat) : State :=
  if domain = 4 then s.setFab (unit / 8) (fun f => { f with trees := modify {} f.trees (unit % 8) Tree.finish })
  else s.muxEnd (muxKey domain unit)

/-- `MUX_SWITCH_COMPLETE` (R385, R386). -/
def execMuxSwitchComplete (domain unit : Nat) (s : State) : Host.Outcome State Fault Refusal :=
  if s.dev.pwrGood && s.muxBusy domain unit then .next (s.muxDone domain unit) else .next s

/-- What the reset of a forced switch does to its domain (R385). -/
def State.domainReset (s : State) (domain unit : Nat) : State :=
  if domain = 1 then
    ({ s with units := { s.units with coreFail := s.units.coreFail ||| BitVec.ofNat 8 (3 * 4 ^ unit) } }).leavePair
  else if domain = 3 then s.stopRegion unit
  else (s.runDesign (unit / 8)).setFab (unit / 8) (fun f => f.treeReset (unit % 8))

/-- `MUX_FORCED_SWITCH` (R385). -/
def execMuxForcedSwitch (domain unit : Nat) (s : State) : Host.Outcome State Fault Refusal :=
  if s.dev.pwrGood && s.muxBusy domain unit then
    let s := s.raise .clkStatus 0x40000000
    let s := { s with clk := { s.clk with stuckDomain := domain, stuckUnit := unit } }
    .next ((s.muxDone domain unit).domainReset domain unit)
  else .next s

/-! Operating points. -/

/-- The standby PLL's relock, or a step's preparation, ends (R390). -/
def Region.ready (x : Region) : Region :=
  if x.step = 1 then { x with step := 2, locked := decide (x.target < x.op) }
  else { x with locked := true }

/-- `STEP_READY` (R390). -/
def execStepReady (r : Nat) (s : State) : Host.Outcome State Fault Refusal :=
  if s.dev.pwrGood && decide (r < 64) && !s.clk.hold && !s.pwr.inTrip && ((s.region r).step == 1 || !(s.region r).locked) then
    .next (s.setRegion r Region.ready)
  else .next s

/-- Every tile of a region lies between passes (R391). -/
def State.between (s : State) (r : Nat) : Bool := !s.inArray r

/-- `STEP_APPLY` (R391, R396). -/
def execStepApply (r : Nat) (s : State) : Host.Outcome State Fault Refusal :=
  if s.tilesRun && decide (r < 64) && (s.region r).step == 2 && !s.clamped r && s.between r then .next (s.applyStep r)
  else .next s

/-! Power. -/

/-- The hottest of a list of sensor readings; what stood before when none is read. -/
def hottest (old : Nat) (dies : List (Nat × Nat)) : Nat :=
  if dies.isEmpty then old else dies.foldl (fun m d => Nat.max m d.2) 0

/-- The hold on a die's regions after one of its sensor readings (R394). -/
def heldDie (w : Word) (d : Nat × Nat) : Word :=
  if 105 ≤ d.2 then w ||| bitW d.1 true else if d.2 ≤ 103 then w &&& ~~~ bitW d.1 true else w

/-- The sensors of the dies read (R394, `PWR_STATUS`). -/
def State.readDies (s : State) (dies : List (Nat × Nat)) : State :=
  let dies := dies.filter (fun d => decide (d.1 < 32))
  let p := s.pwr
  let hold := dies.foldl heldDie p.dieHold
  let s := { s with pwr := { p with
    tjMax := hottest p.tjMax dies, dieHold := hold, die95 := p.die95 || dies.any (fun (d : Nat × Nat) => decide (95 ≤ d.2))
    dieHot := dies.foldl (fun (w : Word) (d : Nat × Nat) => if 100 ≤ d.2 then w ||| bitW d.1 true else w) p.dieHot } }
  s.raise .pwrStatus (bitsW [(28, dies.any (fun d => decide (100 ≤ d.2))), (30, hold &&& ~~~ p.dieHold != 0)])

/-- The monitors integrate from a tick's issue (R393): one has been issued, and nothing stops the part's clocks. -/
def State.metering (s : State) : Bool := s.tick.on && s.tick.count != 0 && !s.clk.hold && !s.pwr.inTrip && s.dev.stage != 3

/-- The energy since the tick's issue against the envelope (R393): energy in nJ, time in ns. -/
def State.meter (s : State) (energy elapsed : Nat) : State :=
  let p := s.pwr
  let high := decide (p.envelope * elapsed < energy)
  let s := { s with pwr := { p with
    energy := energy, elapsed := elapsed, clamp := high
    clampTime := if p.clamp then p.clampTime + (elapsed - p.elapsed) else p.clampTime } }
  if high && !p.clamp then s.raise .pwrStatus 0x40000000 else s

/-- `POWER_SAMPLE` (R393, R394). -/
def execPowerSample (p : PowerReading) (s : State) : Host.Outcome State Fault Refusal :=
  if s.dev.pwrGood then
    let s := s.readDies p.dies
    if s.metering then .next (s.meter p.energy p.elapsed) else .next s
  else .next s

/-- A thermal trip (R395, R396): it replaces a clamp. -/
def State.tripNow (s : State) : State :=
  let s := s.halt
  let s := { s with pwr := { s.pwr with inTrip := true, clamp := false } }
  (s.fixLanes).raise .pwrStatus 0x20000000

/-- `THERMAL_TRIP` (R395): a die sensor reads 115 degrees or more. -/
def execThermalTrip (die temp : Nat) (s : State) : Host.Outcome State Fault Refusal :=
  if s.dev.pwrGood && decide (115 ≤ temp) && !s.pwr.inTrip then .next ((s.readDies [(die, temp)]).tripNow) else .next s

/-- `THERMAL_TRIP_RELEASE` (R395): every sensor has read below 95 degrees for 1 ms. -/
def execThermalTripRelease (s : State) : Host.Outcome State Fault Refusal :=
  if s.pwr.inTrip then
    let s := { s with pwr := { s.pwr with inTrip := false, dieHold := 0 } }
    .next ((s.restRegions).fixLanes)
  else .next s

/-! Registers. -/

/-- A register access reaches its block (R382, R383). -/
def State.takes (s : State) (g : Reg) : Bool := s.dev.pwrGood && s.blockOn g

/-- `TICK_CTRL_WRITE` (R28): refused whole while an image is loaded and the period would change. -/
def execTickCtrlWrite (w : Word) (s : State) : Host.Outcome State Fault Refusal :=
  if s.takes .tickCtrl then .next (s.writeReg .tickCtrl w 0) else .next s

/-- `FLAG_SELECT_WRITE` (R377). -/
def execFlagSelectWrite (w : Word) (s : State) : Host.Outcome State Fault Refusal :=
  if s.takes .flagSel then .next (s.writeReg .flagSel w 0) else .next s

/-- `CLOCK_GATE_WRITE` (R382, R383): the event log has it. -/
def execClockGateWrite (isle : Bool) (n : Nat) (w : Word) (s : State) : Host.Outcome State Fault Refusal :=
  let g := if isle then Reg.gateIsle n else Reg.gateRegion n
  if s.takes g && decide (n < if isle then 4 else 64) then .next ((s.putGate isle n w).noteGate g w) else .next s

/-- A read of `len` bytes at an address: of a low word, its value in `out.regRead` (R10); of a base address register, the
bytes in `out.readData` (R272, R273). -/
def State.latchRead (s : State) (addr len : Nat) : State :=
  match regOf addr with
  | none => match (if s.reachable then s.readBar addr len else none) with
    | some (b, t) => { t with out := { t.out with readData := b, poisoned := false } }
    | none => s
  | some g =>
    if isLowWord g && s.takes g && len == 4 then
      let (v, s) := s.readReg g
      { s with out := { s.out with regRead := v } }
    else s

/-- `LATCHING_LOW_WORD_READ` (R10, R272, R273). -/
def execLatchingLowWordRead (span : ReadSpan) (s : State) : Host.Outcome State Fault Refusal :=
  .next (s.latchRead span.addr span.len)

/-- The registers whose writes have rows of their own. -/
def ownRow : Reg → Bool
  | .tickCtrl | .flagSel | .gateRegion _ | .gateIsle _ => true
  | _ => false

/-- A write of bytes at an address: of a register a whole word (R10, R11), or through a base address register (R272,
R273). -/
def State.plainWrite (s : State) (addr : Nat) (b : List Byte) (hwSet : Word) : State :=
  match regOf addr with
  | some g =>
    if s.takes g && !ownRow g && b.length == 4 then s.writeReg g (BitVec.ofNat 32 (ofLe b)) hwSet else s
  | none => if s.reachable then s.writeBar addr b hwSet else s

/-- `REGISTER_WRITE` (R11, R272, R295, R375): `hwSet` are the flags that hardware sets in the same cycle. -/
def execRegisterWrite (addr : Nat) (data : List Byte) (hwSet : Word) (s : State) : Host.Outcome State Fault Refusal :=
  .next (s.plainWrite addr data hwSet)

end Sys2Proof.Machine
end

