-- ==== Sys2Proof/Machine/FabFam.lean ====
section
/-! DEFINITION. The events of the configuration engine (10: R254 to R268) and of the fabric's clocks, delay lines and ports
(09: R225 to R242). What a design does inside a region, and the bits of its frames beyond the summary of a control frame,
the manual keeps to itself (log entry 21): what such a bit sets is a free value. -/

namespace Sys2Proof.Machine

/-! A load. -/



/-- The load of a slot takes another segment now (R260): it has begun and not ended, and of the two segment buffers one is
free. -/
def Load.takesSegment (l : Load) : Bool :=
  l.begun && !l.ended && decide (l.seg < l.segments) && decide (l.seg - l.used / segSize < 2)

/-- The header bytes and number that segment `k` authenticates beside its text (R258). -/
def Load.aad (l : Load) (k : Nat) : List Byte := l.stream.take 256 ++ leBytes 4 k

/-- Where segment `k` lies in the stream and how long its text is (R251, R258). -/
def Load.segPlace (l : Load) (k : Nat) : Nat × Nat := (256 + k * (segSize + 16), Nat.min segSize (l.plainLen - k * segSize))

/-- The next segment verified and decrypted (R258, R260, R266). -/
def State.verifySegment (s : State) (l : Load) : State :=
  let k := l.seg
  let (o, n) := l.segPlace k
  if l.stream.length < o + n + 16 || (l.short && k + 1 == l.segments) then s.failLoad l.slot 31 1 0 k 0xB
  else match gcmOpen l.key (leBytes 4 k ++ zeroBytes 8) (l.aad k) (slice l.stream o n) (slice l.stream (o + n) 16) with
    | none => s.failLoad l.slot 30 2 0 k 9
    | some b => s.setLoad l.slot (fun l => { l with
        seg := k + 1, plain := l.plain ++ b
        key := hkdf l.key (slice l.stream 0x20 32) (ascii "LQFAB-SEG" ++ leBytes 4 (k + 1)) 32 })

/-- `SEGMENT_VERIFY` (R258, R260, R266). -/
def execSegmentVerify (slot : Nat) (s : State) : Host.Outcome State Fault Refusal :=
  match s.load slot with
  | none => .next s
  | some l => if l.takesSegment then .next ((s.verifySegment l).endLoads) else .next s

/-- The parts a load has opened are whole (R256): each has its trailer. -/
def Load.whole (l : Load) : Bool := l.parts.all (fun p => p.dropped || !p.ctl || !p.trailer.isEmpty)

/-- A trailer's fields (R263): each action exactly once, reserved bits 0. -/
def trailerOk (b : List Byte) : Bool :=
  let o := fld b 0 4
  [0, 1, 2, 3].all (fun a => (List.range 4).any (fun k => bitsOf o (2 * k + 1) (2 * k) == a)) && bitsOf o 31 11 == 0 &&
    zeros b 12 4

/-- A control frame's summary (R255): reserved bits 0. -/
def summaryOk (b : List Byte) : Bool := decide (fld b 0 1 < 2) && decide (fld b 2 1 < 4) && zeros b 4 4

/-- The record at the front of a load is in its place and of its form (R254 to R257, R263); its payload is judged once all of
it has been verified (R260). -/
def Load.recordOk (l : Load) : Bool :=
  let h := l.plain
  let type := fld h 0 1
  let r := fld h 1 1
  let idx := fld h 2 2
  let len := fld h 4 4
  let left := l.plainLen - l.used
  let pay := slice h 8 len
  let p := (l.part r).getD { region := r }
  let inside := l.covered.getLsbD r && decide (r < 64) && decide (12 + len + 28 ≤ left)
  let mid := inside && p.ctl && p.trailer.isEmpty
  if type = 0xF then
    left == 28 && r == 0xFF && idx == 0 && len == 16 && l.whole && (decide (h.length < 8 + len) ||
      (fld pay 0 4 == l.records + 1 && fld pay 4 4 == l.segments && fld pay 8 8 == l.imageId))
  else if type = 1 then inside && !p.ctl && idx == 0 && len == 4096 && (h.length < 8 + len || summaryOk pay)
  else if type = 2 then mid && decide (idx < 192) && len == 16384 && !p.cols.contains idx
  else if type = 3 then mid && decide (idx < 384) && len == 4624 && !p.rams.contains idx
  else if type = 4 then mid && idx == 0 && len == 16 && (h.length < 8 + len || trailerOk pay)
  else false

/-- A record's header can be judged: it has been verified, or the stream has no room for a record at all (R257, R260). -/
def Load.sees (l : Load) : Bool :=
  l.begun && !l.ended && (decide (8 ≤ l.plain.length) || decide (l.plainLen - l.used < 28))

/-- A record may be dispatched: every byte of it has been verified (R260). -/
def Load.hasRecord (l : Load) : Bool := decide (12 + fld l.plain 4 4 ≤ l.plain.length)

/-- A digit of a free value. -/
def digit (v k m : Nat) : Nat := v / 65536 ^ k % m

/-- What a control frame sets (R225, R226, R227, R233 to R236, R244, R245, R255, R409, R410): its summary says which trees and
ports the design uses, the rest is free. The hold choices and I/O cells that it brings take effect when the cells are
released (R245). -/
def State.applyControl (s : State) (r : Nat) (pay : List Byte) : State :=
  let (v, s) := s.draw
  let trees := fld pay 1 1
  let ports := fld pay 3 1
  let s := s.setFab r (fun f => { f with
    control := pay
    trees := (List.range 8).foldl (fun t k => if bitAt trees k then put {} t k
        { sel := digit v (3 * k) 16, div := digit v (3 * k + 1) 16, runtime := bitAt (digit v (3 * k + 2) 2) 0 } else t) []
    delays := (List.range 3).foldl (fun t k =>
        let d := digit v (24 + k) 512
        put {} t k { tap := d, target := d }) []
    cells := { f.cells with
      clocks := (List.range 23).foldl (fun t k => put 0 t k (digit v (40 + k) 8)) []
      plls := (List.range 2).foldl (fun t k => put {} t k {
        pin := bitAt (digit v (64 + k) 2) 0, mult := digit v (66 + k) 65536
        divs := (List.range 4).map (fun i => 2 + digit v (68 + 4 * k + i) 127) }) []
      newPins := (List.range 3).foldl (fun t k => put {} t k {
        mode := digit v (76 + k) 3, pair := k != 2 && bitAt (digit v 79 2) 0, std := digit v (80 + k) 3
        pll := digit v (83 + k) 2, out1 := bitAt (digit v (86 + k) 2) 0, dlyOut := bitAt (digit v (89 + k) 2) 0
        hold := bitAt (digit v (92 + k) 2) 0 }) []
      newHolds := v / 65536 ^ 96 % 4 ^ 4096 } })
  let s := (List.range 8).foldl (fun s p => s.setPort r p (fun q => { q with
    rxDepth := if bitAt ports p then 1 + digit v (27 + p) 256 else 0 })) s
  if r % 2 = 0 then
    s.setLane (r / 2) (fun x => { x with
      mirrored := bitAt (fld pay 0 1) 0, pam4 := bitAt (digit v 35 2) 0, runtime := bitAt (digit v 36 2) 0
      rate := 1250 + digit v 37 110751, post := digit v 38 32, pre := Nat.min (digit v 39 16) (40 - digit v 38 32)
      slipPos := 0 })
  else s

/-- What a record of a region does (R255, R256). -/
def State.applyRecord (s : State) (r type idx : Nat) (pay : List Byte) : State :=
  if type = 1 then s.applyControl r pay
  else if type = 2 then s.setFab r (fun f => { f with columns := put [] f.columns idx pay })
  else if type = 3 then s.setFab r (fun f => { f with brams := put [] f.brams idx pay })
  else s

/-- What a load knows of a region after one more record of it (R256). -/
def RegionLoad.take (p : RegionLoad) (type idx : Nat) (pay : List Byte) : RegionLoad :=
  if type = 1 then { p with ctl := true }
  else if type = 2 then { p with cols := p.cols ++ [idx] }
  else if type = 3 then { p with rams := p.rams ++ [idx] }
  else { p with trailer := pay }

/-- A region as the accepted end record leaves it (R256, R263): columns and block RAMs without a frame are clear, and its
start-up order begins; a region without a record is cleared. -/
def State.finishRegion (s : State) (l : Load) (r : Nat) : State :=
  match l.part r with
  | none => if s.fabGone r then s else s.beginClear r
  | some p =>
    if p.dropped || s.fabGone r then s
    else if !p.ctl then s.beginClear r
    else
      let s := s.setFab r (fun f => { f with
        columns := f.columns.filter (fun c => p.cols.contains c.1), brams := f.brams.filter (fun c => p.rams.contains c.1)
        imageId := l.imageId })
      s.beginStartup r l.slot p.trailer

/-- A record accepted (R254 to R257, R260). -/
def State.acceptRecord (s : State) (l : Load) : State :=
  let type := fld l.plain 0 1
  let r := fld l.plain 1 1
  let idx := fld l.plain 2 2
  let len := fld l.plain 4 4
  let pay := slice l.plain 8 len
  let eat := fun (l : Load) => { l with
    plain := l.plain.drop (12 + len), used := l.used + 12 + len, records := l.records + 1, resent := false }
  if type = 0xF then
    let s := s.setLoad l.slot (fun l => { eat l with ended := true })
    (members l.covered).foldl (fun s r => s.finishRegion l r) s
  else
    let gone := s.fabGone r || ((l.part r).getD { region := r }).dropped
    let s := s.setLoad l.slot (fun l => eat (l.setPart r (fun p => p.take type idx pay)))
    let s := { s with fcfg := { s.fcfg with
      chainRegion := put 0 s.fcfg.chainRegion (r / 16) r
      chainSent := modify 0 s.fcfg.chainSent (r / 16) (· + (12 + len)) } }
    if gone then s else s.applyRecord r type idx pay

/-- The region of a failing record, 0 when none applies (`FAB_CFG_FAIL`). -/
def failRegion (r : Nat) : Nat := if r < 64 then r else 0

/-- A record dispatched (R254 to R257, R260, R266): `intact` says that it reached its region as it was sent. -/
def State.dispatch (s : State) (l : Load) (intact : Bool) : State :=
  let r := fld l.plain 1 1
  let len := fld l.plain 4 4
  let seg := l.used / segSize
  let crc := decide (fld l.plain (8 + len) 4 = crc32c (l.plain.take (8 + len)))
  if l.plain.length < 8 || !l.recordOk then s.failLoad l.slot 29 3 (failRegion r) seg 2
  else if !l.hasRecord then s
  else if crc && intact then s.acceptRecord l
  else if l.resent then s.failLoad l.slot 28 4 (failRegion r) seg 0xE
  else s.setLoad l.slot (fun l => { l with resent := true })

/-- `RECORD_DISPATCH` (R249, R254 to R257, R260). -/
def execRecordDispatch (slot : Nat) (intact : Bool) (s : State) : Host.Outcome State Fault Refusal :=
  match s.load slot with
  | none => .next s
  | some l => if l.sees then .next ((s.dispatch l intact).endLoads) else .next s

/-! The start-up order. -/

/-- PLLs that the design enables (R255). -/
def FabRegion.pllsUsed (f : FabRegion) : BitVec 2 := BitVec.ofNat 2 (fld f.control 2 1)

/-- The isolation cells release (R247); the image's hold choices and I/O cells take effect (R245), and its border wires are
driven from its next edge. -/
def State.releaseCells (s : State) (r : Nat) : State :=
  let s := (List.range 8).foldl (fun s p => s.setPort r p (fun q => { q with
    rxCred := q.rxDepth, txBuf := [], txCred := 32 })) s
  let s := s.setFab r (fun f => { f with
    isolated := false, cells := { f.cells with holds := f.cells.newHolds, pins := f.cells.newPins, wires := 0 } })
  if r % 2 = 0 then s.fixLane (r / 2) else s

/-- The action of a region's next step (R263). -/
def Startup.action (u : Startup) : Nat := bitsOf u.order (2 * u.steps + 1) (2 * u.steps)

/-- The next step of a region's start-up order can run: its delay passes, and the lock it waits for stands (R263,
R264). -/
def State.mayAct (s : State) (r : Nat) : Bool :=
  let f := s.fabric r
  let u := f.startup
  u.running && decide (u.steps < 4) && !s.clk.hold && s.dev.stage != 3 && s.dev.pwrGood &&
    (u.delays.getD u.steps 0 == 0 || s.treeOn r u.tree) && (u.action != 0 || f.pllsUsed &&& ~~~ f.pllLock == 0)

/-- Set/reset is released toward the trees (R221): each flip-flop starts from its initial value (R220), and the synchroniser
of each tree from 0. -/
def FabRegion.releaseReset (f : FabRegion) : FabRegion :=
  { f with gsr := false
           cells := { f.cells with leaving := [], ffs := f.columns.foldl (fun m c => put 0 m c.1 (ffInit c.2)) [] } }

/-- How a start-up order ended noted in the load that began it (R264, R265, R309). -/
def State.noteStartup (s : State) (r : Nat) (late : Bool) : State :=
  match (s.fabric r).startup.slot with
  | none => s
  | some n => s.setLoad n (fun l => l.setPart r (fun p => if late then { p with late := true } else { p with done := true }))

/-- A step of the start-up order (R264). -/
def State.act (s : State) (r : Nat) : State :=
  let s := s.runDesign r
  let u := (s.fabric r).startup
  let s := if u.action = 1 then s.releaseCells r
    else if u.action = 2 then s.setFab r FabRegion.releaseReset
    else if u.action = 3 then s.setFab r (fun f => { f with writes := true })
    else s
  if u.steps + 1 = 4 then
    ((s.setFab r (fun f => { f with
      configured := true, loading := false, startup := { f.startup with steps := 4, done := true, running := false } })).noteStartup
        r false).endLoads
  else s.setFab r (fun f => { f with startup := { f.startup with steps := u.steps + 1 } })

/-- `STARTUP_ACTION` (R263, R264). -/
def execStartupAction (r : Nat) (s : State) : Host.Outcome State Fault Refusal :=
  if decide (r < 64) && s.mayAct r then .next (s.act r) else .next s

/-- A start-up order times out (R265). -/
def State.startupLate (s : State) (r : Nat) : State :=
  let s := s.holdFabric r
  let s := s.setFab r (fun f => { f with
    configured := false, loading := false, startup := { f.startup with running := false, timedOut := true } })
  let s := (s.noteStartup r true).raise .cfg 0x08000000
  (s.recordFail 5 r 0).endLoads

/-- `STARTUP_TIMEOUT` (R265): 2 ms have passed since the order began. -/
def execStartupTimeout (r : Nat) (s : State) : Host.Outcome State Fault Refusal :=
  if decide (r < 64) && (s.fabric r).startup.running then .next (s.startupLate r) else .next s

/-- `CLEAR_COMPLETE` (R267). -/
def execClearComplete (r : Nat) (s : State) : Host.Outcome State Fault Refusal :=
  if decide (r < 64) && (s.fabric r).clearing then .next ((s.clearFabric r).endLoads) else .next s

/-! Clocks and delay lines. -/

/-- The design of a region drives its inputs: power is good and the cells are released (R244). -/
def State.designOn (s : State) (r : Nat) : Bool := s.dev.pwrGood && decide (r < 64) && !(s.fabric r).isolated

/-- The design drives a stream port channel or control port: its tree runs (R227), and the ports are clocked (R382). -/
def State.portOn (s : State) (r e : Nat) : Bool := s.elemRuns r e && (s.gateOf r).getLsbD 8

/-- `TREE_LOAD` (R228): a load while a change is in progress is ignored. -/
def execTreeLoad (r t : Nat) (sel div : BitVec 4) (s : State) : Host.Outcome State Fault Refusal :=
  let x := (s.fabric r).tree t
  if s.designOn r && decide (t < 8) && x.runtime && x.switching.isNone && !(x.sel == sel.toNat && x.div == div.toNat) then
    .next ((s.runDesign r).setFab r (fun f => { f with
      trees := modify {} f.trees t (fun y => { y with switching := some (sel.toNat, div.toNat) }) }))
  else .next s

/-- A tree asked for another source by the hardware (R225, R386). -/
def Tree.ask (t : Tree) (sel div : Nat) : Tree :=
  if t.switching.isSome then { t with queued := some (sel, div) } else { t with switching := some (sel, div) }

/-- A tree's source is an output of PLL `k` (R226). -/
def fromPll (k sel : Nat) : Bool := decide (sel / 4 = k)

/-- Where a tree will stand once its switches are over. -/
def Tree.goal (t : Tree) : Nat :=
  match t.queued, t.switching with
  | some q, _ => q.1
  | none, some q => q.1
  | none, none => t.sel

/-- `PLL_LOCK_LOSS` (R225): the trees that the PLL feeds switch away, to off. -/
def execPllLockLoss (r k : Nat) (s : State) : Host.Outcome State Fault Refusal :=
  if s.dev.pwrGood && decide (r < 64) && decide (k < 2) && (s.fabric r).pllLock.getLsbD k then
    .next (s.setFab r (fun f => { f with
      pllLock := f.pllLock &&& ~~~ BitVec.ofNat 2 (2 ^ k)
      trees := mapTab {} (fun _ (t : Tree) => if fromPll k t.goal then t.ask 15 t.div else t) f.trees }))
  else .next s

/-- A PLL's configuration (R225). -/
def FabRegion.pll (f : FabRegion) (k : Nat) : Pll := look {} f.cells.plls k

/-- A PLL of a region can lock (R225, R262, R379): the design enables it, and its reference is the clock-capable pin, or the
crystal when the references are qualified. -/
def State.mayLock (s : State) (r k : Nat) : Bool :=
  s.dev.pwrGood && (s.dev.qualified || ((s.fabric r).pll k).pin) && !s.clk.hold && decide (r < 64) && decide (k < 2) &&
    (s.fabric r).pllsUsed.getLsbD k && !(s.fabric r).pllLock.getLsbD k

/-- `PLL_LOCK` (R225). -/
def execPllLock (r k : Nat) (s : State) : Host.Outcome State Fault Refusal :=
  if s.mayLock r k then
    .next (s.setFab r (fun f => { f with pllLock := f.pllLock ||| BitVec.ofNat 2 (2 ^ k) }))
  else .next s

/-- The delay line of a pin. -/
def FabRegion.delay (f : FabRegion) (pin : Nat) : DelayLine := look {} f.delays pin

/-- A region with a delay line changed. -/
def FabRegion.setDelay (f : FabRegion) (pin : Nat) (g : DelayLine → DelayLine) : FabRegion :=
  { f with delays := modify {} f.delays pin g }

/-- `DLY_LOAD` (R234): sampled on the cell's fabric-side clock; the new target replaces one not yet reached. -/
def execDlyLoad (r pin : Nat) (tap : BitVec 9) (s : State) : Host.Outcome State Fault Refusal :=
  if s.elemRuns r (20 + pin) && decide (pin < 3) then
    .next ((s.runDesign r).setFab r (fun f => f.setDelay pin (fun d => { d with target := tap.toNat })))
  else .next s

/-- A delay line one tap nearer its target (R234). -/
def DelayLine.move (d : DelayLine) : DelayLine :=
  if d.tap < d.target then { d with tap := d.tap + 1 }
  else if d.target < d.tap then { d with tap := d.tap - 1 }
  else d

/-- `DLY_BUSY` (R234): the line has not reached its target. -/
def FabRegion.dlyBusy (f : FabRegion) (pin : Nat) : Bool := (f.delay pin).tap != (f.delay pin).target

/-- `DELAY_LINE_MOVE` (R234): one tap per cycle of the cell's fabric-side clock. -/
def execDelayLineMove (r pin : Nat) (s : State) : Host.Outcome State Fault Refusal :=
  if s.dev.pwrGood && decide (r < 64) && decide (pin < 3) && s.elemOn r (20 + pin) && (s.fabric r).dlyBusy pin then
    .next ((s.runDesign r).setFab r (fun f => f.setDelay pin DelayLine.move))
  else .next s

/-! Ports. -/

/-- The streams of a region that still owe a port data (R168). -/
def State.portFeeders (s : State) (r p : Nat) : List Nat :=
  (List.range 32).filter (fun n =>
    let x := s.stream r n
    match x.ring with
    | none => false
    | some g => (match s.homeOf g with
      | none => false
      | some h => decide (x.dDesc < g.count) && s.dstPlace h (h.desc g x.dDesc) == .port p))

/-- The design has taken all that a port held (R168, R236): whether it needs the next row at once, so that the data is late,
is the design's own and a free value (log entry 57). -/
def State.portDry (s : State) (r p : Nat) : State :=
  let q := (s.fabric r).port p
  let ns := s.portFeeders r p
  if q.rxCred = q.rxDepth && !ns.isEmpty then
    (let (v, s) := s.draw
    if bitAt v 0 then s.markLate r ns else s)
  else s

/-- A credit returned by the design (R236). -/
def State.creditBack (s : State) (r p : Nat) : State :=
  let q := (s.fabric r).port p
  if q.rxCred < q.rxDepth then (s.setPort r p (fun q => { q with rxCred := q.rxCred + 1 })).portDry r p
  else (s.raise (.portErr r p) 0x80000000).setPort r p (fun q => { q with credErrs := q.credErrs + 1 })

/-- `RX_CRED` (R236, R240). -/
def execRxCred (r p : Nat) (s : State) : Host.Outcome State Fault Refusal :=
  if s.portOn r p && decide (p < 8) then .next ((s.runDesign r).creditBack r p) else .next s

/-- A beat presented by the design (R237). -/
def State.takeBeat (s : State) (r p : Nat) (beat : List Byte) : State :=
  let q := (s.fabric r).port p
  if 0 < q.txCred then
    s.setPort r p (fun q => { q with txBuf := q.txBuf ++ [beat], txCred := q.txCred - 1, txBeats := q.txBeats + 1 })
  else (s.raise (.portErr r p) 0x40000000).setPort r p (fun q => { q with credErrs := q.credErrs + 1 })

/-- `TX_VALID` (R237, R240). -/
def execTxValid (r p : Nat) (beat : List Byte) (s : State) : Host.Outcome State Fault Refusal :=
  if s.portOn r (8 + p) && decide (p < 8) then .next ((s.runDesign r).takeBeat r p beat) else .next s

/-- The read outstanding on a control port: its `CP_SEL` and address. -/
def FabRegion.cp (f : FabRegion) (c : Nat) : Option (Bool × Nat) := look none f.cps c

/-- A control port takes a request (R241, R242, R244): its tree runs, and its region is not behind engaged cells, or is
fenced, where R242 gives the request an error response. DESIGN CHOICE: in a fenced region R242 goes before R244 (log entry
59). -/
def State.cpOn (s : State) (r c : Nat) : Bool :=
  s.dev.pwrGood && decide (r < 64) && decide (c < 4) && s.elemOn r (16 + c) && (!(s.fabric r).isolated || s.units.fenced r)

/-- `CP_REQ` (R241, R244): ignored while a read is outstanding and while the cells are engaged. -/
def execCpReq (r c : Nat) (fab : Bool) (addr : BitVec 12) (s : State) : Host.Outcome State Fault Refusal :=
  if s.cpOn r c && ((s.fabric r).cp c).isNone then
    .next ((s.runDesign r).setFab r (fun f => { f with cps := put none f.cps c (some (fab, addr.toNat)) }))
  else .next s

/-- The register that a control port may read at an offset of its region's windows (R242). -/
def cpReg (r : Nat) (fab : Bool) (a : Nat) : Option Reg :=
  match regAt (if fab then 6 else 3) (r * 0x1000 + a) with
  | some (.strmStatus r n) => some (.strmStatus r n)
  | some (.strmPos r n) => some (.strmPos r n)
  | some (.strmTte r n) => some (.strmTte r n)
  | some (.fabStatus r) => some (.fabStatus r)
  | some (.fabTree r t) => some (.fabTree r t)
  | some (.portStatus r p) => some (.portStatus r p)
  | _ => none

/-- An error response to a control port (R242). -/
def State.cpFails (s : State) (r c : Nat) (fab : Bool) (a : Nat) : State :=
  let s := s.raise (.cpErr r) (bitW (28 + c) true)
  s.setFab r (fun f => { f with lastCp := c, lastSel := fab, lastAddr := a })

/-- An outstanding read answered (R241, R242): region, port, data and error stand in `out.cpAck`. -/
def State.cpAnswer (s : State) (r c : Nat) (fab : Bool) (a : Nat) : State :=
  let s := s.setFab r (fun f => { f with cps := put none f.cps c none })
  let v := match cpReg r fab a with
    | some g => if s.blockOn g && !s.units.fenced r then some (s.regValue g) else none
    | none => none
  let s := { s with out := { s.out with cpAck := some (r, c, v.getD 0, v.isNone) } }
  if v.isNone then s.cpFails r c fab a else s

/-- `CP_ACK` (R241, R242). -/
def execCpAck (r c : Nat) (s : State) : Host.Outcome State Fault Refusal :=
  match (if s.dev.pwrGood && decide (r < 64) && decide (c < 4) && s.elemOn r (16 + c) then (s.fabric r).cp c else none) with
  | some (fab, a) => .next ((s.runDesign r).cpAnswer r c fab a)
  | none => .next s

end Sys2Proof.Machine
end

