-- ==== Sys2Proof/Machine/PairForm.lean ====
section
/-! DEFINITION. How two parts form a pair (12: R318 to R320). -/

namespace Sys2Proof.Machine

/-- Pair protocol numbers that go together (R319). -/
def protoFits (a b : Nat) : Bool := decide (a ≤ b + 1) && decide (b ≤ a + 1)

/-- The conditions of R319 between this part, with a mode and a named partner, and what the partner says of itself. C counts
for nothing where no interface is populated. -/
def State.fitsAs (s : State) (mode : Nat) (partner : List Byte) (f : PartnerFit) : Bool :=
  (mode == 1 || mode == 2) && f.mode == mode && f.id == partner && f.names == s.deviceId && decide (16 ≤ s.lanesUp) &&
    f.period == s.tick.period && f.lpN == s.mpk.lpN && (f.lpN == 0 || f.lpCap == s.mpk.lpCap) && protoFits f.proto s.pairProto &&
    (s.sess.isEmpty || f.noSession)

/-- R319 holds between this part as it is configured and a partner that can be reached. -/
def State.pairFits (s : State) (f : PartnerFit) : Bool :=
  f.reachable && s.fitsAs s.pair.mode (slice s.dev.settings 0x30 16) f

/-- The partner can be reached and is configured for this part (R318). -/
def State.namedBy (s : State) (f : PartnerFit) : Bool := f.reachable && f.mode != 0 && f.names == s.deviceId

/-- The role of this part in a pair that forms with no session open (R320): by preference, else by the smaller
`DEVICE_ID`, byte 0 first. -/
def State.formRole (s : State) (pref : Nat) : Nat :=
  let mine := fld s.dev.settings 0x25 1
  if mine ≠ pref then (if mine = 0 then 1 else 2)
  else if ofBe s.deviceId < ofBe (slice s.dev.settings 0x30 16) then 1 else 2

/-- The pair's state as service begins (R320, R347). -/
def Pair.begin (p : Pair) : Pair :=
  { p.alone with
      formed := true, waits := true, lostRole := 0, seq := 0, seqHeld := 0, partnerSeqHeld := 0
      partnerDone := 0, partnerLive := [], ringDone := [], unacked := [], told := 0, toldLive := [], partnerFull := 0
      theirHeld := 0, theirOcc := [], got := [], standby := [] }

/-- The pair forms, if it may (R319, R320, R355): with sessions on one side only, that side is primary and the other stays
alone. -/
def State.formPair (s : State) (f : PartnerFit) : State :=
  if s.pair.formed || s.pair.left || s.dev.pkgFault || s.pair.mode = 0 || !s.pairFits f then s
  else if !s.sess.isEmpty then s.setRole 1
  else if !f.noSession then s
  else ({ s with pair := s.pair.begin }).setRole (s.formRole f.pref)

end Sys2Proof.Machine
end

