-- ==== Sys2Proof/Machine/LaneFam.lean ====
section
/-! DEFINITION. The events of the serial lanes (15): the fabric transceivers, the Strait link and the CXL port. -/

namespace Sys2Proof.Machine

/-! Fabric transceiver lanes. -/

/-- A fabric lane is clocked (R382). -/
def State.laneOn (s : State) (l : Nat) : Bool := s.dev.pwrGood && decide (l < 32) && (s.gateIsle (l / 8)).getLsbD (10 + l % 8)

/-- `TX_COEF_LOAD` (R410, R415): a set with pre + post above 40 is ignored; at idle the taps are set all the same. -/
def execTxCoefLoad (lane : Nat) (pre : BitVec 4) (post : BitVec 5) (s : State) : Host.Outcome State Fault Refusal :=
  if s.laneOn lane && s.designOn (2 * lane) && (s.lane lane).runtime then
    (if pre.toNat + post.toNat ≤ 40 then .next (s.setLane lane (fun x => { x with pre := pre.toNat, post := post.toNat }))
     else .next (s.raise (.ftxStatus lane) 0x08000000))
  else .next s

/-- `RX_SLIP` (R412, R415): one pulse outside the 4 word cycles of another; ignored without lock. -/
def execRxSlip (lane : Nat) (s : State) : Host.Outcome State Fault Refusal :=
  if s.laneOn lane && s.designOn (2 * lane) && (s.lane lane).rxLock then
    .next (s.setLane lane (fun x => { x with slipPos := (x.slipPos + 1) % 128 }))
  else .next s

/-- The design's `TX_IDLE` changes (R414, R415): a release that meets a trip or clock hold counts for nothing until the
design releases it again. -/
def State.designIdles (s : State) (l : Nat) (idle : Bool) : State :=
  let stopped := s.clk.hold || s.pwr.inTrip
  (s.setLane l (fun x => { x with
    designIdle := idle, holdIdle := if idle then x.holdIdle else stopped })).fixLane l

/-- `TX_IDLE` (R414, R415). -/
def execTxIdle (lane : Nat) (idle : Bool) (s : State) : Host.Outcome State Fault Refusal :=
  if s.laneOn lane && (s.lane lane).designIdle != idle then .next (s.designIdles lane idle) else .next s

/-- `RX_LOCK_LOSS` (R411). -/
def execRxLockLoss (lane : Nat) (s : State) : Host.Outcome State Fault Refusal :=
  if s.laneOn lane && (s.lane lane).rxLock then
    .next ((s.setLane lane (fun x => { x with rxLock := false })).raise (.ftxStatus lane) 0x04000000)
  else .next s

/-- `RX_LOCK_ACQUIRED` (R372, R411): a retired lane's receiver stays out of lock. -/
def execRxLockAcquired (lane : Nat) (s : State) : Host.Outcome State Fault Refusal :=
  if s.laneOn lane && !s.units.retiredLanes.getLsbD lane && !(s.lane lane).rxLock then
    .next (s.setLane lane (fun x => { x with rxLock := true }))
  else .next s

/-- `RX_WVALID` of a lane (R327): of a mirrored lane in shadow service its buffer's, otherwise `RX_LOCK`. -/
def State.rxWvalid (s : State) (l : Nat) : Bool :=
  if s.pair.shadow && (s.lane l).mirrored then (s.lane l).rxValid else (s.lane l).rxLock

/-- `RX_DROP` of a lane (R327). -/
def State.rxDropMark (s : State) (l : Nat) : Bool := s.pair.shadow && (s.lane l).mirrored && (s.lane l).rxDrop

/-- `RX_IDLE_CHANGE` (R411). -/
def execRxIdleChange (lane : Nat) (idle : Bool) (s : State) : Host.Outcome State Fault Refusal :=
  if s.laneOn lane then .next (s.setLane lane (fun x => { x with rxIdle := idle })) else .next s

/-! Strait lanes. -/

/-- The Strait link is clocked and nothing holds its lanes idle (R362, R382, R387). -/
def State.straitOn (s : State) : Bool :=
  s.dev.pwrGood && (s.dev.stage == 1 || s.dev.stage == 2) && !s.clk.hold && (s.gateIsle 1).getLsbD 24

/-- A lane's training passes its steps 1 and 2 (R406): it sends preset P2, or its last coefficients when it retrains. -/
def StrLane.begin (x : StrLane) : StrLane :=
  { x with training := true, step := 3, idle := false, requests := 0
           pre2 := if x.kept then x.pre2 else 0, pre1 := if x.kept then x.pre1 else 4
           post1 := if x.kept then x.post1 else 6 }

/-- A lane's training ends well (R406, R408, R414): it is up, or waits for the boundary when it was removed in service. -/
def StrLane.finish (x : StrLane) : StrLane :=
  { x with training := false, step := 5, idle := false, up := !x.back, rejoin := x.back, back := false }

/-- A lane's training fails (R406): it is left out of the link. -/
def StrLane.fail (x : StrLane) : StrLane := { x with training := false, step := 0, idle := true, back := false }

/-- A step of a lane's training ends (R406, R408, R414): the first two, the last after equalisation, or the fast exit of
an idle lane whose coefficients are kept. -/
def StrLane.train (x : StrLane) (ok : Bool) : StrLane :=
  if !ok then x.fail
  else if x.training then (if x.step = 4 then x.finish else x)
  else if x.kept && !x.back then x.finish
  else x.begin

/-- A lane's training goes one step on (R405, R406, R408). -/
def State.trainLane (s : State) (lane : Nat) (ok reversed : Bool) : State :=
  let s := s.setStrLane lane (fun x => x.train ok)
  (if ok then { s with strait := { s.strait with reversed := reversed } } else s).judgeLink

/-- When the link has trained, the part checks whether a pair can form, with what the partner then says (R319, R320). -/
def State.linkTrained (s : State) (up : Bool) (fit : Option PartnerFit) : State :=
  if !up && decide (16 ≤ s.lanesUp) && s.dev.stage == 2 then (match fit with | some f => s.formPair f | none => s) else s

/-- `STRAIT_LANE_TRAINING` (R319, R405, R406, R408). -/
def execStraitLaneTraining (lane : Nat) (ok : Bool) (found : LaneTrial) (s : State) : Host.Outcome State Fault Refusal :=
  if s.straitOn && decide (lane < 32) && !(s.strLane lane).up && !(s.strLane lane).rejoin then
    .next ((s.trainLane lane ok found.reversed).linkTrained (decide (16 ≤ s.lanesUp)) found.fit)
  else .next s

/-- The presets of R407: pre2, pre1, post1. -/
def presetOf (p : Nat) : Option (Nat × Nat × Nat) :=
  if p = 1 then some (0, 0, 0) else if p = 2 then some (0, 4, 6) else if p = 3 then some (2, 8, 8)
  else if p = 4 then some (0, 0, 12) else none

/-- One tap changed as asked (R407): its value and status, 0 updated, 1 at limit, 2 held. `rest` is the sum of the other
two taps. -/
def askTap (v top rest : Nat) (a : TapAsk) : Nat × Nat :=
  match a with
  | .hold => (v, 2)
  | .inc => if v + 1 ≤ top ∧ v + 1 + rest ≤ 32 then (v + 1, 0) else (v, 1)
  | .dec => if 1 ≤ v then (v - 1, 0) else (v, 1)

/-- A request of a training frame applied (R407): the lane and the status of pre2, pre1 and post1. -/
def StrLane.answer (x : StrLane) (q : EqRequest) : StrLane × List Nat :=
  let mixed := q.pre2 != .hold || q.pre1 != .hold || q.post1 != .hold
  match q.preset with
  | some p => match (if mixed then none else presetOf p) with
    | some (a, b, c) => ({ x with pre2 := a, pre1 := b, post1 := c }, [0, 0, 0])
    | none => (x, [1, 1, 1])
  | none =>
    let (a, sa) := askTap x.pre2 6 (x.pre1 + x.post1) q.pre2
    let (b, sb) := askTap x.pre1 16 (a + x.post1) q.pre1
    let (c, sc) := askTap x.post1 12 (a + b) q.post1
    ({ x with pre2 := a, pre1 := b, post1 := c }, [sa, sb, sc])

/-- The receiver ends step 3 (R407): the coefficients in force are kept. -/
def StrLane.endStep3 (x : StrLane) : StrLane := { x with step := 4, kept := true }

/-- `EQUALISATION_REQUEST` (R407): the statuses stand in `out.trainReply`. -/
def execEqualisationRequest (lane : Nat) (q : EqRequest) (s : State) : Host.Outcome State Fault Refusal :=
  let x := s.strLane lane
  if s.straitOn && decide (lane < 32) && x.training && x.step == 3 then
    (if q.done then .next (s.setStrLane lane StrLane.endStep3)
     else if x.requests < 4000 then
       (let (y, l) := x.answer q
       let s := s.setStrLane lane (fun _ => { y with requests := x.requests + 1 })
       .next { s with out := { s.out with trainReply := l } })
     else .next s)
  else .next s

/-- A frame of data fits the ingress buffer (R191, R405). -/
def State.ingressRoom (s : State) : Bool := decide (s.ingressFill + 4 ≤ 131072)

/-- A frame accepted (R191, R405): where its bytes go, if they are data for the real-time port, the manual does not say,
and is free (log entry 20). -/
def State.acceptFrame (s : State) (body : List Byte) : State :=
  let (v, s) := s.draw
  let s := { s with strait := { s.strait with rxSeq := s.strait.rxSeq + 1 } }
  let a := v / 2 * 32
  if bitAt v 0 && s.isDram a && s.isDram (a + body.length) then s.ingress a body else s

/-- `STRAIT_FRAME` (R405, R416): a frame that fails its checks or is out of sequence is replayed by its sender; a
duplicate is discarded. -/
def execStraitFrame (seq : Nat) (_kind : BitVec 8) (body : List Byte) (intact : Bool) (s : State) :
    Host.Outcome State Fault Refusal :=
  if s.straitOn && decide (16 ≤ s.lanesUp) && s.ingressRoom then
    (if intact && seq == s.strait.rxSeq then .next (s.acceptFrame body)
     else if intact && decide (seq < s.strait.rxSeq) then .next s
     else .next { s with strait := { s.strait with replays := s.strait.replays + 1 } })
  else .next s

/-- A lane removed from the link (R408, R416): it retrains in the background with its last coefficients. -/
def State.removeLane (s : State) (lane codewords : Nat) : State :=
  let s := s.setStrLane lane (fun x => { x with
    up := false, training := false, step := 0, kept := true, back := true, fecUe := x.fecUe + codewords })
  let s := s.raise (.strLane lane) 0x40000000
  let s := s.raise .strStatus 0x10000000
  ({ s with strait := { s.strait with replays := s.strait.replays + 1 } }).judgeLink

/-- `LANE_REMOVAL` (R408): the lane has lost lock, or `codewords` in 1 ms were uncorrectable. -/
def execLaneRemoval (lane codewords : Nat) (s : State) : Host.Outcome State Fault Refusal :=
  if s.straitOn && decide (lane < 32) && (s.strLane lane).up then .next (s.removeLane lane codewords) else .next s

/-! The CXL port. -/

/-- The CXL port can train (R379, R387, R398): its reference is qualified and its clock on; in the Lamb stage at 2.5 GT/s
only. -/
def State.mayTrain (s : State) (rate : Nat) : Bool :=
  s.dev.pwrGood && s.dev.qualified && !s.clk.hold && (s.gateIsle 0).getLsbD 24 && (s.dev.stage != 0 || rate == 0)

/-- The link trained (R398): at 32 GT/s or more it runs the CXL protocols; what waited goes out (R404). -/
def State.trainLink (s : State) (rate width : Nat) : State :=
  ({ s with cxl := { s.cxl with
    up := true, l1 := false, rate := rate, width := width, cxlMode := decide (4 ≤ rate) } }).flushVectors

/-- `LINK_TRAINING` (R398). -/
def execLinkTraining (rate width : Nat) (s : State) : Host.Outcome State Fault Refusal :=
  if s.mayTrain rate then .next (s.trainLink rate width) else .next s

/-- `LINK_DOWN` (R404). -/
def execLinkDown (s : State) : Host.Outcome State Fault Refusal := .next s.dropLink

/-- `LINK_RECOVERY` (R398, R414, R416): the link stays up; `replays` flits were replayed. -/
def execLinkRecovery (fromL1 : Bool) (replays : Nat) (s : State) : Host.Outcome State Fault Refusal :=
  if s.cxl.up && (!fromL1 || s.cxl.l1) then
    let t := { s with cxl := { s.cxl with replays := s.cxl.replays + replays, l1 := s.cxl.l1 && !fromL1 } }
    .next (if fromL1 then t else t.raise .cxlStatus 0x02000000)
  else .next s

/-- `L1_ENTRY` (R414). -/
def execL1Entry (s : State) : Host.Outcome State Fault Refusal :=
  if s.cxl.up then .next { s with cxl := { s.cxl with l1 := true } } else .next s

/-- `PERST` (R364, R399, R402): the link retrains, configuration space returns to its reset state, and all else goes on. -/
def execPerst (s : State) : Host.Outcome State Fault Refusal :=
  if s.dev.pwrGood then
    let s := s.dropLink
    .next { s with cxl := { s.cxl with d3 := false, cohBase := 0, cohLimit := 0 } }
  else .next s

/-- A commit of a decoder is right (R400). -/
def State.commitOk (s : State) (dec base size ways : Nat) : Bool :=
  size == s.hdmSize dec && base % 2 ^ 28 == 0 && ways == 1

/-- `HDM_DECODER_COMMIT` (R400): decoder 1 is absent when no interface is populated. -/
def execHdmDecoderCommit (dec base size ways : Nat) (s : State) : Host.Outcome State Fault Refusal :=
  if s.cxl.up && decide (dec < 2) && !(dec == 1 && s.mpk.lpN == 0) then
    let d : HdmDecoder := if s.commitOk dec base size ways then { base := base, committed := true } else { base := base, err := true }
    .next (if dec = 0 then { s with cxl := { s.cxl with dec0 := d } } else { s with cxl := { s.cxl with dec1 := d } })
  else .next s

/-- `IDE_FAILURE` (R403): the stream stays stopped until it is keyed again. -/
def execIdeFailure (k : Nat) (s : State) : Host.Outcome State Fault Refusal :=
  if s.cxl.up && decide (k < 3) && s.cxl.ideKeyed.getLsbD k && !s.cxl.ideStopped.getLsbD k then
    let s := { s with cxl := { s.cxl with ideStopped := s.cxl.ideStopped ||| BitVec.ofNat 3 (2 ^ k) } }
    .next (s.raise .cxlStatus 0x04000000)
  else .next s

/-- `D_STATE_CHANGE` (R399): what waited goes out on the return to D0. -/
def execDStateChange (d3 : Bool) (s : State) : Host.Outcome State Fault Refusal :=
  if s.cxl.up then .next ({ s with cxl := { s.cxl with d3 := d3 } }).flushVectors else .next s

end Sys2Proof.Machine
end

