-- ==== Sys2Proof/Machine/PairFam.lean ====
section
/-! DEFINITION. The pair commands (11: R310) and the events of a Strait pair (12). What Icura's own messages carry beyond
R322 and R323 is internal to it (R317; log entry 20). -/

namespace Sys2Proof.Machine

/-! Commands. -/

/-- `PAIR_CONFIGURE`'s conditions (R310, R318). -/
def ownConfigure (g : Go) (fit : PartnerFit) (s : State) : Option Fail × State :=
  let mode := par g 0x20 1
  (badPar (mode ≤ 2) 4 0x20 <|> badPar (par g 0x21 1 ≤ 1) 4 0x21 <|>
   badPar (par g 0x24 4 == 0 || (mode == 2 && decide (par g 0x24 4 ≤ 3600000))) 2 0x24 <|>
   need (s.pair.mode + mode != 3 || s.pair.mode == 0 || mode == 0) 0xD <|>
   need (raw g 0x28 16 != s.deviceId) 0xD <|>
   need (mode == 0 || !s.namedBy fit || s.fitsAs mode (raw g 0x28 16) fit) 0xD, s)

/-- The pair fields of a settings block replaced (R318, R365). -/
def pairFields (b : List Byte) (g : Go) : List Byte :=
  let b := overlay (overlay b 0x24 (raw g 0x20 1)) 0x25 (raw g 0x21 1)
  overlay (overlay b 0x28 (raw g 0x24 4)) 0x30 (raw g 0x28 16)

/-- `PAIR_CONFIGURE` from its own checks on (R318 to R320, R344): the settings are written as by `SETTINGS_WRITE`, and a flash
write that fails answers the same (R311). -/
def coreConfigure (g : Go) (fit : PartnerFit) (flashOk : Bool) (s : State) : Reply × State :=
  if !flashOk then (err 0xE, s)
  else
    let mode := par g 0x20 1
    let (_, _, s) := s.storeCopy (pairFields s.inUse g)
    let s := { s with pair := { s.pair with mode := mode } }
    (.done {}, if mode = 0 then s.leavePair else s.formPair fit)

/-- `PAIR_CONFIGURE` in R298 and R310. -/
def cmdConfigure : Cmd := { opcode := 0x60, priv := true, used := [(0x20, 1), (0x21, 1), (0x24, 4), (0x28, 16)] }

/-- `PAIR_CONFIGURE` (R318): what the partner says of itself and whether the flash takes the write are the command's
operands. -/
def execPairConfigure (g : Go) (fit : PairTrial) (s : State) : Host.Outcome State Fault Refusal :=
  icura cmdConfigure g (ownConfigure g fit.fit) (coreConfigure g fit.fit fit.flashOk) s

/-- The live clusters that count in the whole part, at most the partner's in each region (R333). -/
def State.commonCapacity (s : State) : Nat :=
  8 * ((List.range 64).map (fun r =>
    Nat.min ((List.range 4).filter (fun k => s.units.capMap.getLsbD (4 * r + k))).length (look 4 s.pair.partnerLive r))).foldl (· + ·) 0

/-- What `PAIR_STATUS` returns (R310); outside a pair the partner's capacity and the common one are free values (log
entry 7). -/
def corePairStatus (s : State) : Reply × State :=
  let (v, s) := s.draw
  let theirs := 8 * ((List.range 64).map (look 4 s.pair.partnerLive)).foldl (· + ·) 0
  (.done { fields := [
    (0x120, leBytes 1 s.pair.mode), (0x121, leBytes 1 s.pair.role), (0x122, leBytes 1 s.lanesUp),
    (0x124, leBytes 2 (if s.pair.formed then theirs else v)),
    (0x126, leBytes 2 (if s.pair.formed then s.commonCapacity else v / 65536)),
    (0x128, leBytes 8 s.pair.cmpTick), (0x130, leBytes 4 s.pair.reruns), (0x134, leBytes 4 (s.pair.bytesSent / 2 ^ 20))] }, s)

/-- `PAIR_STATUS` in R298 and R310. -/
def cmdPairStatus : Cmd := { opcode := 0x61 }

/-- `PAIR_STATUS` (R310). -/
def execPairStatus (g : Go) (s : State) : Host.Outcome State Fault Refusal := icura cmdPairStatus g noCheck corePairStatus s

/-- `PAIR_PROMOTE` from its own checks on (R345). -/
def corePromote (s : State) : Reply × State :=
  if s.pair.shadow && s.pair.role == 2 && s.pair.phase == 0 && s.pair.promoteIn == 0 then
    (.wait .pairPromote, { s with pair := { s.pair with promoteIn := 2 } })
  else (err 0xD, s)

/-- `PAIR_PROMOTE` in R298 and R310. -/
def cmdPromote : Cmd := { opcode := 0x62, priv := true }

/-- `PAIR_PROMOTE` (R345). -/
def execPairPromote (g : Go) (s : State) : Host.Outcome State Fault Refusal := icura cmdPromote g noCheck corePromote s

/-- Some loaded image has `FLAGS.FABRIC` set (R346). -/
def State.fabricImages (s : State) : Bool := s.sess.any (fun x => x.images.any (fun p => bitAt (fld p.2.bytes 0xC 4) 2))

/-- Every fabric region holds the same `IMAGE_ID` in both parts, 0 for a cleared one (R346). -/
def State.sameFabrics (s : State) (f : PartnerFit) : Bool :=
  (List.range 64).all (fun r => (s.fabric r).imageId == f.fabrics.getD r 0)

/-- `PAIR_REJOIN` from its own checks on (R346, R347). -/
def coreRejoin (fit : PartnerFit) (s : State) : Reply × State :=
  if s.pair.mode == 1 && s.pair.role == 1 && !s.pair.formed && s.pair.phase == 0 && s.pairFits fit && fit.noSession &&
      s.sameFabrics fit && !s.fabricImages then
    (.wait .pairRejoin, { s with pair := { s.pair with
      phase := 1, passes := 0, bytesSent := 0, toSend := (s.sess.flatMap Sess.pages).eraseDups, marked := [] } })
  else (err 0xD, s)

/-- `PAIR_REJOIN` in R298 and R310. -/
def cmdRejoin : Cmd := { opcode := 0x63, priv := true }

/-- `PAIR_REJOIN` (R346): what the partner answers is the command's operand. -/
def execPairRejoin (g : Go) (fit : PartnerFit) (s : State) : Host.Outcome State Fault Refusal :=
  icura cmdRejoin g noCheck (coreRejoin fit) s

/-! Messages. -/

/-- The counts of records that the primary has written are taken up by the secondary (R332). -/
def State.dropRecords (s : State) (rings : List (Nat × Nat)) : State :=
  rings.foldl (fun s r =>
    ({ s with pair := { s.pair with ringDone := put 0 s.pair.ringDone r.1 r.2 } }).dropWritten r.1) s

/-- What a pair message says, taken in (R322, R326, R333, R337, R345, R348). -/
def Pair.take (p : Pair) (m : PairMsg) : Pair :=
  { p with
    partnerDone := m.done, partnerAgain := m.again, partnerDigest := m.digest, partnerSeqHeld := m.seqHeld
    partnerLive := m.live.foldl (fun (t : Tab Nat) (q : Nat × Nat) => put 4 t q.1 q.2) p.partnerLive
    theirs := p.theirs ++ m.reports.map (fun (r : OrderReport) => (⟨r.mb, r.go, r.digest, r.verdict⟩ : OrderRec))
    theirOut := p.theirOut ++ m.outcomes
    theirRegions := if m.regions.isEmpty then p.theirRegions else m.regions
    theirCheck := if m.check.isSome then m.check else p.theirCheck
    promoteIn := if p.mode = 1 ∧ p.role = 1 ∧ m.promote ≠ 0 then m.promote else p.promoteIn
    partnerFull := m.full, theirHeld := m.held, theirOcc := m.occ }

/-- A pair message taken in by a part of a formed pair (R322, R324, R330, R332 to R335, R337, R350). -/
def State.hear (s : State) (m : PairMsg) : State :=
  let s := ({ s with pair := s.pair.take m }).acknowledge m.seqHeld
  let s := if s.pair.role = 2 then s.dropRecords m.rings else s
  let s := if s.pair.role = 2 ∧ s.pair.mode = 2 then
      (let l := s.pair.standby.filter (fun c => m.rings.any (fun r => r.1 == c.sess.id))
      { s with pair := { s.pair with standby := l } })
    else s
  (((s.matchOrders).compareOutcomes).compareTick.knownAnswer).resolve

/-- `PAIR_MESSAGE` (R319, R320, R322, R343). -/
def execPairMessage (m : PairMsg) (s : State) : Host.Outcome State Fault Refusal :=
  if !s.hears then .next s
  else if s.pair.lostRole = 2 then .next s.quitPair
  else if s.pair.formed then .next (s.hear m)
  else match m.fit with
    | some f => .next (s.formPair f)
    | none => .next s

/-- An input held by the secondary (R323, R326): an order record is applied as it comes, in pair order (R331). -/
def State.hold (s : State) (i : Forwarded) : State :=
  let s := { s with pair := { s.pair with seqHeld := i.seq } }
  match i.input with
  | .order mb go => (match s.unordered mb go with
    | some b => (s.dropOrder mb go).applyOrdered b
    | none => s).compareOutcomes
  | .word l none => ({ s with pair := { s.pair with inputs := s.pair.inputs ++ [{ i with input := .word l none }] } }).raise
      .pairState 0x00100000
  | .write _ _ | .word _ (some _) | .stepStart _ | .loadStart _ | .retire _ _ | .page _ _ | .bank _ _ | .tile _ _ _ _
  | .session _ => ({ s with pair := { s.pair with inputs := s.pair.inputs ++ [i] } }).enterPanic

/-- The ingress buffer has room for an input (R191, R324): the link holds the primary by credits while it has not. -/
def State.inputRoom (s : State) (i : Input) : Bool := decide (s.ingressFill + Input.units i ≤ 131072)

/-- A word that the primary's receiver hears on a mirrored lane (R323, R326): both parts get it in the order received, or a
drop mark in its place where either mirror buffer is full. -/
def State.hearWord (s : State) (l : Nat) (d : List Byte) : State :=
  let full := s.mirrorFull l || s.pair.partnerFull.getLsbD l
  let s := if full then s.raise .pairState 0x00100000 else s
  let i := Input.word l (if full then none else some d)
  let s := s.forward i
  { s with pair := { s.pair with inputs := s.pair.inputs ++ [{ seq := s.pair.seq, tag := s.tick.count + 1, input := i }] } }

/-- A part of a transfer received (R347, R349, R350): kept by a joining part until it enters service; a session's record ends a
checkpoint of it, which puts its pages in place. -/
def State.receive (s : State) (i : Input) : State :=
  match i with
  | .session c =>
    if s.pair.role = 3 then { s with pair := { s.pair with got := s.pair.got ++ [i] } }
    else
      let mine := fun (p : Input) => match p with | .page n _ => c.sess.pages.contains n | _ => false
      let s := (s.pair.got.filter mine).foldl State.takePart s
      { s with pair := { s.pair with
          got := s.pair.got.filter (fun p => !mine p)
          standby := s.pair.standby.filter (fun o => o.sess.id != c.sess.id) ++ [c] } }
  | .page _ _ | .bank _ _ | .tile _ _ _ _ => { s with pair := { s.pair with got := s.pair.got ++ [i] } }
  | .order _ _ | .write _ _ | .word _ _ | .stepStart _ | .loadStart _ | .retire _ _ => s

/-- The part receives a transfer or checkpoints: it joins, or it is a checkpoint secondary (R347, R348). -/
def State.receiving (s : State) : Bool := s.pair.role == 3 || (s.pair.formed && s.pair.mode == 2 && s.pair.role == 2)

/-- A part of a formed shadow pair takes an input (R323, R324, R326): the secondary inputs in sequence, the primary a word that
its own receiver hears on a mirrored lane (log entry 62). -/
def State.takeInput (s : State) (i : Forwarded) : State :=
  if s.pair.role = 2 then (if i.seq == s.pair.seqHeld + 1 && s.inputRoom i.input then s.hold i else s)
  else match i.input with
    | .word l (some d) => if (s.lane l).mirrored && (s.lane l).rxLock then s.hearWord l d else s
    | _ => s

/-- `FORWARDED_INPUT` (R323, R326, R347, R349). -/
def execForwardedInput (i : Forwarded) (s : State) : Host.Outcome State Fault Refusal :=
  if !s.hears then .next s
  else if s.pair.shadow then .next (s.takeInput i)
  else if s.receiving then .next (s.receive i.input)
  else .next s

/-- A part that lacks a command records it and shows it as completed (R330). -/
def State.showUnmatched (s : State) (mb go : Nat) : State :=
  let s := s.dropOrder mb go
  let s := { s with pair := { s.pair with unmatched := s.pair.unmatched + 1 } }
  s.setMb mb (fun m => { m with seq := go, state := 3, code := 0xD, statusSeq := go % 256 })

/-- `ORDER_MATCH_TIMEOUT` (R330): 50 ms after the first report only one part holds the command. -/
def execOrderMatchTimeout (mb go : Nat) (s : State) : Host.Outcome State Fault Refusal :=
  let mine := s.pair.mine.any (fun o => o.mb == mb && o.go == go)
  let theirs := s.pair.theirs.any (fun o => o.mb == mb && o.go == go)
  if s.pair.shadow && mine && !theirs then .next (s.unmatch mb go)
  else if s.pair.shadow && theirs && !mine then .next (s.showUnmatched mb go)
  else .next s

/-! Losing a partner. -/

/-- What two heartbeat windows of one kind lead to (R338). -/
def State.judgePartner (s : State) (edge message : Bool) : State :=
  match edge, message with
  | true, true => s
  | true, false =>
    let s := s.raise .pairState 0x02000000
    if s.pair.role = 2 then s.leavePair else s.takeOver
  | false, true => s.raise .pairState 0x01000000
  | false, false =>
    let s := s.raise .pairState 0x04000000
    ({ s with pair := { s.pair with lostRole := s.pair.role } }).takeOver

/-- `PARTNER_JUDGEMENT` (R338): a heartbeat window has passed, with or without an edge and a pair message. -/
def execPartnerJudgement (edge message : Bool) (s : State) : Host.Outcome State Fault Refusal :=
  if s.dev.pwrGood && s.pair.formed && !s.clk.hold then
    let same := s.pair.lastWindow == some (edge, message)
    let s := { s with pair := { s.pair with lastWindow := some (edge, message) } }
    .next (if same then s.judgePartner edge message else s)
  else .next s

/-- `LEAVE_NOTICE` (R339, R340). -/
def execLeaveNotice (s : State) : Host.Outcome State Fault Refusal :=
  if s.hears && s.pair.formed then .next s.takeOver else .next s

/-! Transfers. -/

/-- Bytes of the state of running steps (R347): the readable bank of every cluster buffer and the local memory of the nine
slots of every cluster that a running step uses. -/
def State.runBytes (s : State) : Nat :=
  ((s.runs.flatMap (fun p => p.2.live)).eraseDups).length * (22 * 2 ^ 20 + 9 * 786432)

/-- The time in us that bytes take at the frame-payload rate of the lanes that are up (R347, R405): 14 GB/s a lane, less
the code's 30 in 544 symbols and the frame's 8 in 256 bytes. -/
def State.sendTime (s : State) (bytes : Nat) : Nat :=
  if s.lanesUp = 0 then 2 ^ 64 else ceilDiv (bytes * 544 * 256) (s.lanesUp * 14000 * 514 * 248)

/-- The final hold of a rejoin may begin (R347). -/
def State.mayHold (s : State) : Bool :=
  decide (s.sendTime (65536 * s.pair.marked.length + s.runBytes) ≤ fld s.inUse 0x20 4)

/-- A pass of the transfer is over: its pages are sent, those marked meanwhile come next (R347). -/
def State.endPass (s : State) : State :=
  { s with
    out := { s.out with sent := s.pair.toSend.map s.pageOut }
    pair := { s.pair with
      bytesSent := s.pair.bytesSent + 65536 * s.pair.toSend.length, toSend := s.pair.marked, marked := [] } }

/-- The rejoin's command answered with the bytes sent (R310, R347). -/
def State.answerRejoin (s : State) (code : Nat) : State :=
  s.release (fun w => w == .pairRejoin) (fun o => { o with code := code, fields := [(0x120, leBytes 8 s.pair.bytesSent)] })

/-- A part enters shadow service with a role at the tick that is held (R347). -/
def State.enterShadow (s : State) (role : Nat) : State :=
  let s := { s with pair := { s.pair.begin with left := false } }
  s.setRole role

/-- The primary's transfer goes one phase on (R347). -/
def State.sendOn (s : State) : State :=
  if s.pair.phase = 1 then
    let s := s.endPass
    { s with pair := { s.pair with phase := 2 } }
  else if s.pair.phase = 2 then
    (if s.mayHold then { s with pair := { s.pair with phase := 3, joinHold := true } }
     else
       let s := s.endPass
       { s with pair := { s.pair with passes := s.pair.passes + 1 } })
  else
    let l := s.pair.toSend ++ s.pair.marked
    let s := { s with
      out := { s.out with sent := l.map s.pageOut ++ s.stateOut }
      pair := { s.pair with bytesSent := s.pair.bytesSent + 65536 * l.length + s.runBytes } }
    (s.enterShadow 1).answerRejoin 0

/-- The primary's transfer ends because either part is lost or leaves (R347). -/
def State.sendLost (s : State) : State :=
  let s := { s with pair := { s.pair with phase := 0, joinHold := false, toSend := [], marked := [] } }
  s.answerRejoin 0xD

/-- The joining part goes one phase on (R347): its heartbeat runs from the start of the join, and what it has received is put in
place as it enters service. -/
def State.joinOn (s : State) : State :=
  if s.pair.phase = 0 then
    let s := { s with pair := { s.pair with phase := 1 }, dev := { s.dev with hbOn := true } }
    s.setRole 3
  else if s.pair.phase < 3 then { s with pair := { s.pair with phase := s.pair.phase + 1 } }
  else (s.pair.got.foldl State.takePart s).enterShadow 2

/-- The joining part's transfer fails: it discards what it received and returns to role 0 (R347). -/
def State.joinLost (s : State) : State :=
  let s := { s with pair := { s.pair with phase := 0, got := [] } }
  s.setRole 0

/-- `REJOIN_PHASE` (R347): the next phase or pass of a transfer in the primary that runs `PAIR_REJOIN`, or in a part that is
alone, configured for shadow mode and without sessions, which joins. -/
def execRejoinPhase (lost : Bool) (s : State) : Host.Outcome State Fault Refusal :=
  if s.pair.role = 1 ∧ s.pair.phase ≠ 0 then .next (if lost then s.sendLost else s.sendOn)
  else if s.pair.role = 3 then .next (if lost then s.joinLost else s.joinOn)
  else if s.hears && s.pair.role == 0 && s.pair.mode == 1 && s.sess.isEmpty && s.dev.stage == 2 && !lost then .next s.joinOn
  else .next s

/-- A checkpoint of a session (R349): the pages marked since its last one are sent, then its record. -/
def State.takeCheckpoint (s : State) (x : Sess) : State :=
  let mine := s.pair.marked.filter (fun p => x.pages.contains p)
  { s with
    out := { s.out with sent := mine.map s.pageOut ++ [s.copyOf x] }
    pair := { s.pair with
      marked := s.pair.marked.filter (fun p => !mine.contains p), bytesSent := 65536 * mine.length } }

/-- `CHECKPOINT` (R349): at a step boundary of a primary session in checkpoint mode. -/
def execCheckpoint (sess : Nat) (s : State) : Host.Outcome State Fault Refusal :=
  match s.session sess with
  | none => .next s
  | some x =>
    if s.pair.formed && !s.pair.waits && s.pair.mode == 2 && s.pair.role == 1 && x.running.isNone && s.hears then
      .next (s.takeCheckpoint x)
    else .next s

end Sys2Proof.Machine
end

