-- ==== Sys2Proof/Machine/SecFam.lean ====
section
/-! DEFINITION. Identity, firmware and attestation commands, SPDM, the root of trust and the sealed key store (16; 11: R311;
15: R403). -/

namespace Sys2Proof.Machine

/-! Commands of a host. -/

/-- `RFLAGS` of the attestation report (R429). -/
def State.rflags (s : State) : Nat :=
  b2n s.sec.rbOn + 2 * b2n s.dev.setDefaulted + 4 * b2n s.operKey.isSome + 8 * b2n s.dev.fwFallback

/-- The bytes of the attestation report that its signature covers (R429). -/
def State.report (s : State) (nonce : List Byte) : List Byte :=
  leBytes 4 0x5241514C ++ leBytes 2 1 ++ leBytes 2 s.rflags ++ s.deviceId ++ nonce ++ leBytes 4 s.fwVersion ++
    leBytes 2 s.fwSvn ++ leBytes 1 s.dev.stage ++ leBytes 1 s.pair.role ++
    leBytes 4 (if s.sec.rbOn then s.sec.rbCounter else 0) ++ zeroBytes 4 ++ leBytes 8 s.tick.count ++
    ([1, 2, 3, 4, 5].flatMap s.measurement)

/-- `ATTEST_REPORT` from its own checks on (R418, R429). -/
def coreAttest (g : Go) (s : State) : Reply × State :=
  if s.sec.idKey.isNone then (err 8, s)
  else
    let b := s.report (raw g 0x20 32)
    let (sig, s) := s.signId b
    (.done { out := b ++ sig }, s)

/-- `ATTEST_REPORT` in R298 and R311. -/
def cmdAttest : Cmd :=
  { opcode := 0x80, needs := false, pay := 2, used := [(0x20, 32)], form := payRule (fun g => decide (304 ≤ g.payLen.toNat)) }

/-- `ATTEST_REPORT` (R311, R429). -/
def execAttestReport (g : Go) (s : State) : Host.Outcome State Fault Refusal := icura cmdAttest g noCheck (coreAttest g) s

/-- `GET_CERTIFICATES` from its own checks on (R311, R419). DESIGN CHOICE: an offset beyond the chain's end, for which no
rule gives a code, gets `OK` and no output (log entry 56). -/
def coreCertificates (g : Go) (s : State) : Reply × State :=
  if !s.sec.certOk then (err 8, s)
  else (.done { out := s.flash.chain.drop (par g 0x20 4), fields := [(0x120, leBytes 4 s.flash.chain.length)] }, s)

/-- `GET_CERTIFICATES` in R298 and R311. -/
def cmdCertificates : Cmd := { opcode := 0x81, needs := false, pay := 2, used := [(0x20, 4)] }

/-- `GET_CERTIFICATES` (R311, R419). -/
def execGetCertificates (g : Go) (s : State) : Host.Outcome State Fault Refusal :=
  icura cmdCertificates g noCheck (coreCertificates g) s

/-- The rollback counter that firmware is checked against, while protection is on (R423, R424). -/
def State.rollback (s : State) : Option Nat := if s.sec.rbOn then some s.sec.rbCounter else none

/-- The body of a firmware image is the one its header names (R421 step 4). -/
def fwBodyOk (b : List Byte) : Bool := sha256 (slice b 512 (fld b 0x20 8)) == slice b 0x30 32

/-- The checks of a firmware image, in order (R421). -/
def State.fwFault (s : State) (b : List Byte) (len : Nat) (signed : Bool) : Option Nat :=
  let h := fit 512 b
  if !fwKnown h then some 0xA else if !fwShaped h len then some 2 else if !(signed && fwBodyOk b) then some 9
  else if !fwFresh h s.rollback then some 9 else none

/-- The slot that is not active holds a new image (R353, R421). -/
def Flash.stage (f : Flash) (i : FwImage) : Flash := if f.active then { f with fwA := some i } else { f with fwB := some i }

/-- The image of the staging slot. -/
def Flash.staged (f : Flash) : Option FwImage := if f.active then f.fwA else f.fwB

/-- The image of the active slot. -/
def Flash.main (f : Flash) : Option FwImage := if f.active then f.fwB else f.fwA

/-- `FW_STAGE` from its own checks on (11; R421): a flash write that fails changes nothing. -/
def coreFwStage (g : Go) (signed flashOk : Bool) (s : State) : Reply × State :=
  let b := s.payload g
  match s.fwFault b g.payLen.toNat signed with
  | some c => (err c, s)
  | none =>
    if !flashOk then (err 0xE, s)
    else (.done { fields := [(0x120, leBytes 4 (fld b 0xC 4))] },
      { s with flash := s.flash.stage { header := b.take 512, authOk := true } })

/-- `FW_STAGE` in R298. -/
def cmdFwStage : Cmd := { opcode := 0x70, priv := true, pay := 1 }

/-- `FW_STAGE` (R421): `signed` is the verdict on the root hash, the signer certificate and the signature (log entry 9). -/
def execFwStage (g : Go) (signed flashOk : Bool) (s : State) : Host.Outcome State Fault Refusal :=
  icura cmdFwStage g noCheck (coreFwStage g signed flashOk) s

/-- `FW_ACTIVATE` from its own checks on (11; R329): the restart follows its response. -/
def coreFwActivate (g : Go) (s : State) : Reply × State :=
  match s.flash.staged with
  | none => (err 4 (detailOf 5 0x20), s)
  | some i =>
    if par g 0x20 4 ≠ fld i.header 0xC 4 then (err 4 (detailOf 5 0x20), s)
    else if s.pair.formed then (err 0xD, s)
    else if s.sess.any (fun x => x.id != g.session.toNat) then (err 7, s)
    else (.wait .restart, s)

/-- `FW_ACTIVATE` in R298. -/
def cmdFwActivate : Cmd := { opcode := 0x71, priv := true, used := [(0x20, 4)] }

/-- `FW_ACTIVATE` (R364): its response is posted by `COMMAND_COMPLETION`, which then restarts the part. -/
def execFwActivate (g : Go) (s : State) : Host.Outcome State Fault Refusal := icura cmdFwActivate g noCheck (coreFwActivate g) s

/-! SPDM. What the messages hold beyond what the manual gives is left out (log entry 22). -/

/-- The DOE instance takes requests (R397, R404). -/
def State.doeOn (s : State) : Bool := s.dev.pwrGood && s.cxl.up && (s.gateIsle 0).getLsbD 24

/-- SPDM is served (R428): step 3 of R354 has ended. -/
def State.spdmOn (s : State) : Bool := s.dev.phase == .stage1 || s.afterStage1

/-- A response on DOE: version 1.2, its code, two parameters and what the manual says it holds. -/
def State.say (s : State) (code p1 p2 : Nat) (body : List Byte) : State :=
  { s with out := { s.out with doe := leBytes 1 0x12 ++ leBytes 1 code ++ leBytes 1 p1 ++ leBytes 1 p2 ++ body } }

/-- An ERROR response: 1 InvalidRequest, 2 InvalidSession, 3 Busy, 4 UnexpectedRequest, 5 Unspecified, 6 DecryptError. -/
def State.spdmError (s : State) (code : Nat) : State := s.say 0x7F code 0 []

/-- A request of the negotiation (R428): `level` is how far it must have come. -/
def State.negotiate (s : State) (level : Nat) (f : State → State) : State :=
  if !s.doeOn then s else if !s.spdmOn then s.spdmError 3 else if s.sec.spdm < level then s.spdmError 4 else f s

/-- A request after `NEGOTIATE_ALGORITHMS` (R418, R428): without an identity it is answered with ERROR `Unspecified`. -/
def State.serve (s : State) (f : State → State) : State :=
  s.negotiate 0 (fun s =>
    if s.sec.idKey.isNone then s.spdmError 5 else if s.sec.spdm < 3 then s.spdmError 4 else f s)

/-- The negotiation has come to a level. -/
def State.setSpdm (s : State) (n : Nat) : State := { s with sec := { s.sec with spdm := n } }

/-- `GET_VERSION` (R428): the negotiation starts anew. -/
def execGetVersion (s : State) : Host.Outcome State Fault Refusal :=
  .next (s.negotiate 0 (fun s => (s.setSpdm 1).say 0x04 0 0 [0x12]))

/-- `GET_CAPABILITIES` (R428). -/
def execGetCapabilities (s : State) : Host.Outcome State Fault Refusal :=
  .next (s.negotiate 1 (fun s => (s.setSpdm (Nat.max s.sec.spdm 2)).say 0x61 0 0 []))

/-- `NEGOTIATE_ALGORITHMS` (R428): `supported` says that the requester offers the part's algorithms. -/
def execNegotiateAlgorithms (supported : Bool) (s : State) : Host.Outcome State Fault Refusal :=
  .next (s.negotiate 2 (fun s => if supported then (s.setSpdm 3).say 0x63 0 0 [] else s.spdmError 1))

/-- `GET_DIGESTS` (R419, R428): the digest of slot 0's chain, if there is one. -/
def execGetDigests (s : State) : Host.Outcome State Fault Refusal :=
  .next (s.serve (fun s =>
    if s.flash.chain.isEmpty then s.say 0x01 0 0 [] else s.say 0x01 0 1 (sha256 s.flash.chain)))

/-- `GET_CERTIFICATE` (R419, R428): the chain's bytes from an offset. -/
def execGetCertificate (slot off len : Nat) (s : State) : Host.Outcome State Fault Refusal :=
  .next (s.serve (fun s =>
    if slot ≠ 0 then s.spdmError 1 else if !s.sec.certOk then s.spdmError 5
    else s.say 0x02 0 0 (slice s.flash.chain off len)))

/-- A signature of the identity key over a transcript, after a fresh nonce of the part's own (R428). -/
def State.signed (s : State) (transcript : List Byte) : List Byte × State :=
  let (n, s) := s.drawBytes 32
  let (sig, s) := s.signId (transcript ++ n)
  (n ++ sig, s)

/-- `CHALLENGE` (R428): the chain's digest, a nonce and the signature over the transcript. -/
def execChallenge (slot : Nat) (transcript : List Byte) (s : State) : Host.Outcome State Fault Refusal :=
  .next (s.serve (fun s =>
    if slot ≠ 0 then s.spdmError 1
    else
      let (b, s) := s.signed transcript
      s.say 0x03 0 1 (sha256 s.flash.chain ++ b)))

/-- The DMTF type of measurement i (R427): 0 immutable ROM, 1 mutable firmware, 2 hardware configuration, 3 firmware
configuration. -/
def measureType (i : Nat) : Nat := if i = 1 then 0 else if i = 2 then 1 else if i = 4 then 2 else 3

/-- A measurement block (R427). -/
def State.measureBlock (s : State) (i : Nat) : List Byte :=
  leBytes 1 i ++ leBytes 1 1 ++ leBytes 2 35 ++ leBytes 1 (measureType i) ++ leBytes 2 32 ++ s.measurement i

/-- `GET_MEASUREMENTS` (R427, R428): 0 asks how many there are, 255 for all of them. -/
def execGetMeasurements (index : Nat) (transcript : List Byte) (s : State) : Host.Outcome State Fault Refusal :=
  .next (s.serve (fun s =>
    if index ≠ 0xFF && decide (5 < index) then s.spdmError 1
    else
      let l := if index = 0 then [] else if index = 0xFF then [1, 2, 3, 4, 5] else [index]
      let body := leBytes 1 l.length ++ l.flatMap s.measureBlock
      let (b, s) := s.signed transcript
      s.say 0x60 (if index = 0 then 5 else 0) 0 (body ++ b)))

/-- The secured sessions changed. -/
def State.setSpdmSess (s : State) (l : List SpdmSess) : State := { s with sec := { s.sec with spdmSess := l } }

/-- A secured session by its number. -/
def State.spdmOf (s : State) (sid : Nat) : Option SpdmSess := s.sec.spdmSess.find? (fun x => x.id == sid)

/-- A secured session whose handshake is finished. -/
def State.secured (s : State) (sid : Nat) : Bool := match s.spdmOf sid with | some x => x.open_ | none => false

/-- `KEY_EXCHANGE` (R428): a third session at once is answered with ERROR `Busy`. -/
def execKeyExchange (transcript : List Byte) (s : State) : Host.Outcome State Fault Refusal :=
  .next (s.serve (fun s =>
    if 2 ≤ s.sec.spdmSess.length then s.spdmError 3
    else
      let sid := if (s.spdmOf 1).isNone then 1 else 2
      let (b, s) := s.signed transcript
      (s.setSpdmSess (s.sec.spdmSess ++ [{ id := sid }])).say 0x64 0 0 (leBytes 2 sid ++ b)))

/-- `FINISH` (R428): a handshake whose verify data is wrong ends. -/
def execFinish (sid : Nat) (ok : Bool) (s : State) : Host.Outcome State Fault Refusal :=
  .next (s.serve (fun s => match s.spdmOf sid with
    | none => s.spdmError 2
    | some x =>
      if x.open_ then s.spdmError 4
      else if ok then
        (s.setSpdmSess (s.sec.spdmSess.map (fun y => if y.id = sid then { y with open_ := true } else y))).say 0x65 0 0 []
      else (s.setSpdmSess (s.sec.spdmSess.filter (fun y => y.id != sid))).spdmError 6))

/-- `KEY_UPDATE` (R428). -/
def execKeyUpdate (sid : Nat) (s : State) : Host.Outcome State Fault Refusal :=
  .next (s.serve (fun s =>
    if s.secured sid then
      (s.setSpdmSess (s.sec.spdmSess.map (fun y => if y.id = sid then { y with updates := y.updates + 1 } else y))).say
        0x69 0 0 []
    else s.spdmError 2))

/-- `END_SESSION` (R428). -/
def execEndSession (sid : Nat) (s : State) : Host.Outcome State Fault Refusal :=
  .next (s.serve (fun s =>
    if s.secured sid then (s.setSpdmSess (s.sec.spdmSess.filter (fun y => y.id != sid))).say 0x6C 0 0 []
    else s.spdmError 2))

/-- An IDE stream keyed (R403): one that an integrity failure has stopped runs again. -/
def State.keyStream (s : State) (k : Nat) : State :=
  ({ s with cxl := { s.cxl with
    ideKeyed := s.cxl.ideKeyed ||| BitVec.ofNat 3 (2 ^ k)
    ideStopped := s.cxl.ideStopped &&& ~~~ BitVec.ofNat 3 (2 ^ k) } }).flushVectors

/-- `IDE_KM_REQUEST` (R403, R428): over a secured session only. -/
def execIdeKmRequest (sid k : Nat) (s : State) : Host.Outcome State Fault Refusal :=
  .next (s.serve (fun s => if k < 3 && s.secured sid then (s.keyStream k).say 0x7E 0 0 [] else s.spdmError 2))

/-! The root of trust. -/

/-- A request on the master port (R423). -/
def State.sendRb (s : State) (b : List Byte) : State := { s with out := { s.out with smbMaster := b } }

/-- Icura enrols a root of trust at stage 1 when none is enrolled (R424). -/
def State.mayEnrol (s : State) : Bool := s.dev.pwrGood && s.dev.stage == 1 && s.flash.enrolment.isNone

/-- `RB_PUBKEY` (R423, R424). -/
def execRbPubkey (key : Option (List Byte)) (s : State) : Host.Outcome State Fault Refusal :=
  if s.mayEnrol then
    let s := s.sendRb [1]
    .next { s with sec := { s.sec with rbKey := match key with
      | some k => if k.length = 64 && onCurve (keyOf k) then k else []
      | none => [] } }
  else .next s

/-- The boot ROM reads the counter before it checks firmware (R424). -/
def State.bootReads (s : State) : Bool :=
  s.dev.pwrGood && s.dev.phase == .boot && !s.clk.hold && s.flash.enrolment.isSome

/-- An answer to a nonce, if it is a valid one (R423). -/
def validAnswer (key nonce : List Byte) (a : Option RbAnswer) : Option Nat :=
  match a with
  | some x => if rbValid key nonce x then some x.counter else none
  | none => none

/-- The boot ROM's read of the counter (R424). -/
def State.bootRead (s : State) (nonce : List Byte) (a : Option RbAnswer) : State :=
  match validAnswer (s.flash.enrolment.getD []) nonce a with
  | some c => { s with sec := { s.sec with rbSeen := true, rbCounter := c } }
  | none => { s with sec := { s.sec with rbSeen := false } }

/-- The read that ends an enrolment (R424): protection is on from the next boot. Without an identity there is no k_seal for
the enrolment's MAC, and nothing is enrolled (R418, DEDUCED; log entry 47). -/
def State.enrol (s : State) (nonce : List Byte) (a : Option RbAnswer) : State :=
  let k := s.sec.rbKey
  let s := { s with sec := { s.sec with rbKey := [] } }
  match validAnswer k nonce a with
  | some _ => if s.sec.idKey.isSome then { s with flash := { s.flash with enrolment := some k } } else s
  | none => s

/-- `RB_READ` (R423, R424): the nonce is the part's own, a free value. -/
def execRbRead (a : Option RbAnswer) (s : State) : Host.Outcome State Fault Refusal :=
  if s.bootReads then
    let (n, s) := s.drawBytes 32
    .next ((s.sendRb (2 :: n)).bootRead n a)
  else if s.mayEnrol && !s.sec.rbKey.isEmpty then
    let (n, s) := s.drawBytes 32
    .next ((s.sendRb (2 :: n)).enrol n a)
  else .next s

/-- An advance of the counter is due (R424). -/
def State.mayAdvance (s : State) : Bool := s.dev.pwrGood && s.sec.rbOn && s.sec.rbRetry && s.afterStage1

/-- What an advance leads to (R424): after a failure it stays due. -/
def State.advanceRb (s : State) (nonce : List Byte) (a : Option RbAnswer) : State :=
  match validAnswer (s.flash.enrolment.getD []) nonce a with
  | some c => { s with sec := { s.sec with rbCounter := c, rbRetry := false } }
  | none => s.raise .secStatus 0x10000000

/-- `RB_ADVANCE` (R423, R424): to the running image's `SVN`. -/
def execRbAdvance (a : Option RbAnswer) (s : State) : Host.Outcome State Fault Refusal :=
  if s.mayAdvance then
    let (n, s) := s.drawBytes 32
    .next ((s.sendRb (3 :: leBytes 4 s.fwSvn ++ n)).advanceRb n a)
  else .next s

/-! The sealed key store. -/

/-- An operation is in progress, and it is the one named; an envelope whose `OP` names none is any of them (R426). -/
def State.sealing (s : State) (op : Nat) : Bool :=
  let o := fld s.envelope 0 1
  s.dev.pwrGood && s.sec.busy && (o == op || !(o == 1 || o == 2 || o == 3))

/-- A slot of the store written (R425). -/
def State.putSeal (s : State) (k : Nat) (x : SealSlot) : State :=
  { s with flash := { s.flash with seals := put {} s.flash.seals k x } }

/-- An operation of the store, once its envelope is right (R426): `act` gives what it stores, or its failure. -/
def State.sealOp (s : State) (flashOk : Bool) (act : List Byte → Except Nat State) : State :=
  match s.envelopeFault s.envelope with
  | some c => s.sealEnd c
  | none =>
    match act s.envelope with
    | .error c => s.sealEnd c
    | .ok t => if flashOk then t.sealEnd 0 else s.sealEnd 5

/-- What a key write stores (R425, R426). -/
def State.sealWrite (s : State) (env : List Byte) : Except Nat State :=
  match s.unwrap env with
  | .error c => .error c
  | .ok key => .ok (s.putSeal (fld env 1 1)
      { gen := fld env 4 4, cipher := some (gcmSeal s.sec.kSeal (sealNonce (fld env 1 1) (fld env 4 4)) [] key) })

/-- `SEAL_WRITE_SLOT` (R426). -/
def execSealWriteSlot (flashOk : Bool) (s : State) : Host.Outcome State Fault Refusal :=
  if s.sealing 1 then .next (s.sealOp flashOk s.sealWrite) else .next s

/-- What an erasure stores (R426). -/
def State.sealErase (s : State) (env : List Byte) : Except Nat State := .ok (s.putSeal (fld env 1 1) { gen := fld env 4 4 })

/-- `SEAL_ERASE_SLOT` (R426). -/
def execSealEraseSlot (flashOk : Bool) (s : State) : Host.Outcome State Fault Refusal :=
  if s.sealing 2 then .next (s.sealOp flashOk s.sealErase) else .next s

/-- What the removal of the enrolment leaves (R424, R426): protection is on exactly while an enrolment exists. -/
def State.sealRemove (s : State) (_env : List Byte) : Except Nat State :=
  .ok { s with flash := { s.flash with enrolment := none }, sec := { s.sec with rbOn := false, rbRetry := false } }

/-- `SEAL_REMOVE_ENROLMENT` (R424, R426). -/
def execSealRemoveEnrolment (flashOk : Bool) (s : State) : Host.Outcome State Fault Refusal :=
  if s.sealing 3 then .next (s.sealOp flashOk s.sealRemove) else .next s

end Sys2Proof.Machine
end

