-- ==== Sys2Proof/Machine/BootFam.lean ====
section
/-! DEFINITION. Power, start-up, restarts, parking, SMBus and boundary scan (13; 18: R440, R441, R448 to R450), and the end
of a command that waited (11: R282). -/

namespace Sys2Proof.Machine

/-! Power and restarts. -/

/-- What outlasts a restart of the block (R364, R376, R441): the flash, the record of an undervoltage, what has left the
part; and the model's own queue and count of free values. -/
def State.bare (s : State) : State :=
  { pending := s.pending, free := s.free, flash := s.flash, pwr := { uvSeen := s.pwr.uvSeen, rail := s.pwr.rail },
    out := { s.out with vecWait := [], smbAck := false } }

/-- The block without power good (R440, R449): the devices of device memory lose what they held. -/
def State.down (s : State) (held : Bool) : State := { s.bare with dev := { uvHold := held } }

/-- A restart (R364): from the Lamb stage, or from step 3 of R354 with the references still qualified. Device memory is kept
until start-up zeroes it, a thermal trip until it releases. -/
def State.restart (s : State) (step3 : Bool) : State :=
  let p := s.pwr
  let keep := step3 && s.dev.qualified
  { s.bare with
    mem := s.mem
    pwr := { uvSeen := p.uvSeen, rail := p.rail, inTrip := p.inTrip, tjMax := p.tjMax }
    clk := { ppm := if keep then s.clk.ppm else 0 }
    dev := { pwrGood := true, strap := s.dev.strap, scan := s.dev.scan, qualified := keep
             phase := if keep then .boot else .qualify } }

/-- The board's contents of the configuration flash (log entry 13). -/
def Flash.program (f : Flash) (b : BoardFlash) : Flash :=
  let img := fun (p : FwProg) => ({ header := p.header, authOk := p.authOk } : FwImage)
  { f with fwA := b.fwA.map img, fwB := b.fwB.map img, active := b.active, setA := b.setA, setB := b.setB,
           chain := b.chain, fabOff := b.fabOff, fabImage := b.fabImage }

/-- `PWR_GOOD_RISE` (R352, R364, R448): the strap is sampled, and the Lamb stage begins. -/
def execPwrGoodRise (strap : BitVec 3) (board : Option BoardFlash) (s : State) : Host.Outcome State Fault Refusal :=
  if s.dev.pwrGood || s.dev.uvHold then .next s
  else
    let s := match board with | some b => { s with flash := s.flash.program b } | none => s
    .next { s.bare with dev := { pwrGood := true, strap := strap.toNat, phase := .qualify } }

/-- `PWR_GOOD_FALL` (R440): it also ends the wait after an undervoltage (R441). -/
def execPwrGoodFall (s : State) : Host.Outcome State Fault Refusal :=
  if s.dev.pwrGood || s.dev.uvHold then .next (s.down false) else .next s

/-- `RAIL_UNDERVOLTAGE` (R441). -/
def execRailUndervoltage (rail : BitVec 13) (s : State) : Host.Outcome State Fault Refusal :=
  if s.dev.pwrGood && rail != 0 then
    let t := s.down true
    .next { t with pwr := { t.pwr with uvSeen := true, rail := rail.toNat } }
  else .next s

/-! The boot ROM. -/

/-- The identity reconstructed, or not (R417, R418). -/
def State.identify (s : State) (seed : Option (List Byte)) : State :=
  match seed with
  | some k => { s with sec := { s.sec with idKey := some (identityOf k), kSeal := sealKeyOf k } }
  | none => { s with sec := { s.sec with idKey := none, kSeal := [] } }

/-- A firmware slot passes the checks of R421; with an enrolment, step 5 also wants the root of trust's answer (R424). -/
def State.fwBoots (s : State) (i : FwImage) : Bool :=
  let h := i.header
  h.length == 512 && fwKnown h && fwShaped h (512 + fld h 0x20 8 + fld h 0x28 4) && i.authOk &&
    (s.flash.enrolment.isNone || (s.sec.rbSeen && fwFresh h (some s.sec.rbCounter)))

/-- Both settings copies read, and the copy to use put in use (R356, R366). -/
def State.readSettings (s : State) : State :=
  let copy := chooseCopy s.flash.setA s.flash.setB
  let s := { s with dev := { s.dev with setCopy := copy } }
  let (b, bad) := withDefaults s.inUse
  { s with dev := { s.dev with setDefaulted := copy == 0, fieldDefaulted := bad, settings := b } }

/-- The staging buffer filled with the copy in use (R367). -/
def State.fillStaging (s : State) : State := { s with dev := { s.dev with staging := s.inUse } }

/-- The boot ROM hands over to an image (R353, R354, R367): stage 1 begins. -/
def State.handOver (s : State) (slot fallback : Bool) (i : FwImage) (rom : List Byte) : State :=
  let s := { s with
    dev := { s.dev with stage := 1, phase := .stage1, fwSlot := slot, fwFallback := fallback, fw := i.header }
    sec := { s.sec with romHash := rom, rbOn := s.flash.enrolment.isSome } }
  (s.readSettings).fillStaging

/-- An image that boots, if there is one in a slot. -/
def State.bootable (s : State) (i : Option FwImage) : Option FwImage := i.filter s.fwBoots

/-- The boot ROM tries the active slot and then the other (R353). -/
def State.boot (s : State) (rom : List Byte) : State :=
  match s.bootable s.flash.main with
  | some i => s.handOver s.flash.active false i rom
  | none =>
    match s.bootable s.flash.staged with
    | some i => s.handOver (!s.flash.active) true i rom
    | none => { s with dev := { s.dev with bootErr := 1 } }

/-- The boot ROM may run (R353, R354, R450): no boundary-scan instruction governs the pins, and it has not failed. -/
def State.mayBoot (s : State) : Bool :=
  s.dev.pwrGood && s.dev.phase == .boot && s.dev.bootErr == 0 && !s.clk.hold && !s.dev.scan

/-- `BOOT_FIRMWARE` (R353, R417, R421, R424). -/
def execBootFirmware (e : BootEnv) (s : State) : Host.Outcome State Fault Refusal :=
  if s.mayBoot then .next ((s.identify e.seed).boot e.romHash) else .next s

/-! Stage 1. -/

/-- Step 5 of R354: the isles come up on their PLLs, and the registers named are written from the settings. -/
def State.bringUp (s : State) : State :=
  let b := s.dev.settings
  let s := { s with
    dev := { s.dev with atStart := b }
    tick := { s.tick with period := fld b 0x10 2, ovrThresh := fld b 0x12 1, warnLead := fld b 0x13 1 }
    pwr := { s.pwr with envelope := fld b 0x14 2 }
    mpk := { s.mpk with panicMark := fld b 0x16 1, retireThresh := fld b 0x1A 2 }
    pair := { s.pair with mode := fld b 0x24 1 } }
  let s := (List.range 4).foldl (fun s i => s.muxAsk (muxKey 1 i) 1) s
  s.restRegions

/-- How many interfaces of each isle carry the LPDDR5X tier (R183): the most of those declared that passed everywhere. -/
def lpUsed (k : Nat) (fails : List Nat) : Nat :=
  ((List.range (k + 1)).filter (fun n => (List.range 4).all (fun i =>
    (List.range n).all (fun j => !fails.contains (6 * i + j))))).foldl Nat.max 0

/-- Step 6 of R354 (R183): memory trained. -/
def State.trainMemory (s : State) (fails : List Nat) : State :=
  let k := Nat.min 6 (fld s.dev.settings 0x17 1)
  let n := lpUsed k fails
  let s := (List.range 16).foldl (fun s c => s.setCtl c (fun x => { x with trained := true, populated := true })) s
  let s := (List.range 24).foldl (fun s j =>
    if j % 6 < k && !fails.contains j then
      s.setCtl (16 + j) (fun x => { x with trained := true, populated := decide (j % 6 < n) })
    else s) s
  { s with mpk := { s.mpk with lpN := 4 * n, lpCap := fld s.dev.settings 0x18 1 } }

/-- The clocks of stage 1 and later (R382, R384): every unit in service. -/
def State.enableClocks (s : State) : State :=
  (List.range 4).foldl (fun s i =>
    let lp := (List.range 6).foldl (fun (w : Word) k =>
      if (s.memCtl (16 + 6 * i + k)).populated then w ||| bitW (4 + k) true else w) 0
    let w : Word := (if i = 0 then 0x070FFC0F else if i = 1 then 0x010FFC0F else 0x000FFC0F) ||| lp
    { s with clk := { s.clk with gateIsle := put 0 s.clk.gateIsle i w } })
    { s with clk := { s.clk with gateRegion := (List.range 64).foldl (fun t r => put 0 t r regionGates) s.clk.gateRegion } }

/-- A pseudo-channel retired at stage 1, where there is no data to copy (R194, R360): a fifth freezes its stack, for which
`addr` is the sector. -/
def State.dropPc (s : State) (stack pc addr : Nat) : State :=
  if s.pcGone stack pc then s
  else if s.pcsFull then s.freezeCtl stack addr true none
  else
    let (seed, s) := s.draw
    let p : Spare := { stack := stack, pc := pc, seed := seed, pages := pcPages }
    let s := { s with mpk := { s.mpk with retired := s.mpk.retired + 1, spares := s.mpk.spares ++ [p] } }
    s.setCtl stack (fun c => { c with units := c.units ||| bitW pc true })

/-- Step 7 of R354: HBM3E zeroed, its failing pseudo-channels retired. -/
def State.testHbm (s : State) (fails : List (Nat × Nat × Nat)) : State :=
  let s := { s with mem := s.mem.filter (fun c => decide (lpBase ≤ c.1)) }
  fails.foldl (fun s p => if p.1 < 16 ∧ p.2.1 < 32 then s.dropPc p.1 p.2.1 p.2.2 else s) s

/-- The slots of a cluster that failed, and 9 for its buffer. -/
def stageFails (e : Stage1Env) (c : Nat) : List Nat :=
  ((e.slotFail.filter (fun p => p.1 == c && decide (p.2 < 9))).map (fun p => p.2)).eraseDups ++
    (if e.bufFail.contains c then [9] else [])

/-- A cluster's placement from its tests (R357). -/
def State.placeCluster (s : State) (c : Nat) (fails : List Nat) : State :=
  if fails.isEmpty then s
  else match if fails.contains 9 then none else placedWith fails with
  | none => s.retireCluster c
  | some ps => { s with units := { s.units with
      place := put (List.range 8) s.units.place c ps
      retiredSlots := s.units.retiredSlots ++ fails.map (fun f => c * 9 + f) } }

/-- Step 8 of R354 (R355, R357, R368): the compute dies come up. -/
def State.testDies (s : State) (e : Stage1Env) : State :=
  let s := (List.range 256).foldl (fun s c => s.placeCluster c (stageFails e c)) s
  let s := (e.dieFail.filter (fun d => decide (d < 32))).foldl State.fenceDie s
  let s := (e.regionFail.filter (fun r => decide (r < 64))).foldl State.fenceRegion s
  { s with units := { s.units with
    fabFenced := (e.fabFail.filter (fun r => decide (r < 64))).foldl (fun m r => withBit m r true) s.units.fabFenced } }

/-- One entry of the retire list (R360): `kind` and `id` of a unit. A slot's identity moves to the mule, with nothing to
copy yet. For a fifth pseudo-channel the manual names no sector: its address is a free value (log entry 7). -/
def State.listed (s : State) (kind id : Nat) : State :=
  if 5 < kind then s
  else if !unitId kind id then { s with dev := { s.dev with fieldDefaulted := true } }
  else if kind = 0 then
    (let i := id / 16 * 9 + id % 16
    if s.units.retiredSlots.contains i then s
    else match s.units.tileOf i with
      | none => { s with units := { s.units with retiredSlots := s.units.retiredSlots ++ [i] } }
      | some _ => (s.moveIdentity i false).getD (s.retireCluster (id / 16)))
  else if kind = 1 then s.retireCluster id
  else if kind = 2 then s.fenceRegion id
  else if kind = 3 then s.fenceDie id
  else if kind = 4 then s.draw.2.dropPc (id / 32) (id % 32) s.draw.1
  else s.retireLane id

/-- Step 9 of R354: the retire list applied, entry by entry (R360). -/
def State.applyList (s : State) : State :=
  (List.range 64).foldl (fun s k =>
    s.listed (fld s.dev.atStart (0x100 + 8 * k) 1) (fld s.dev.atStart (0x104 + 8 * k) 4)) s

/-- Step 10 of R354: the tick source starts, the heartbeat begins, and the mailboxes open. An advance of the rollback
counter is due (R424), and a nonce for privileged opens is drawn (R288). -/
def State.startTicks (s : State) (e : Stage1Env) : State :=
  let s := { s with
    tick := { s.tick with on := true, due := true, closed := true, settled := true, done := 0 }
    dev := { s.dev with phase := .open1, hbOn := true, pkgFault := e.pkgFault || s.anyFrozen }
    sec := { s.sec with certOk := e.certOk && s.sec.idKey.isSome && !s.flash.chain.isEmpty, rbRetry := s.sec.rbOn } }
  s.newNonce

/-- Icura brings the part up (R354); capacity is computed once (R357). -/
def State.startUp (s : State) (e : Stage1Env) : State :=
  let s := (((s.readSettings).bringUp).trainMemory e.lpFail).enableClocks
  let s := ((s.testHbm e.pcFail).testDies e).applyList
  { s with units := s.units.compute }.startTicks e

/-- `STAGE_1` (R354 to R357, R360). -/
def execStage1 (e : Stage1Env) (s : State) : Host.Outcome State Fault Refusal :=
  if s.dev.pwrGood && s.dev.phase == .stage1 && !s.clk.hold then .next (s.startUp e) else .next s

/-! Stage 2. -/

/-- Step 1 of R358: the LPDDR5X tier zeroed, and lanes that fail retired. -/
def State.stage2Tests (s : State) (lanes : List Nat) : State :=
  let s := { s with mem := s.mem.filter (fun c => decide (c.1 < lpBase)) }
  (lanes.filter (fun l => decide (l < 32))).foldl State.retireLane s

/-- The settings name a fabric image in flash (R365). -/
def State.flashNamed (s : State) : Bool := fld s.dev.atStart 0x80 4 != 0

/-- The stream that the settings name in flash (R270, R365); nothing but what the board programmed stands there. -/
def State.flashStream (s : State) : List Byte :=
  let n := fld s.dev.atStart 0x84 4
  if s.flash.fabOff = fld s.dev.atStart 0x80 4 then fit n s.flash.fabImage else zeroBytes n

/-- The flash fabric image judged (R252, R253, R270): `KIND` must be 0. -/
def State.judgeFlash (s : State) (b : List Byte) : Except Fail (List Byte) :=
  match s.judgeFabric b true 0xFF none with
  | .error f => .error f
  | .ok k => if fld b 0xC 1 = 0 then .ok k else .error { code := 0xA, detail := detailOf 1 0xE }

/-- Step 2 of R358 (R270): the flash fabric image refused, or its load accepted. A read error cuts the stream short
(R266). -/
def State.loadFlash (s : State) (bad : Bool) : State :=
  let b := s.flashStream
  let s := { s with fcfg := { s.fcfg with flashRan := true, flashStatus := 0 } }
  match s.judgeFlash b with
  | .error f =>
    let s := { s with fcfg := { s.fcfg with flashStatus := f.code } }
    (s.rejectFabric b).note .unit 0xFF 0 (leBytes 2 f.code)
  | .ok k => (s.addLoad b bad k none 0).2

/-- The load of the flash fabric image is not through. -/
def State.flashLoading (s : State) : Bool := s.loads.any (fun l => l.mb.isNone)

/-! Parking. -/

/-- The clocks of tiles and stream engines off or on (R362, R363, R384), but for fenced regions. -/
def State.gateTiles (s : State) (on : Bool) : State :=
  (List.range 64).foldl (fun s r =>
    let w := s.gateOf r
    let w := if on && !s.units.fenced r then w ||| 0x2F else w &&& ~~~ (0x2F : Word)
    { s with clk := { s.clk with gateRegion := put 0 s.clk.gateRegion r w } }) s

/-- The part is parked (R362). -/
def State.park (s : State) : State :=
  let s := { s with dev := { s.dev with stage := 3 } }
  let s := (((s.gateTiles false).setTier false { inSr := true }).setTier true { inSr := true })
  let s := ((s.gateTier false false).gateTier true false)
  let s := (List.range 64).foldl State.holdFabric s
  (s.fixLanes).idleStrait

/-- The part leaves the parked state (R363). -/
def State.unpark (s : State) : State :=
  let s := { s with dev := { s.dev with stage := 2 } }
  (((s.gateTiles true).wakeTiers).restartFabrics).fixLanes

/-- Steps 3 and 4 of R358 (R319, R320, R361): the pair forms if it can, stage 2 begins, and a part that is to be parked is. -/
def State.enterStage2 (s : State) (partner : Option PartnerFit) : State :=
  let s := { s with dev := { s.dev with stage := 2, phase := .full } }
  let s := match partner with | some f => s.formPair f | none => s
  if bitAt (fld s.dev.atStart 0xC 4) 0 then s.park else s

/-- The steps of R358, up to a wait for the flash fabric image. -/
def State.runStage2 (s : State) (e : Stage2Env) : State :=
  let s := if s.fcfg.flashRan then s else s.stage2Tests e.laneFail
  let s := if s.flashNamed && !s.fcfg.flashRan then s.loadFlash e.flashBad else s
  if s.flashLoading then s else s.enterStage2 e.partner

/-- `STAGE_2` (R355, R358, R361): where a flash fabric image is named, the command comes once to start its load and again
once that is through. -/
def execStage2 (e : Stage2Env) (s : State) : Host.Outcome State Fault Refusal :=
  if s.dev.pwrGood && s.dev.phase == .open1 && !s.dev.pkgFault && !s.clk.hold then .next (s.runStage2 e) else .next s

/-! SMBus (R367). -/

/-- The bus address of the management slave (R448). -/
def State.smbAddr (s : State) : Nat := 0x40 + s.dev.strap

/-- A command acknowledged. -/
def State.ack (s : State) : State := { s with out := { s.out with smbAck := true } }

/-- A command not acknowledged (R367, R449). -/
def State.nak (s : State) : State := { s with out := { s.out with smbAck := false } }

/-- A read answered. -/
def State.smbReads (s : State) (b : List Byte) : State := { s.ack with out := { s.ack.out with smbReply := b } }

/-- A command with PEC: not acknowledged without power or with a wrong PEC, refused where it is not accepted, or carried
out (R361, R367, R449). -/
def State.smbWrites (s : State) (pec ok : Bool) (f : State → State) : State :=
  if !s.dev.pwrGood || !pec then s.nak else if ok then f s.ack else s.ack.raise .devStatus 0x02000000

/-- `READ_HEALTH` (R367). -/
def execReadHealth (s : State) : Host.Outcome State Fault Refusal :=
  if s.dev.pwrGood then .next (s.smbReads (s.healthRecord.take 48)) else .next s.nak

/-- `READ_STATUS` (R367). -/
def execReadStatus (s : State) : Host.Outcome State Fault Refusal :=
  if s.dev.pwrGood then .next (s.smbReads (leBytes 4 (s.regValue .devStatus).toNat)) else .next s.nak

/-- `PARK` is accepted (R361). -/
def State.mayPark (s : State) : Bool := s.dev.stage == 2 && s.sess.isEmpty && s.pair.role == 0

/-- `PARK` (R361, R362, R367). -/
def execPark (data : Byte) (pec : Bool) (s : State) : Host.Outcome State Fault Refusal :=
  .next (s.smbWrites pec (data == 0x5A && s.mayPark) State.park)

/-- `UNPARK` (R363, R367). -/
def execUnpark (data : Byte) (pec : Bool) (s : State) : Host.Outcome State Fault Refusal :=
  .next (s.smbWrites pec (data == 0x5A && s.dev.stage == 3) State.unpark)

/-- `RESET` (R364, R367). -/
def execSmbReset (data : Byte) (pec : Bool) (s : State) : Host.Outcome State Fault Refusal :=
  .next (s.smbWrites pec (data == 0xA5) (fun s => (s.restart false).ack))

/-- Settings come over the bus: from stage 1, neither parked nor in clock hold, while no operator key is in use (R363,
R367, R449). -/
def State.smbSettings (s : State) : Bool := (s.dev.stage == 1 || s.dev.stage == 2) && s.operKey.isNone

/-- `SETTINGS_STAGE` (R367). -/
def execSettingsStage (off : BitVec 16) (data : List Byte) (pec : Bool) (s : State) : Host.Outcome State Fault Refusal :=
  .next (s.smbWrites pec (s.smbSettings && off.toNat % 32 == 0 && decide (off.toNat < 8192) && data.length == 32)
    (fun s => { s with dev := { s.dev with staging := overlay (fit 8192 s.dev.staging) off.toNat data } }))

/-- A commit's outcome (R366, R367): its pair mode is in force at once in a part that is in no pair. The buffer is filled
again in every case. -/
def State.commitSettings (s : State) (flashOk : Bool) : State :=
  let s := match s.writeSettings (fit 8192 s.dev.staging) true flashOk with
    | .error _ => s.raise .devStatus 0x02000000
    | .ok (_, _, t) =>
      if t.pair.formed then t else { t with pair := { t.pair with mode := fld t.dev.settings 0x24 1 } }
  s.fillStaging

/-- `SETTINGS_COMMIT` (R366, R367). -/
def execSettingsCommit (data : Byte) (pec flashOk : Bool) (s : State) : Host.Outcome State Fault Refusal :=
  .next (s.smbWrites pec (data == 0x5A && s.smbSettings) (fun s => s.commitSettings flashOk))

/-! Boundary scan. -/

/-- `BOUNDARY_SCAN_INSTRUCTION` (R440, R450). -/
def execBoundaryScanInstruction (i : ScanInstr) (s : State) : Host.Outcome State Fault Refusal :=
  if s.dev.pwrGood then .next { s with dev := { s.dev with scan := i == .other && s.dev.stage == 0 } } else .next s

/-! Commands that waited. -/

/-- What follows the response of a command that waited: the session of a `CLOSE_SESSION` is gone (R291), the part restarts
on the staged firmware (R364). -/
def State.afterResponse (s : State) : WaitFor → State
  | .close id => s.dropSession id
  | .restart =>
    let t := s.restart true
    { t with flash := { t.flash with active := !t.flash.active } }
  | _ => s

/-- The command on a mailbox whose answer is ready and waits for no access (R198). -/
def State.answered (s : State) (n : Nat) : Option BusyCmd :=
  (s.mb n).busy.filter (fun b => (b.done || b.wait == .restart) && !s.mbHeld n)

/-- The answer of a command that waited: posted with its output, or alone where the output is out. -/
def State.complete (s : State) (b : BusyCmd) : State :=
  if b.placed then s.postStatus b.opcode b.go b.acc else s.postResult b.opcode b.go b.acc

/-- `COMMAND_COMPLETION` (R282): the answer of a command that waited is posted. -/
def execCommandCompletion (n : Nat) (s : State) : Host.Outcome State Fault Refusal :=
  match s.answered n with
  | none => .next s
  | some b => .next ((s.complete b).afterResponse b.wait)

end Sys2Proof.Machine
end

