-- ==== Sys2Proof/Machine/Dispatch.lean ====
section
/-! DEFINITION. The meaning of every command, one arm each. -/

namespace Sys2Proof.Machine

def exec (i : Instr) (s : State) : Host.Outcome State Fault Refusal :=
  match i with
  | .deviceInfo g => Sys2Proof.Machine.execDeviceInfo g s
  | .health g => Sys2Proof.Machine.execHealth g s
  | .openSession g => Sys2Proof.Machine.execOpenSession g s
  | .closeSession g => Sys2Proof.Machine.execCloseSession g s
  | .setSessionLimits g => Sys2Proof.Machine.execSetSessionLimits g s
  | .allocMemory g => Sys2Proof.Machine.execAllocMemory g s
  | .freeMemory g => Sys2Proof.Machine.execFreeMemory g s
  | .loadSchedule g => Sys2Proof.Machine.execLoadSchedule g s
  | .unloadSchedule g => Sys2Proof.Machine.execUnloadSchedule g s
  | .bindTensor g => Sys2Proof.Machine.execBindTensor g s
  | .submitSteps g => Sys2Proof.Machine.execSubmitSteps g s
  | .cancelSteps g => Sys2Proof.Machine.execCancelSteps g s
  | .querySteps g => Sys2Proof.Machine.execQuerySteps g s
  | .replayIntermediate g => Sys2Proof.Machine.execReplayIntermediate g s
  | .loadFabric g partner => Sys2Proof.Machine.execLoadFabric g partner s
  | .loadFabricRegion g partner => Sys2Proof.Machine.execLoadFabricRegion g partner s
  | .fabricStatus g => Sys2Proof.Machine.execFabricStatus g s
  | .pairConfigure g fit => Sys2Proof.Machine.execPairConfigure g fit s
  | .pairStatus g => Sys2Proof.Machine.execPairStatus g s
  | .pairPromote g => Sys2Proof.Machine.execPairPromote g s
  | .pairRejoin g fit => Sys2Proof.Machine.execPairRejoin g fit s
  | .fwStage g signed flashOk => Sys2Proof.Machine.execFwStage g signed flashOk s
  | .fwActivate g => Sys2Proof.Machine.execFwActivate g s
  | .attestReport g => Sys2Proof.Machine.execAttestReport g s
  | .getCertificates g => Sys2Proof.Machine.execGetCertificates g s
  | .settingsRead g => Sys2Proof.Machine.execSettingsRead g s
  | .settingsWrite g flashOk => Sys2Proof.Machine.execSettingsWrite g flashOk s
  | .telemetryRead g => Sys2Proof.Machine.execTelemetryRead g s
  | .eventLogRead g => Sys2Proof.Machine.execEventLogRead g s
  | .retireUnit g => Sys2Proof.Machine.execRetireUnit g s
  | .restoreUnit g t => Sys2Proof.Machine.execRestoreUnit g t s
  | .runSelfTest g t => Sys2Proof.Machine.execRunSelfTest g t s
  | .regRead g => Sys2Proof.Machine.execRegRead g s
  | .regWrite g => Sys2Proof.Machine.execRegWrite g s
  | .commandCompletion mb => Sys2Proof.Machine.execCommandCompletion mb s
  | .claimRead mb => Sys2Proof.Machine.execClaimRead mb s
  | .claimRelease mb tag => Sys2Proof.Machine.execClaimRelease mb tag s
  | .claimLapse mb => Sys2Proof.Machine.execClaimLapse mb s
  | .ringConsumerWrite mb v => Sys2Proof.Machine.execRingConsumerWrite mb v s
  | .leaseExpiry sess => Sys2Proof.Machine.execLeaseExpiry sess s
  | .healthRecordRewrite => Sys2Proof.Machine.execHealthRecordRewrite s
  | .tickDue => Sys2Proof.Machine.execTickDue s
  | .regionDone r busy => Sys2Proof.Machine.execRegionDone r busy s
  | .tickBoundary late b => Sys2Proof.Machine.execTickBoundary late b s
  | .identityCopyComplete late => Sys2Proof.Machine.execIdentityCopyComplete late s
  | .changeoverEnd r => Sys2Proof.Machine.execChangeoverEnd r s
  | .tickWarning r => Sys2Proof.Machine.execTickWarning r s
  | .heartbeatToggle => Sys2Proof.Machine.execHeartbeatToggle s
  | .hang r slot => Sys2Proof.Machine.execHang r slot s
  | .stepStart sess => Sys2Proof.Machine.execStepStart sess s
  | .stepComplete sess => Sys2Proof.Machine.execStepComplete sess s
  | .completionRecordWrite sess => Sys2Proof.Machine.execCompletionRecordWrite sess s
  | .passStart slot => Sys2Proof.Machine.execPassStart slot s
  | .arrayResume slot => Sys2Proof.Machine.execArrayResume slot s
  | .passCommit slot => Sys2Proof.Machine.execPassCommit slot s
  | .thermalTrip die temp => Sys2Proof.Machine.execThermalTrip die temp s
  | .thermalTripRelease => Sys2Proof.Machine.execThermalTripRelease s
  | .tileUncorrectableError slot => Sys2Proof.Machine.execTileUncorrectableError slot s
  | .clusterBufferUncorrectable c => Sys2Proof.Machine.execClusterBufferUncorrectable c s
  | .controllerFreeze ctl addr cmd reader => Sys2Proof.Machine.execControllerFreeze ctl addr cmd reader s
  | .watchdogExpiry core => Sys2Proof.Machine.execWatchdogExpiry core s
  | .referenceLoss xtal ref => Sys2Proof.Machine.execReferenceLoss xtal ref s
  | .clockHoldExit => Sys2Proof.Machine.execClockHoldExit s
  | .referenceQualification ok ppm late => Sys2Proof.Machine.execReferenceQualification ok ppm late s
  | .contextSwitch slot => Sys2Proof.Machine.execContextSwitch slot s
  | .eventTaken slot => Sys2Proof.Machine.execEventTaken slot s
  | .nop b f => Sys2Proof.Machine.execNop b f s
  | .jmp b f => Sys2Proof.Machine.execJmp b f s
  | .call b f => Sys2Proof.Machine.execCall b f s
  | .jmpr b f => Sys2Proof.Machine.execJmpr b f s
  | .branch b f => Sys2Proof.Machine.execBranch b f s
  | .repeatN b f => Sys2Proof.Machine.execRepeatN b f s
  | .repeatA b f => Sys2Proof.Machine.execRepeatA b f s
  | .doLoop b f => Sys2Proof.Machine.execDoLoop b f s
  | .doLoopA b f => Sys2Proof.Machine.execDoLoopA b f s
  | .exitLoop b f => Sys2Proof.Machine.execExitLoop b f s
  | .passOp b f => Sys2Proof.Machine.execPassOp b f s
  | .waitp b f => Sys2Proof.Machine.execWaitp b f s
  | .yield b f => Sys2Proof.Machine.execYield b f s
  | .endTask b f => Sys2Proof.Machine.execEndTask b f s
  | .rte b f => Sys2Proof.Machine.execRte b f s
  | .setal b f => Sys2Proof.Machine.execSetal b f s
  | .setah b f => Sys2Proof.Machine.execSetah b f s
  | .inca b f => Sys2Proof.Machine.execInca b f s
  | .movr b f => Sys2Proof.Machine.execMovr b f s
  | .ldcr b f => Sys2Proof.Machine.execLdcr b f s
  | .stcr b f => Sys2Proof.Machine.execStcr b f s
  | .bxclr b f => Sys2Proof.Machine.execBxclr b f s
  | .setsat b f => Sys2Proof.Machine.execSetsat b f s
  | .vexpa b f => Sys2Proof.Machine.execVexpa b f s
  | .vnop b f => Sys2Proof.Machine.execVnop b f s
  | .prd b f => Sys2Proof.Machine.execPrd b f s
  | .pra b f => Sys2Proof.Machine.execPra b f s
  | .prs b f => Sys2Proof.Machine.execPrs b f s
  | .acld b f => Sys2Proof.Machine.execAcld b f s
  | .acad b f => Sys2Proof.Machine.execAcad b f s
  | .acsb b f => Sys2Proof.Machine.execAcsb b f s
  | .acsh b f => Sys2Proof.Machine.execAcsh b f s
  | .acrd b f => Sys2Proof.Machine.execAcrd b f s
  | .expo b f => Sys2Proof.Machine.execExpo b f s
  | .norm b f => Sys2Proof.Machine.execNorm b f s
  | .vadd b f => Sys2Proof.Machine.execVadd b f s
  | .vsub b f => Sys2Proof.Machine.execVsub b f s
  | .vneg b f => Sys2Proof.Machine.execVneg b f s
  | .vasr b f => Sys2Proof.Machine.execVasr b f s
  | .vmov b f => Sys2Proof.Machine.execVmov b f s
  | .crd b f => Sys2Proof.Machine.execCrd b f s
  | .bfc b f => Sys2Proof.Machine.execBfc b f s
  | .flt b f => Sys2Proof.Machine.execFlt b f s
  | .cst b f => Sys2Proof.Machine.execCst b f s
  | .loadX b f => Sys2Proof.Machine.execLoadX b f s
  | .storeX b f => Sys2Proof.Machine.execStoreX b f s
  | .loadOperandStore b f => Sys2Proof.Machine.execLoadOperandStore b f s
  | .loadY b f => Sys2Proof.Machine.execLoadY b f s
  | .storeY b f => Sys2Proof.Machine.execStoreY b f s
  | .storeOperandStore b f => Sys2Proof.Machine.execStoreOperandStore b f s
  | .sheepdogGrant r cyclesLeft => Sys2Proof.Machine.execSheepdogGrant r cyclesLeft s
  | .burstDelivery r k => Sys2Proof.Machine.execBurstDelivery r k s
  | .ringComplete r k => Sys2Proof.Machine.execRingComplete r k s
  | .stallWatchdog r reached => Sys2Proof.Machine.execStallWatchdog r reached s
  | .refresh unit => Sys2Proof.Machine.execRefresh unit s
  | .selfRefreshExitComplete lp => Sys2Proof.Machine.execSelfRefreshExitComplete lp s
  | .selfRefreshReentry lp => Sys2Proof.Machine.execSelfRefreshReentry lp s
  | .hostMemRead hpa len => Sys2Proof.Machine.execHostMemRead hpa len s
  | .hostMemWrite hpa data => Sys2Proof.Machine.execHostMemWrite hpa data s
  | .pseudoChannelRetirement stack pc addr => Sys2Proof.Machine.execPseudoChannelRetirement stack pc addr s
  | .retirePageCopy stack pc => Sys2Proof.Machine.execRetirePageCopy stack pc s
  | .segmentVerify slot => Sys2Proof.Machine.execSegmentVerify slot s
  | .recordDispatch slot intact => Sys2Proof.Machine.execRecordDispatch slot intact s
  | .startupAction r => Sys2Proof.Machine.execStartupAction r s
  | .startupTimeout r => Sys2Proof.Machine.execStartupTimeout r s
  | .clearComplete r => Sys2Proof.Machine.execClearComplete r s
  | .treeLoad r t sel div => Sys2Proof.Machine.execTreeLoad r t sel div s
  | .dlyLoad r pin tap => Sys2Proof.Machine.execDlyLoad r pin tap s
  | .rxCred r p => Sys2Proof.Machine.execRxCred r p s
  | .txValid r p beat => Sys2Proof.Machine.execTxValid r p beat s
  | .cpReq r c fab addr => Sys2Proof.Machine.execCpReq r c fab addr s
  | .pllLockLoss r k => Sys2Proof.Machine.execPllLockLoss r k s
  | .muxForcedSwitch domain unit => Sys2Proof.Machine.execMuxForcedSwitch domain unit s
  | .txCoefLoad lane pre post => Sys2Proof.Machine.execTxCoefLoad lane pre post s
  | .rxSlip lane => Sys2Proof.Machine.execRxSlip lane s
  | .txIdle lane idle => Sys2Proof.Machine.execTxIdle lane idle s
  | .rxLockLoss lane => Sys2Proof.Machine.execRxLockLoss lane s
  | .straitLaneTraining lane ok found => Sys2Proof.Machine.execStraitLaneTraining lane ok found s
  | .equalisationRequest lane q => Sys2Proof.Machine.execEqualisationRequest lane q s
  | .straitFrame seq kind body intact => Sys2Proof.Machine.execStraitFrame seq kind body intact s
  | .laneRemoval lane codewords => Sys2Proof.Machine.execLaneRemoval lane codewords s
  | .linkTraining rate width => Sys2Proof.Machine.execLinkTraining rate width s
  | .linkDown => Sys2Proof.Machine.execLinkDown s
  | .perst => Sys2Proof.Machine.execPerst s
  | .hdmDecoderCommit dec base size ways => Sys2Proof.Machine.execHdmDecoderCommit dec base size ways s
  | .ideFailure k => Sys2Proof.Machine.execIdeFailure k s
  | .getVersion => Sys2Proof.Machine.execGetVersion s
  | .getCapabilities => Sys2Proof.Machine.execGetCapabilities s
  | .negotiateAlgorithms supported => Sys2Proof.Machine.execNegotiateAlgorithms supported s
  | .getDigests => Sys2Proof.Machine.execGetDigests s
  | .getCertificate slot off len => Sys2Proof.Machine.execGetCertificate slot off len s
  | .challenge slot transcript => Sys2Proof.Machine.execChallenge slot transcript s
  | .getMeasurements index transcript => Sys2Proof.Machine.execGetMeasurements index transcript s
  | .keyExchange transcript => Sys2Proof.Machine.execKeyExchange transcript s
  | .finish sid ok => Sys2Proof.Machine.execFinish sid ok s
  | .keyUpdate sid => Sys2Proof.Machine.execKeyUpdate sid s
  | .endSession sid => Sys2Proof.Machine.execEndSession sid s
  | .pairMessage m => Sys2Proof.Machine.execPairMessage m s
  | .forwardedInput k => Sys2Proof.Machine.execForwardedInput k s
  | .orderMatchTimeout mb go => Sys2Proof.Machine.execOrderMatchTimeout mb go s
  | .partnerJudgement edge message => Sys2Proof.Machine.execPartnerJudgement edge message s
  | .leaveNotice => Sys2Proof.Machine.execLeaveNotice s
  | .rejoinPhase lost => Sys2Proof.Machine.execRejoinPhase lost s
  | .checkpoint sess => Sys2Proof.Machine.execCheckpoint sess s
  | .pwrGoodRise strap board => Sys2Proof.Machine.execPwrGoodRise strap board s
  | .pwrGoodFall => Sys2Proof.Machine.execPwrGoodFall s
  | .railUndervoltage rail => Sys2Proof.Machine.execRailUndervoltage rail s
  | .bootFirmware e => Sys2Proof.Machine.execBootFirmware e s
  | .stage1 e => Sys2Proof.Machine.execStage1 e s
  | .stage2 e => Sys2Proof.Machine.execStage2 e s
  | .readHealth => Sys2Proof.Machine.execReadHealth s
  | .readStatus => Sys2Proof.Machine.execReadStatus s
  | .park data pec => Sys2Proof.Machine.execPark data pec s
  | .unpark data pec => Sys2Proof.Machine.execUnpark data pec s
  | .smbReset data pec => Sys2Proof.Machine.execSmbReset data pec s
  | .settingsStage off data pec => Sys2Proof.Machine.execSettingsStage off data pec s
  | .settingsCommit data pec flashOk => Sys2Proof.Machine.execSettingsCommit data pec flashOk s
  | .rbPubkey key => Sys2Proof.Machine.execRbPubkey key s
  | .rbRead a => Sys2Proof.Machine.execRbRead a s
  | .rbAdvance a => Sys2Proof.Machine.execRbAdvance a s
  | .sealWriteSlot flashOk => Sys2Proof.Machine.execSealWriteSlot flashOk s
  | .sealEraseSlot flashOk => Sys2Proof.Machine.execSealEraseSlot flashOk s
  | .sealRemoveEnrolment flashOk => Sys2Proof.Machine.execSealRemoveEnrolment flashOk s
  | .boundaryScanInstruction k => Sys2Proof.Machine.execBoundaryScanInstruction k s
  | .powerSample p => Sys2Proof.Machine.execPowerSample p s
  | .stepReady r => Sys2Proof.Machine.execStepReady r s
  | .stepApply r => Sys2Proof.Machine.execStepApply r s
  | .tickCtrlWrite w => Sys2Proof.Machine.execTickCtrlWrite w s
  | .flagSelectWrite w => Sys2Proof.Machine.execFlagSelectWrite w s
  | .clockGateWrite isle n w => Sys2Proof.Machine.execClockGateWrite isle n w s
  | .latchingLowWordRead span => Sys2Proof.Machine.execLatchingLowWordRead span s
  | .registerWrite addr data hwSet => Sys2Proof.Machine.execRegisterWrite addr data hwSet s
  | .rxLockAcquired lane => Sys2Proof.Machine.execRxLockAcquired lane s
  | .rxIdleChange lane idle => Sys2Proof.Machine.execRxIdleChange lane idle s
  | .pllLock r k => Sys2Proof.Machine.execPllLock r k s
  | .goWriteIgnored mb v => Sys2Proof.Machine.execGoWriteIgnored mb v s
  | .undefinedOpcode g opcode => Sys2Proof.Machine.execUndefinedOpcode g opcode s
  | .linkRecovery fromL1 replays => Sys2Proof.Machine.execLinkRecovery fromL1 replays s
  | .l1Entry => Sys2Proof.Machine.execL1Entry s
  | .dStateChange d3 => Sys2Proof.Machine.execDStateChange d3 s
  | .cpAck r c => Sys2Proof.Machine.execCpAck r c s
  | .delayLineMove r pin => Sys2Proof.Machine.execDelayLineMove r pin s
  | .muxSwitchComplete domain unit => Sys2Proof.Machine.execMuxSwitchComplete domain unit s
  | .ingressDrain => Sys2Proof.Machine.execIngressDrain s
  | .columnResultDelivery slot => Sys2Proof.Machine.execColumnResultDelivery slot s
  | .eventPendingClear mb w hwSet => Sys2Proof.Machine.execEventPendingClear mb w hwSet s
  | .ideKmRequest sid k => Sys2Proof.Machine.execIdeKmRequest sid k s
  | .dieLinkFailure die => Sys2Proof.Machine.execDieLinkFailure die s
  | .regionUnitFailure r => Sys2Proof.Machine.execRegionUnitFailure r s
  | .isleMeshOrBridgeFault isle => Sys2Proof.Machine.execIsleMeshOrBridgeFault isle s
  | .tickSourceFault => Sys2Proof.Machine.execTickSourceFault s

end Sys2Proof.Machine
end

