-- ==== Sys2Proof/Safety.lean ====
section
/-! DEFINITION. The words in which the claims are stated: what a command leaves alone, when a go write is executed as a
command, and what an answered mailbox shows. -/

namespace Sys2Proof.Machine

/-- The outcome is a next state of which `p` holds. -/
def Answers (o : Host.Outcome State Fault Refusal) (p : State → Prop) : Prop := ∃ t, o = .next t ∧ p t

/-- The go write is accepted on a served mailbox (R278, R280), and the part has not left pair service (R344) nor is in
shadow service of a pair (R329), so that Icura executes the command at once. -/
def State.taken (s : State) (g : Go) : Prop :=
  g.wf = true ∧ s.accepts g.mb g.go.toNat = true ∧ s.pair.left = false ∧ s.pair.shadow = false

/-- No check of R285 fails and an input payload can be read (R275), in the state in which the go write has been
accepted: the command's own meaning runs. A fabric load takes what an error leaves of its stream (R266). -/
def State.passes (s : State) (c : Cmd) (g : Go) : Prop :=
  s.taken g ∧ (s.accept c.opcode g).preCheck c g = none ∧
    (c.pay = 1 → c.opcode ≠ 0x50 → c.opcode ≠ 0x51 → (s.accept c.opcode g).payFails g = false)

/-- The state in which a command's own meaning runs: its go write accepted (R281) and its input payload fetched (R275). -/
def State.received (s : State) (c : Cmd) (g : Go) : State :=
  if c.pay = 1 then (s.accept c.opcode g).fetchPayload g else s.accept c.opcode g

/-- A command answered at once with a code and the place of the fault (R284). -/
def State.fails (s : State) (opcode : Nat) (g : Go) (code : Nat) (detail : Nat := 0) : State :=
  s.postResult opcode g { code := code, detail := detail }

/-- A command answered at once with `OK` and response fields by offset (R284). -/
def State.succeeds (s : State) (opcode : Nat) (g : Go) (fields : List (Nat × List Byte)) (out : List Byte := []) : State :=
  s.postResult opcode g { fields := fields, out := out }

/-- A command that stays busy, waiting for `w` with the response fields it has so far (R298). -/
def State.staysBusy (s : State) (opcode : Nat) (g : Go) (w : WaitFor) (fields : List (Nat × List Byte) := []) : State :=
  s.setMb g.mb (fun m => { m with busy := some { opcode := opcode, go := g, wait := w, acc := { fields := fields } } })

/-- The mailbox shows its command completed with a code (R283), response and all, and carries no command. -/
def Shows (m : Mailbox) (opcode : Nat) (g : Go) (o : Outcome) : Prop :=
  m.busy = none ∧ m.state = (if o.code = 0 then 2 else 3) ∧ m.code = o.code ∧ m.statusSeq = g.go.toNat % 256 ∧
    m.resp = responseOf opcode g o ∧ m.pend.getLsbD 0 = true

/-- The tables of the state are in canonical form (keys strictly rising, no entry at its default), and so are the tables
of streams, ports, trees, delay lines and control ports inside them. -/
def State.canon (s : State) : Prop :=
  tabWf {} s.mbx = true ∧ tabWf {} s.regions = true ∧ tabWf {} s.tiles = true ∧ tabWf {} s.bufs = true ∧
    tabWf {} s.eng = true ∧ memWf s.mem = true ∧ tabWf {} s.ctl = true ∧ tabWf {} s.fab = true ∧
    tabWf {} s.ftx = true ∧ tabWf {} s.strait.lanes = true ∧ tabWf 0 s.flagCnt = true ∧
    tabWf (List.range 8) s.units.place = true ∧ tabWf 0 s.clk.gateRegion = true ∧ tabWf 0 s.clk.gateIsle = true ∧
    tabWf 0 s.clk.mux = true ∧ tabWf 0 s.clk.muxNext = true ∧ tabWf 0 s.tick.cdig = true ∧
    (∀ p ∈ s.eng, tabWf {} p.2.streams = true) ∧
    (∀ p ∈ s.fab, tabWf {} p.2.ports = true ∧ tabWf {} p.2.trees = true ∧ tabWf {} p.2.delays = true ∧
      tabWf none p.2.cps = true)

/-- The two states hold the same device memory and the same of every part that executes work or carries data: tiles,
cluster buffers, streams, fabric, lanes and clocks. -/
def SameWork (s t : State) : Prop :=
  t.mem = s.mem ∧ t.tiles = s.tiles ∧ t.bufs = s.bufs ∧ t.eng = s.eng ∧ t.regions = s.regions ∧ t.fab = s.fab ∧
    t.ftx = s.ftx ∧ t.tick = s.tick ∧ t.units = s.units ∧ t.clk = s.clk ∧ t.flash = s.flash

end Sys2Proof.Machine
end

