-- ==== Sys2Proof/Certificates/Slice0/Obligations.lean ====
section
/-! DEFINITION. The claims. Each name says what is claimed; the rule numbers are those of the manual. -/

open Sys2Proof Sys2Proof.Machine

/-- STEP. A step with a command at the front of the queue is that command's `exec` on the state with the queue's rest. -/
def Obligations.StepRunsTheFrontCommand : Prop :=
  ∀ (s : State) (c : Instr) (rest : List Instr), s.pending = c :: rest →
    step s = exec c { s with pending := rest }

/-- The model's own choice (log entry 3): with no command waiting, the block idles. -/
def Obligations.EmptyQueueIdles : Prop :=
  ∀ s : State, s.pending = [] → step s = .next s

/-- The queue is first in, first out: whatever the command at its front does, a step takes that command and no other, and
adds none. -/
def Obligations.StepTakesOnlyTheFront : Prop :=
  ∀ (s t : State) (c : Instr) (rest : List Instr), s.pending = c :: rest → step s = .next t → t.pending = rest

/-- Every step keeps device memory and every table of the state in canonical form: keys strictly rising, and no entry
that equals what an unlisted key reads as (for memory, 0: log entry 5). -/
def Obligations.TablesStayCanonical : Prop :=
  ∀ s t : State, s.canon → step s = .next t → t.canon

/-- The canonical form holds at reset, where memory lists nothing and no command waits. -/
def Obligations.ResetIsCanonical : Prop :=
  State.reset.canon ∧ State.reset.mem = [] ∧ State.reset.pending = []

/-- No command of the manual stops the block: each one answers a next state, in every state and with every operand. -/
def Obligations.EveryCommandAnswers : Prop :=
  ∀ (c : Instr) (s : State), ∃ t, exec c s = .next t

/-- The reset column of every register section (02, 06, 07, 09 to 16): what each register reads before power is good. -/
def Obligations.RegistersAtReset : Prop :=
  let v := State.reset.regValue
  v .devStatus = 0 ∧ v .flagSel = 0 ∧ v .flagCount = 0 ∧ v .tickCtrl = 0x20100020 ∧ v .tickStatus = 0 ∧ v .tickLo = 0 ∧
  v .tickHi = 0 ∧ v .digLo = 0 ∧ v .digHi = 0 ∧ v .digTickLo = 0 ∧ v .digTickHi = 0 ∧ v .clkStatus = 0 ∧ v .clkQual = 0 ∧
  (∀ r, v (.gateRegion r) = 0) ∧ v (.gateIsle 0) = 0x01000000 ∧ (∀ i, i ≠ 0 → v (.gateIsle i) = 0) ∧
  v .pwrCtrl = 0x640 ∧ v .pwrStatus = 0 ∧ v .railStatus = 0 ∧ (∀ r, v (.pwrRegion r) = 0) ∧
  (∀ r, v (.strmPool r) = 0x40000000) ∧ (∀ r, v (.strmLate r) = 0) ∧ (∀ r n, v (.strmStatus r n) = 0) ∧
  (∀ r n, v (.strmErr r n) = 0) ∧ (∀ r n, v (.strmPos r n) = 0) ∧ (∀ r n, v (.strmTte r n) = 0xFFFF) ∧
  (∀ i, v (.arrStatus i) = 0) ∧ (∀ i, v (.arrOvf i) = 0) ∧ (∀ i, v (.seqStatus i) = 0) ∧ (∀ i, v (.seqErr i) = 0) ∧
  (∀ n, v (.memStatus n) = 0) ∧ (∀ n, v (.memCe n) = 0) ∧ (∀ n, v (.ueLo n) = 0) ∧
  (∀ n, v (.ueHi n) = 0) ∧ (∀ n, v (.memRetired n) = 0) ∧ v .rtCtrl = 0xC ∧ v .rtStatus = 0 ∧ v .eccCtrl = 0x04000000 ∧
  v .memPkg = 0 ∧ (∀ r, v (.fabStatus r) = 0x40000000) ∧ (∀ r t, v (.fabTree r t) = 0xF) ∧
  (∀ r p, v (.portStatus r p) = 0) ∧ (∀ r p, v (.portErr r p) = 0) ∧ (∀ r, v (.cpErr r) = 0) ∧
  (∀ r, v (.fabImgLo r) = 0) ∧ (∀ r, v (.fabImgHi r) = 0) ∧ (∀ r, v (.fabStartup r) = 0) ∧ v .cfg = 0 ∧ v .cfgFail = 0 ∧
  (∀ i, v (.cfgChain i) = 0) ∧ v .cxlStatus = 0 ∧ v .cxlReplay = 0 ∧ v .strStatus = 0 ∧
  (∀ l, v (.strLane l) = 0x00046000) ∧ (∀ l, v (.ftxStatus l) = 0x60000000) ∧ (∀ l, v (.ftxRate l) = 0) ∧
  v .pairState = 0 ∧ v .cmpLo = 0 ∧ v .cmpHi = 0 ∧ v .pairCounts = 0 ∧ v .pairXfer = 0 ∧ v .secStatus = 0 ∧
  v .secRb = 0 ∧ v .sealCtrl = 0 ∧ (∀ k, v (.secSlot k) = 0) ∧ (∀ k, v (.sealBuf k) = 0) ∧ (∀ n, v (.mbStatus n) = 0) ∧
  (∀ n, v (.mbSession n) = 0) ∧ v .mbxWindow = 0

/-- FLAGS (R375, R376). When hardware sets flags of a register in one cycle, each of them reads 1 and the register's
other flags keep their values; the counter of each flag set goes up by 1 modulo 2^32, whether or not the flag was 1
already, and the counters of the register's other bits keep theirs. -/
def Obligations.HardwareSetsFlags : Prop :=
  ∀ (s : State) (g : Reg) (m : Word), s.canon →
    let set := m &&& g.flagMask
    (s.raise g m).flags g = s.flags g ||| set ∧
    ∀ i, i < 32 → (s.raise g m).flagCount g i =
      if set.getLsbD i then (s.flagCount g i + 1) % 2 ^ 32 else s.flagCount g i

/-- FLAGS (R375, R376). Software clears the flags of the 1 bits it writes; where hardware sets a flag in the same cycle,
the set wins and is counted; clearing changes no counter. -/
def Obligations.SoftwareClearsFlags : Prop :=
  ∀ (s : State) (g : Reg) (w hw : Word), s.canon →
    let set := hw &&& g.flagMask
    (s.w1c g w hw).flags g = (s.flags g &&& ~~~ w) ||| set ∧
    ∀ i, i < 32 → (s.w1c g w hw).flagCount g i =
      if set.getLsbD i then (s.flagCount g i + 1) % 2 ^ 32 else s.flagCount g i

/-- READS OF REGISTERS AND OF THE MAILBOX WINDOW (R10 and the registers' own sections; R272, R273). Where a low word is read
through its block (power good, the block's clock enabled) and no word of it is latched, the read returns its value and
latches its companions; nothing else of the part changes. `DEV_TICK_LO`, `DEV_DIGEST_LO` (with its tick), `PAIR_CMP_LO`,
`MEM_UE_LO` and `FAB_IMG_LO` are the low words. A read of the window outside the inline payload that is not of 4 or 8 bytes
and aligned returns all-ones and changes nothing else; the inline payload is read at any size; a mailbox's status word is
read as it stands. Where the window lies among the addresses is the model's own (log entry 61). -/
def Obligations.LowWordReads : Prop :=
  (∀ (s : State) (addr : Nat) (g : Reg), regOf addr = some g → isLowWord g = true → s.dev.pwrGood = true →
    s.blockOn g = true →
    exec (.latchingLowWordRead ⟨addr, 4⟩) s = .next { s with
      out := { s.out with regRead := s.regValue g }
      latch := (latches g).foldl (fun t h => put none t (latchKey h) (some (s.regValue h))) s.latch }) ∧
  (∀ (s : State) (n off len : Nat), s.reachable = true → n < 256 → 0 < len → off + len ≤ 0x1000 →
    let gives := fun (b : List Byte) => exec (.latchingLowWordRead ⟨bar0 + 0x1000 * n + off, len⟩) s =
      .next { s with out := { s.out with readData := b, poisoned := false } }
    (0x200 ≤ off → off + len ≤ 0xF00 → gives (rdBytes (s.mb n).inl (off - 0x200) len)) ∧
    (¬ (0x200 ≤ off ∧ off + len ≤ 0xF00) → ¬ ((len = 4 ∨ len = 8) ∧ off % len = 0) → gives (List.replicate len 0xFF)) ∧
    (off = 0xF00 → len = 4 → gives (leBytes 4 (s.statusWord n).toNat)))

/-- REGISTER WRITES (R11, R28, R375, R377, R382). Through a block whose clock is enabled, with power good:
`DEV_TICK_CTRL` takes its fields, the period only from 8 to 256, and is refused whole while an image is loaded and the
period would change; `DEV_FLAG_SEL` takes every bit but its read-only bit 5; a clock-gate word takes the bits that exist
and the event log has the write; a word of `W1C` flags has the written ones cleared. -/
def Obligations.RegisterWrites : Prop :=
  (∀ (s : State) (w : Word), s.dev.pwrGood = true → (s.gateIsle 0).getLsbD 26 = true →
    let p := bitsOf w.toNat 8 0
    exec (.tickCtrlWrite w) s = .next (
      if 8 ≤ p ∧ p ≤ 256 ∧ p ≠ s.tick.period ∧ s.imageLoaded = true then s
      else { s with tick := { s.tick with
        warnLead := bitsOf w.toNat 31 24, ovrThresh := bitsOf w.toNat 23 16,
        period := if 8 ≤ p ∧ p ≤ 256 then p else s.tick.period } })) ∧
  (∀ (s : State) (w : Word), s.dev.pwrGood = true →
    exec (.flagSelectWrite w) s = .next { s with dev := { s.dev with flagSel := w &&& 0xFFFFFFDF } }) ∧
  (∀ (s : State) (r : Nat) (w : Word), s.dev.pwrGood = true → r < 64 →
    Answers (exec (.clockGateWrite false r w) s) fun t => t = { s with
      clk := { s.clk with gateRegion := put 0 s.clk.gateRegion r (w &&& 0x1EF) }, log := t.log }) ∧
  (∀ (s : State) (i : Nat) (w : Word), s.dev.pwrGood = true → i < 4 →
    let v : Word := w &&& (if i = 0 then 0x070FFFFF else if i = 1 then 0x010FFFFF else 0x000FFFFF)
    Answers (exec (.clockGateWrite true i w) s) fun t => t = { s with
      clk := { s.clk with gateIsle := put 0 s.clk.gateIsle i v }, log := t.log }) ∧
  (∀ (s : State) (addr : Nat) (g : Reg) (w hw : Word), regOf addr = some g → s.dev.pwrGood = true →
    s.blockOn g = true → g.flagMask ≠ 0 →
    exec (.registerWrite addr (leBytes 4 w.toNat) hw) s = .next (s.w1c g w hw))

/-- CLAIMS (R276, R277, R278, R296). A read of the claim word of an unclaimed mailbox from 1 to 255 claims it:
the count goes up by 1 modulo 2^24, passing over the count that would make the tag all-ones, the read returns count x 256
plus the mailbox, and the mailbox's status, mask, pending bits, last sequence number and binding are cleared. A read of a
claimed mailbox, of mailbox 0, or before mailboxes open returns all-ones and changes nothing else; of two reads at once
one gets the tag. The
owner tag written to the claim word of a mailbox that is claimed, bound to no session and without a command releases it;
any other value is ignored. A claim on which no `OPEN_SESSION` was accepted lapses. A released mailbox keeps its count. -/
def Obligations.Claims : Prop :=
  (∀ (s : State) (n : Nat), s.reachable = true → s.serving = true → 1 ≤ n → n < 256 → (s.mb n).claimed = false →
    let c := ((s.mb n).claims + 1) % 2 ^ 24
    let c := if n = 255 ∧ c = 2 ^ 24 - 1 then 0 else c
    exec (.claimRead n) s = .next { s.setMb n (fun m => { m with
        claims := c, claimed := true, tag := 256 * c + n, sess := 0, seq := 0, state := 0, code := 0, statusSeq := 0,
        mask := 0, pend := 0, opened := false, goIgnored := 0 }) with
      out := { s.out with claimTag := 256 * c + n } }) ∧
  (∀ (s : State) (n : Nat) (rest : List Instr), s.canon → s.reachable = true → s.serving = true → 1 ≤ n → n < 256 →
    (s.mb n).claimed = false → s.pending = .claimRead n :: .claimRead n :: rest →
    ∃ t u, step s = .next t ∧ t.out.claimTag % 256 = n ∧ t.out.claimTag ≠ 0xFFFFFFFF ∧
      step t = .next u ∧ u.out.claimTag = 0xFFFFFFFF) ∧
  (∀ (s : State) (n : Nat), s.reachable = true → (s.serving = false ∨ n = 0 ∨ (s.mb n).claimed = true) →
    exec (.claimRead n) s = .next { s with out := { s.out with claimTag := 0xFFFFFFFF } }) ∧
  (∀ (s : State) (n : Nat) (tag : Word), s.reachable = true → s.serving = true → (s.mb n).claimed = true →
    (s.mb n).sess = 0 → (s.mb n).busy = none →
    exec (.claimRelease n tag) s = .next (if (s.mb n).tag = tag.toNat then
      s.setMb n (fun m => { m with claimed := false, tag := 0, sess := 0, opened := false, goIgnored := 0 }) else s)) ∧
  (∀ (s : State) (n : Nat) (tag : Word), (s.mb n).sess ≠ 0 ∨ (s.mb n).busy ≠ none →
    exec (.claimRelease n tag) s = .next s) ∧
  (∀ (s : State) (n : Nat), (s.mb n).claimed = true → (s.mb n).sess = 0 → (s.mb n).busy = none →
    exec (.claimLapse n) s = .next (if (s.mb n).opened = true then s else
      s.setMb n (fun m => { m with claimed := false, tag := 0, sess := 0, opened := false, goIgnored := 0 })))

/-- THE CONSUMER INDEX (R294). A write of v to the consumer index of a bound mailbox is accepted exactly when v lies from
the index in force up to the producer index, all modulo 2^32; any other write leaves the index and sets `RING_BAD`. -/
def Obligations.ConsumerIndex : Prop :=
  ∀ (s : State) (n : Nat) (v : Word) (x : Sess), s.reachable = true → s.serving = true →
    s.session (s.mb n).sess = some x →
    exec (.ringConsumerWrite n v) s = .next (
      if (x.ring.prod + 2 ^ 32 - v.toNat) % 2 ^ 32 ≤ (x.ring.prod + 2 ^ 32 - x.ring.cons) % 2 ^ 32 then
        s.setSess x.id (fun y => { y with ring := { y.ring with cons := v.toNat } })
      else s.raise (.mbStatus n) 0x08000000)

/-- EVENT BITS, THE HEALTH RECORD AND LEASES (R272, R273, R289, R295, R296). The mask word of a mailbox takes bits 0 to 3 of a
host's write in the window (which lies where log entry 61 says). The pending word of a mailbox is cleared as any flag is,
and each bit that hardware sets in the same cycle raises the mailbox's vector if it is enabled. A rewrite of the health
record adds 2 to its update count and writes the record; mailbox 0's event bit 3 is set exactly when the stage, the flags
or the role have changed. A session with a lease that runs out begins to close. -/
def Obligations.MailboxEvents : Prop :=
  (∀ (s : State) (n : Nat) (w hw : Word), s.reachable = true → n < 256 →
    exec (.registerWrite (bar0 + 0x1000 * n + 0xF04) (leBytes 4 w.toNat) hw) s =
      .next (s.setMb n (fun m => { m with mask := w &&& 0xF }))) ∧
  (∀ (s : State) (n : Nat) (w hw : Word), s.reachable = true → n < 256 →
    let m := hw &&& (if n = 0 then 8 else 7)
    let raised := (List.range 4).filter (fun b => (m &&& (s.mb n).mask).getLsbD b)
    exec (.eventPendingClear n w hw) s =
      .next (raised.foldl (fun (t : State) _ => t.raiseVector n) (s.w1c (.evPend n) w m))) ∧
  (∀ s : State, s.dev.pwrGood = true → s.dev.uvHold = false →
    let u := (s.health.update + 2) % 2 ^ 64
    let h := { s with health := { update := u, record := s.healthBytes u } }
    exec .healthRecordRewrite s = .next (
      if (s.healthBytes u).take 3 = (fit 256 s.health.record).take 3 then h else h.setEvent 0 3)) ∧
  (∀ (s : State) (id : Nat) (x : Sess), s.session id = some x → x.lease ≠ 0 → x.closing = false →
    Answers (exec (.leaseExpiry id) s) (fun t => ∃ y, t.session id = some y ∧ y.closing = true ∧ y.grant = 0))

/-- GO WRITES (R280, R281, R285, R296). A go write that may not start a command, as any on mailbox 0, is ignored:
`GO_IGNORED` is set and counted in the mailbox, and nothing else changes. A go write whose opcode is not listed is accepted
and completes with `E_BAD_OPCODE` (1), no access of an earlier command of its mailbox being held (R198). -/
def Obligations.GoWrites : Prop :=
  (∀ (s : State) (n : Nat) (v : Word), s.reachable = true → n < 256 →
    (n = 0 ∨ s.serving = false ∨ (s.mb n).claimed = false ∨ (s.mb n).busy ≠ none ∨
      v.toNat ≠ (if (s.mb n).seq + 1 = 2 ^ 32 then 1 else (s.mb n).seq + 1)) →
    exec (.goWriteIgnored n v) s = .next ((s.raise (.mbStatus n) 0x10000000).setMb n
      (fun m => { m with goIgnored := m.goIgnored + 1 }))) ∧
  (∀ (s : State) (g : Go) (op : BitVec 16), s.taken g → s.mbHeld g.mb = false → opcodes.contains op.toNat = false →
    Answers (exec (.undefinedOpcode g op) s) (fun t =>
      Shows (t.mb g.mb) op.toNat g { code := 1 } ∧ SameWork s t ∧ t.sess = s.sess ∧ t.dev = s.dev ∧
        ∀ k, k ≠ g.mb → t.mb k = s.mb k))

/-- THE CHECKS BEFORE A COMMAND (R275, R285, R344). A command of any class whose go write is taken and that fails one
of the checks common to all commands completes with that check's code, and changes nothing but its own mailbox, the flags
and the vectors of its event; no access of an earlier command of its mailbox is held (R198). A part that has left pair service answers a mailbox bound to no session with
`E_PAIR_STATE` (0xD), but for a privileged open. -/
def Obligations.FailedChecksChangeNothing : Prop :=
  (∀ (s : State) (c : Cmd) (g : Go) (own : State → Option Fail × State) (core : State → Reply × State) (f : Fail),
    s.taken g → s.mbHeld g.mb = false → (s.accept c.opcode g).preCheck c g = some f →
    Answers (icura c g own core s) (fun t =>
      Shows (t.mb g.mb) c.opcode g { code := f.code, detail := f.detail, shortfall := f.short } ∧
      SameWork s t ∧ t.sess = s.sess ∧ t.pair = s.pair ∧ t.dev = s.dev ∧ ∀ k, k ≠ g.mb → t.mb k = s.mb k)) ∧
  (∀ (s : State) (c : Cmd) (g : Go) (own : State → Option Fail × State) (core : State → Reply × State),
    g.wf = true → s.accepts g.mb g.go.toNat = true → s.pair.left = true → (s.mb g.mb).sess = 0 →
    (c.opcode ≠ 0x10 ∨ bitAt (par g 0x20 4) 1 = false) →
    icura c g own core s = .next ((s.accept c.opcode g).fails c.opcode g 0xD))

/-- COMPLETION (R198, R282, R283, R284). `COMMAND_COMPLETION` posts the answer of a command whose work is done and none of
whose accesses is held: the output, unless it is out already, then the response, the status word and event bit 0 of its
mailbox; one without output shows exactly its answer and leaves all work alone. After the answer of a close its session is
gone; after that of a firmware activation the part restarts with the other firmware slot active. -/
def Obligations.CommandCompletion : Prop :=
  (∀ (s : State) (n : Nat) (b : BusyCmd), (s.mb n).busy = some b → s.mbHeld n = false → b.done = true →
    (∀ id, b.wait ≠ .close id) → b.wait ≠ .restart →
    exec (.commandCompletion n) s = .next (
      if b.placed = true then s.postStatus b.opcode b.go b.acc else s.postResult b.opcode b.go b.acc)) ∧
  (∀ (s : State) (n : Nat) (b : BusyCmd), (s.mb n).busy = some b → s.mbHeld n = false → b.done = true →
    (∀ id, b.wait ≠ .close id) → b.wait ≠ .restart → b.go.mb = n → b.acc.out = [] →
    Answers (exec (.commandCompletion n) s) (fun t => Shows (t.mb n) b.opcode b.go b.acc ∧ SameWork s t ∧
      t.sess = s.sess ∧ t.pair = s.pair ∧ t.dev = s.dev ∧ ∀ k, k ≠ n → t.mb k = s.mb k)) ∧
  (∀ (s : State) (n id : Nat) (b : BusyCmd), (s.mb n).busy = some b → s.mbHeld n = false → b.done = true →
    b.wait = .close id → Answers (exec (.commandCompletion n) s) (fun t => t.session id = none)) ∧
  (∀ (s : State) (n : Nat) (b : BusyCmd), (s.mb n).busy = some b → s.mbHeld n = false → b.wait = .restart →
    Answers (exec (.commandCompletion n) s) (fun t => t.flash.active = !s.flash.active))
/-- COMMANDS THAT REPORT (R299, R307, R309, R310, R312, R313). Each of these, once its checks have passed, answers `OK`
with the fields of its response table, or `E_PERMISSION` (4) where it names what its session may not. `QUERY_STEPS`
alone changes the session: its notices are cleared. Values the manual leaves open are free (log entry 7). -/
def Obligations.ReportingCommands : Prop :=
  (∀ (s : State) (g : Go), s.passes cmdInfo g →
    let u := s.accept 0x01 g
    exec (.deviceInfo g) s = .next (u.succeeds 0x01 g [
      (0x120, leBytes 2 1), (0x122, leBytes 2 0x3216), (0x124, leBytes 2 Config.stepping.toNat),
      (0x126, leBytes 2 u.dflags), (0x128, leBytes 4 u.fwVersion), (0x12C, leBytes 4 u.tickNs),
      (0x130, leBytes 2 u.units.capacity), (0x132, leBytes 2 (u.units.capacity / 8)), (0x134, leBytes 1 u.mpk.lpN),
      (0x135, leBytes 1 (if u.mpk.lpN = 0 then 0 else u.mpk.lpCap)), (0x136, leBytes 1 u.pair.mode),
      (0x137, leBytes 1 u.pair.role), (0x138, leBytes 2 u.freeMailboxes), (0x13A, leBytes 2 u.sess.length),
      (0x140, leBytes 8 (u.tierFree false u.occupied)),
      (0x148, leBytes 8 (if u.dev.stage < 2 then 0 else u.tierFree true u.occupied)),
      (0x150, fit 32 u.dev.nonce), (0x170, u.deviceId), (0x180, leBytes 8 (regionMap (fun r => (u.fabric r).configured))),
      (0x188, leBytes 8 (regionMap u.units.fenced))])) ∧
  (∀ (s : State) (g : Go), s.passes cmdHealth g →
    exec (.health g) s = .next ((s.accept 0x02 g).succeeds 0x02 g [(0x120, (fit 256 s.health.record).take 48)])) ∧
  (∀ (s : State) (g : Go) (x : Sess), s.passes cmdQuery g →
    let u := s.accept 0x42 g
    u.session (u.mb g.mb).sess = some x → x.running = none → x.image 0 = none →
    exec (.querySteps g) s = .next (({ u with free := u.free + 1 }.setSess (u.mb g.mb).sess
        (fun y => { y with notices := 0 })).succeeds 0x42 g [
      (0x120, leBytes 8 (2 ^ 64 - 1)), (0x128, leBytes 4 0), (0x12C, leBytes 4 x.queue.length),
      (0x130, leBytes 8 x.next), (0x138, leBytes 8 (x.lastDone.getD (Config.freeValue u.free))),
      (0x140, leBytes 4 x.notices), (0x144, leBytes 1 (Config.freeValue u.free)),
      (0x146, leBytes 2 (u.live x.regions).length)])) ∧
  (∀ (s : State) (g : Go) (x : Sess) (run : Run), s.passes cmdQuery g →
    let u := s.accept 0x42 g
    u.session (u.mb g.mb).sess = some x → x.running = some run → run.item.replay = none →
    exec (.querySteps g) s = .next (({ u with free := u.free + 1 }.setSess (u.mb g.mb).sess
        (fun y => { y with notices := 0 })).succeeds 0x42 g [
      (0x120, leBytes 8 run.item.counter), (0x128, leBytes 4 run.tick), (0x12C, leBytes 4 x.queue.length),
      (0x130, leBytes 8 x.next), (0x138, leBytes 8 (x.lastDone.getD (Config.freeValue u.free))),
      (0x140, leBytes 4 x.notices), (0x144, leBytes 1 (x.imageOf run).fold),
      (0x146, leBytes 2 (u.live x.regions).length)])) ∧
  (∀ (s : State) (g : Go), s.passes cmdFabStatus g →
    let u := s.accept 0x52 g
    let r := par g 0x20 1
    exec (.fabricStatus g) s = .next (
      if r < 64 ∧ ((u.region r).owner = 0 ∨ (u.region r).owner = (u.mb g.mb).sess) then u.succeeds 0x52 g [
        (0x120, leBytes 8 (regionMap (fun k => (u.fabric k).configured))),
        (0x128, leBytes 8 (regionMap (fun k => (u.fabric k).isolated))),
        (0x130, leBytes 8 (regionMap (fun k => (u.fabric k).loading))),
        (0x138, leBytes 8 (regionMap (fun k => (u.fabric k).startup.timedOut))),
        (0x140, leBytes 8 (u.fabric r).imageId), (0x148, leBytes 4 (u.regValue (.fabStartup r)).toNat),
        (0x14C, leBytes 4 (u.regValue .cfg).toNat)]
      else u.fails 0x52 g 4 (detailOf 5 0x20))) ∧
  (∀ (s : State) (g : Go) (x : Sess), s.passes cmdTelemetry g →
    let u := s.accept 0xA0 g
    let group := par g 0x20 2
    let i := par g 0x24 4
    u.session (u.mb g.mb).sess = some x →
    exec (.telemetryRead g) s = .next (
      if group < 1 ∨ 7 < group then u.fails 0xA0 g 4 (detailOf 5 0x20)
      else if x.mayRead group i = false then u.fails 0xA0 g 4 (detailOf 5 0x24)
      else { u with free := u.free + 1 }.succeeds 0xA0 g [] ((u.counters x group i (Config.freeValue u.free)).flatMap (leBytes 8)))) ∧
  (∀ (s : State) (g : Go) (x : Sess), s.passes cmdLogRead g →
    let u := s.accept 0xA1 g
    u.session (u.mb g.mb).sess = some x →
    let l := (u.log.entries.filter (fun e => decide (par g 0x20 8 ≤ e.seq) && x.mayGet e)).take
      (Nat.min (par g 0x28 4) (g.payLen.toNat / 64))
    exec (.eventLogRead g) s = .next ({ u with free := u.free + 1 }.succeeds 0xA1 g [
      (0x120, leBytes 8 (match l with | e :: _ => e.seq | [] => Config.freeValue u.free)), (0x128, leBytes 4 l.length),
      (0x130, leBytes 8 (u.log.base - par g 0x20 8))] (l.flatMap LogEntry.bytes))) ∧
  (∀ (s : State) (g : Go), s.passes cmdPairStatus g →
    let u := s.accept 0x61 g
    let v := Config.freeValue u.free
    exec (.pairStatus g) s = .next ({ u with free := u.free + 1 }.succeeds 0x61 g [
      (0x120, leBytes 1 u.pair.mode), (0x121, leBytes 1 u.pair.role), (0x122, leBytes 1 u.lanesUp),
      (0x124, leBytes 2 (if u.pair.formed = true then
        8 * ((List.range 64).map (look 4 u.pair.partnerLive)).foldl (· + ·) 0 else v)),
      (0x126, leBytes 2 (if u.pair.formed = true then u.commonCapacity else v / 65536)), (0x128, leBytes 8 u.pair.cmpTick), (0x130, leBytes 4 u.pair.reruns),
      (0x134, leBytes 4 (u.pair.bytesSent / 2 ^ 20))]))

/-- COMMANDS THAT READ THE BOARD'S MEMORY AND THE REGISTERS (R311, R315, R418, R419, R429). `SETTINGS_READ` returns the
asked bytes of the copy in use, copy A or copy B; `GET_CERTIFICATES` the chain from an offset (nothing from one beyond its
end: the model's choice, log entry 56), or `E_NOT_READY` (8) without a chain; `ATTEST_REPORT` the report and its signature, or `E_NOT_READY` without an identity; `REG_READ` the words
read up to the first that is refused, with `E_BUS_ERROR` (0xE) if one was. -/
def Obligations.ReadingCommands : Prop :=
  (∀ (s : State) (g : Go), s.passes cmdSettingsRead g →
    let u := s.accept 0x90 g
    let copy := par g 0x20 1
    let off := par g 0x24 4
    let len := par g 0x28 4
    exec (.settingsRead g) s = .next (
      if 2 < copy then u.fails 0x90 g 4 (detailOf 5 0x20)
      else if 8192 < off + len then u.fails 0x90 g 2 (detailOf 5 0x28)
      else
        let b := if copy = 0 then u.inUse else if copy = 1 then u.flash.setA else u.flash.setB
        u.succeeds 0x90 g [(0x120, leBytes 4 (fld b 8 4)), (0x124, leBytes 4 (b2n (copyValid u.flash.setA) +
          2 * b2n (copyValid u.flash.setB) + 4 * b2n (u.dev.setCopy == 2)))] (slice (fit 8192 b) off len))) ∧
  (∀ (s : State) (g : Go), s.passes cmdCertificates g →
    let u := s.accept 0x81 g
    exec (.getCertificates g) s = .next (
      if u.sec.certOk = true then
        u.succeeds 0x81 g [(0x120, leBytes 4 u.flash.chain.length)] (u.flash.chain.drop (par g 0x20 4))
      else u.fails 0x81 g 8)) ∧
  (∀ (s : State) (g : Go), s.passes cmdAttest g →
    let u := s.accept 0x80 g
    exec (.attestReport g) s = .next (match u.sec.idKey with
      | none => u.fails 0x80 g 8
      | some d => { u with free := u.free + 1 }.succeeds 0x80 g [] (u.report (raw g 0x20 32) ++
          ecdsaSign d (1 + Config.freeValue u.free % (p256N - 1)) (sha256 (u.report (raw g 0x20 32)))))) ∧
  (∀ (s : State) (g : Go), s.passes cmdRegRead g →
    let u := s.accept 0xC0 g
    let a := par g 0x20 8
    let n := par g 0x28 4
    exec (.regRead g) s = .next (
      if n < 1 ∨ 52 < n then u.fails 0xC0 g 2 (detailOf 5 0x28)
      else if a % 4 ≠ 0 then u.fails 0xC0 g 4 (detailOf 5 0x20)
      else
        let (l, t) := State.readWords a n u
        t.postResult 0xC0 g { code := if l.length < n then 0xE else 0,
                              fields := [(0x120, l.flatMap (fun w => leBytes 4 w.toNat)), (0x1F0, leBytes 4 l.length)] })) ∧
  (∀ (s : State) (g : Go), s.passes cmdRegWrite g →
    let u := s.accept 0xC1 g
    let a := par g 0x20 8
    let n := par g 0x28 4
    exec (.regWrite g) s = .next (
      if n < 1 ∨ 48 < n then u.fails 0xC1 g 2 (detailOf 5 0x28)
      else if a % 4 ≠ 0 then u.fails 0xC1 g 4 (detailOf 5 0x20)
      else
        let (k, code, t) := State.writeWords a ((List.range n).map (fun k => BitVec.ofNat 32 (par g (0x30 + 4 * k) 4))) u
        t.postResult 0xC1 g { code := code, fields := [(0x1F0, leBytes 4 k)] }))

/-- SESSIONS (R286 to R288, R291, R300, R301). `OPEN_SESSION` without `ATTACH`, its parameters right and its regions held
by nobody else, makes the next session, binds the mailbox to it and waits for the grant; with a region held elsewhere it
answers `E_BUSY` (7) and names the conflict. A privileged open needs the operator's signature, draws a new nonce (a free
value, log entry 7) either way, and fails with `E_AUTH_FAILED` (9). `ATTACH` binds one more mailbox, up to 16. `SET_SESSION_LIMITS` records what
it asks for and waits; `CLOSE_SESSION` leaves the session closing and waits. -/
def Obligations.SessionCommands : Prop :=
  (∀ (s : State) (g : Go) (a : Nat), s.passes cmdOpen g →
    let u := s.accept 0x10 g
    let fl := par g 0x20 4
    let regions := BitVec.ofNat 64 (par g 0x30 8)
    let ents := par g 0x40 4
    let priv := bitAt fl 1
    let dev := bitAt fl 2
    let v := if priv then
      { u with free := u.free + 1, dev := { u.dev with nonce := Config.freeBytes u.free 32 } } else u
    fl < 8 → bitAt fl 0 = false → (u.dev.pkgFault = false ∨ priv = true) → (u.mb g.mb).sess = 0 →
    leaseOk (par g 0x24 4) = true → (if dev then par g 0x38 8 = 0 else par g 0x38 8 % 4096 = 0) → ringOk ents = true →
    (priv = true → ∃ k, u.operKey = some k ∧
      ecdsaVerify k (sha256 (u.dev.nonce ++ leBytes 8 (par g 0x28 8) ++ leBytes 4 g.mb)) (raw g 0x50 64) = true) →
    (regions = 0 ∨ u.grantsBarred = false) →
    (if dev then u.lowestFree false (up64k (ents * 64)) u.occupied = some a else a = par g 0x38 8) →
    exec (.openSession g) s = .next (
      let c := (u.dev.openCount + 1) % 2 ^ 24
      let c := if c = 0 then 1 else c
      let id := c * 256 + g.mb
      if regions &&& u.heldElsewhere 0 ≠ 0 then v.postResult 0x10 g
        { code := 7, fields := [(0x128, leBytes 8 (regions &&& u.heldElsewhere 0).toNat)] }
      else
        let x : Sess := {
          id := id, mbs := [g.mb], priv := priv, seed := par g 0x28 8, lease := par g 0x24 4,
          allocs := if dev then [{ addr := a, size := up64k (ents * 64), ring := true }] else [],
          ring := { addr := a, dev := dev, entries := ents }, grant := regions, opening := true }
        let w := { v with dev := { v.dev with openCount := c } }
        let w := if dev then w.devZero a (up64k (ents * 64)) (some g.mb) else w
        ({ w with sess := w.sess ++ [x] }.setMb g.mb (fun m => { m with sess := id })).staysBusy 0x10 g (.grant id) [
            (0x120, leBytes 4 id), (0x124, leBytes 4 1), (0x128, leBytes 8 regions.toNat),
            (0x138, leBytes 8 (if dev then a else 0))])) ∧
  (∀ (s : State) (g : Go), s.passes cmdOpen g →
    let u := s.accept 0x10 g
    par g 0x20 4 = 2 → (u.mb g.mb).sess = 0 → leaseOk (par g 0x24 4) = true → par g 0x38 8 % 4096 = 0 →
    ringOk (par g 0x40 4) = true →
    (∀ k, u.operKey = some k →
      ecdsaVerify k (sha256 (u.dev.nonce ++ leBytes 8 (par g 0x28 8) ++ leBytes 4 g.mb)) (raw g 0x50 64) = false) →
    exec (.openSession g) s = .next ({ u with free := u.free + 1, dev := { u.dev with
      nonce := Config.freeBytes u.free 32 } }.fails 0x10 g 9 (detailOf 5 0x50))) ∧
  (∀ (s : State) (g : Go) (x : Sess), s.passes cmdOpen g →
    let u := s.accept 0x10 g
    let id := par g 0x44 4
    par g 0x20 4 = 1 → u.dev.pkgFault = false → (u.mb g.mb).sess = 0 → par g 0x24 4 = 0 → par g 0x28 8 = 0 →
    par g 0x30 8 = 0 → par g 0x38 8 = 0 → par g 0x40 4 = 0 → (raw g 0x50 64).all (fun b => b == 0) = true →
    u.session id = some x → x.closing = false →
    exec (.openSession g) s = .next (
      if x.mbs.any (fun n => (u.mb n).tag == par g 0x48 4) = false then u.fails 0x10 g 4 (detailOf 5 0x48)
      else if 16 ≤ x.mbs.length then u.fails 0x10 g 7
      else ((u.setSess id (fun x => { x with mbs := x.mbs ++ [g.mb] })).setMb g.mb
          (fun m => { m with sess := id })).succeeds 0x10 g [
        (0x120, leBytes 4 id), (0x124, leBytes 4 (x.mbs.length + 1)), (0x128, leBytes 8 x.regions.toNat),
        (0x130, leBytes 8 (u.tick.count + 1))])) ∧
  (∀ (s : State) (g : Go) (x : Sess), s.passes cmdLimits g →
    let u := s.accept 0x12 g
    let fl := par g 0x20 4
    let grant := if bitAt fl 0 then BitVec.ofNat 64 (par g 0x28 8) else (0 : DWord)
    let release := if bitAt fl 0 then BitVec.ofNat 64 (par g 0x30 8) else (0 : DWord)
    u.session (u.mb g.mb).sess = some x → fl < 16 → (bitAt fl 0 = true → Nat.land (par g 0x28 8) (par g 0x30 8) = 0) →
    (bitAt fl 2 = true → leaseOk (par g 0x38 4) = true) → (grant = 0 ∨ u.grantsBarred = false) →
    exec (.setSessionLimits g) s = .next (
      if grant &&& u.heldElsewhere (u.mb g.mb).sess ≠ 0 then u.postResult 0x12 g
        { code := 7, fields := [(0x120, leBytes 8 (grant &&& u.heldElsewhere (u.mb g.mb).sess).toNat)] }
      else if release &&& ~~~ x.regions ≠ 0 then u.fails 0x12 g 4 (detailOf 5 0x30)
      else (u.setSess (u.mb g.mb).sess (fun x => { x with
        grant := x.grant ||| (grant &&& ~~~ x.regions), release := x.release ||| release,
        lpUnused := if bitAt fl 1 then bitAt fl 3 else x.lpUnused,
        lease := if bitAt fl 2 then par g 0x38 4 else x.lease })).staysBusy 0x12 g (.limits (u.mb g.mb).sess))) ∧
  (∀ (s : State) (g : Go) (x : Sess), s.passes cmdClose g →
    (s.accept 0x11 g).session ((s.accept 0x11 g).mb g.mb).sess = some x →
    Answers (exec (.closeSession g) s) (fun t => ∃ y b, t.session x.id = some y ∧ y.closing = true ∧ y.grant = 0 ∧
      (t.mb g.mb).busy = some b ∧ b.opcode = 0x11 ∧ b.go = g ∧ b.wait = .close ((s.accept 0x11 g).mb g.mb).sess))

/-- DEVICE MEMORY BY COMMAND (R198, R301, R302, R359). `ALLOC_MEMORY` takes the lowest free range that its `TIER` allows,
rounded up to 64 KiB, zeroes it (its tier out of self-refresh first) and enters it in the session; without room it answers `E_NO_CAPACITY` (5) and the
shortfall. `FREE_MEMORY` removes an allocation that is not the ring and not in use. -/
def Obligations.MemoryCommands : Prop :=
  (∀ (s : State) (g : Go) (x : Sess), s.passes cmdAlloc g →
    let u := s.accept 0x20 g
    let bytes := par g 0x20 8
    let tier := par g 0x28 1
    let size := up64k bytes
    let hbm := if tier = 1 then none else u.lowestFree false size u.occupied
    let lp := if tier = 0 then none else u.lowestFree true size u.occupied
    u.session (u.mb g.mb).sess = some x →
    exec (.allocMemory g) s = .next (
      if bytes = 0 ∨ 2 ^ 40 < bytes then u.fails 0x20 g 2 (detailOf 5 0x20)
      else if 2 < tier then u.fails 0x20 g 4 (detailOf 5 0x28)
      else if 4096 ≤ x.allocs.length then u.fails 0x20 g 7
      else if u.dev.stage < 2 ∧ hbm = none ∧ tier ≠ 0 then u.fails 0x20 g 8
      else match hbm.or lp with
      | none => u.postResult 0x20 g { code := 5, shortfall := size - u.freeFor tier u.occupied }
      | some a => ((u.devZero a size (some g.mb)).setSess (u.mb g.mb).sess (fun x => { x with
          allocs := x.allocs ++ [{ addr := a, size := size }] })).succeeds 0x20 g
          [(0x120, leBytes 8 a), (0x128, leBytes 8 size)])) ∧
  (∀ (s : State) (g : Go) (x : Sess), s.passes cmdFree g →
    let u := s.accept 0x21 g
    u.session (u.mb g.mb).sess = some x →
    exec (.freeMemory g) s = .next (
      match x.allocs.find? (fun r => r.addr == par g 0x20 8 && !r.ring) with
      | none => u.fails 0x21 g 4 (detailOf 5 0x20)
      | some r => if x.uses r = true then u.fails 0x21 g 7
        else (u.setSess (u.mb g.mb).sess (fun x => { x with allocs := x.allocs.filter (fun q => q != r) })).succeeds
          0x21 g []))

/-- SCHEDULE IMAGES (R147, R196, R199, R200, R303). `LOAD_SCHEDULE` of an image that its checks and admission accept enters it
under the lowest free handle, with its tensors placed and their memory zeroed (where the copy of its descriptors lies is
free: log entry 57); it answers `E_NOT_READY` (8) while a
controller is frozen, and the checks' own code for a bad image. `UNLOAD_SCHEDULE` removes an image that no step uses.
`BIND_TENSOR` binds a tensor of kind 2 inside one allocation. -/
def Obligations.ScheduleCommands : Prop :=
  (∀ (s : State) (g : Go) (x : Sess), s.passes cmdLoad g →
    let u := s.received cmdLoad g
    let i : Image := { bytes := u.payload g }
    let live := u.live x.regions
    u.session (u.mb g.mb).sess = some x →
    (u.anyFrozen = true → exec (.loadSchedule g) s = .next (u.fails 0x30 g 8)) ∧
    (∀ f, u.anyFrozen = false → u.checkImage i g.payLen.toNat live = some f →
      ¬ (f.code = 9 ∧ f.detail = detailOf 1 0xC0) →
      exec (.loadSchedule g) s = .next (u.postResult 0x30 g { code := f.code, detail := f.detail, shortfall := f.short })) ∧
    (∀ h p, u.anyFrozen = false → u.checkImage i g.payLen.toNat live = none → x.freeHandle = some h →
      u.admission i = .ok p → (2 ≤ u.dev.stage ∨ i.placedIn true p = 0) →
      let f := foldOf i.clusters live.length
      let w := u.zeroPlaced i p g.mb
      let w' := { w with free := w.free + 1 }
      exec (.loadSchedule g) s = .next ((w'.setSess (u.mb g.mb).sess (fun x => { x with
        images := put {} x.images h { i with
          place := p, fold := f, homes := i.portHomes live
          descAt := w'.descPlace (Config.freeValue w.free) } })).succeeds 0x30 g [
          (0x120, leBytes 1 h), (0x121, leBytes 1 f), (0x122, leBytes 2 live.length),
          (0x128, leBytes 8 (i.placedIn false p)), (0x130, leBytes 8 (i.placedIn true p))]))) ∧
  (∀ (s : State) (g : Go) (x : Sess), s.passes cmdUnload g →
    let u := s.accept 0x31 g
    let h := par g 0x20 1
    u.session (u.mb g.mb).sess = some x →
    exec (.unloadSchedule g) s = .next (
      if x.image h = none then u.fails 0x31 g 4 (detailOf 5 0x20)
      else if x.imageBusy h = true then u.fails 0x31 g 7
      else (u.setSess (u.mb g.mb).sess (fun x => { x with images := put {} x.images h {} })).succeeds 0x31 g [])) ∧
  (∀ (s : State) (g : Go) (x : Sess), s.passes cmdBind g →
    let u := s.accept 0x32 g
    let h := par g 0x20 1
    let t := par g 0x22 2
    let a := par g 0x28 8
    u.session (u.mb g.mb).sess = some x →
    exec (.bindTensor g) s = .next (match x.image h with
      | none => u.fails 0x32 g 4 (detailOf 5 0x20)
      | some i =>
        if ¬ (t < i.tensors ∧ i.tKind t = 2) then u.fails 0x32 g 4 (detailOf 5 0x22)
        else if x.allocs.any (fun r => decide (r.addr ≤ a) && decide (a + i.tBytes t ≤ r.addr + r.size)) = false then
          u.fails 0x32 g 4 (detailOf 5 0x28)
        else (u.setSess (u.mb g.mb).sess (fun x => { x with
          images := modify {} x.images h (fun i => { i with bound := put 0 i.bound t (a + 1) }) })).succeeds 0x32 g []))

/-- STEPS BY COMMAND (R196, R205, R304, R306, R308). `SUBMIT_STEPS` puts its entries behind the session's queue, numbered
from its next step, or none of them; `CANCEL_STEPS` removes the queued steps it names, each with a record of `E_ABORTED`
(0xF), and waits for the running one when asked to; `REPLAY_INTERMEDIATE` puts a replay behind the queue and waits. -/
def Obligations.StepCommands : Prop :=
  (∀ (s : State) (g : Go) (x : Sess), s.passes cmdSubmit g →
    let u := s.received cmdSubmit g
    let h := par g 0x20 1
    let n := par g 0x24 4
    u.session (u.mb g.mb).sess = some x → 1 ≤ n → n ≤ 65536 →
    exec (.submitSteps g) s = .next (
      if u.anyFrozen = true then u.fails 0x40 g 8
      else if x.image h = none then u.fails 0x40 g 4 (detailOf 5 0x20)
      else match readEntries h (u.payload g) 0 n x.next with
      | .error k => u.fails 0x40 g 2 (detailOf 4 k)
      | .ok (l, next) => if 65536 < x.queue.length + n then u.fails 0x40 g 7
        else (u.setSess (u.mb g.mb).sess (fun x => { x with queue := x.queue ++ l, next := next })).succeeds 0x40 g
          [(0x120, leBytes 4 n), (0x128, leBytes 8 next)])) ∧
  (∀ (s : State) (g : Go) (x : Sess), s.passes cmdCancel g →
    let u := s.accept 0x41 g
    let fl := par g 0x20 4
    let id := (u.mb g.mb).sess
    let hit := fun (q : QItem) =>
      bitAt fl 1 || (bitAt fl 0 && decide (par g 0x28 8 ≤ q.counter) && decide (q.counter ≤ par g 0x30 8))
    u.session id = some x →
    let (n, v) := u.removeQueued id hit 0xF
    exec (.cancelSteps g) s = .next (
      if bitAt fl 2 = true ∧ (∃ run, x.running = some run ∧ run.finish = none) then
        (v.setRun id (fun run => { run with cancel := true })).staysBusy 0x41 g (.stepStop id) [(0x120, leBytes 4 n.1)]
      else v.succeeds 0x41 g [(0x120, leBytes 4 n.1)])) ∧
  (∀ (s : State) (g : Go) (x : Sess) (i : Image), s.passes cmdReplay g →
    let u := s.accept 0xD0 g
    let target := par g 0x21 1
    let unit := par g 0x22 2
    let len := par g 0x38 8
    let dev := bitAt (par g 0x48 4) 0
    u.session (u.mb g.mb).sess = some x → x.image (par g 0x20 1) = some i → target ≤ 2 → 1 ≤ len → len ≤ 2 ^ 32 →
    unit < i.targetUnits target → par g 0x24 4 < i.stepTicks →
    par g 0x30 8 + len ≤ i.targetSize target unit → (dev = true → u.devRangeOk (some x) (par g 0x40 8) len = true) →
    x.queue.length < 65536 →
    exec (.replayIntermediate g) s = .next ((u.setSess (u.mb g.mb).sess (fun x => { x with queue := x.queue ++ [{
      image := par g 0x20 1, counter := par g 0x28 8, cookie := 0, replay := some {
        mb := g.mb, target := target, unit := unit, tick := par g 0x24 4, offset := par g 0x30 8, length := len,
        dest := par g 0x40 8, devDest := dev } }] })).staysBusy 0xD0 g (.replay (u.mb g.mb).sess)))

/-- FABRIC LOADS (R250, R252, R253, R264). A load whose header, ownership, chains and key are right is entered on its
chains and the command stays busy; a refused one sets `FAB_CFG.REJECT` (`TRUNC` where the source gave no whole header: the
model's choice, log entry 59) and answers with the failing check's code. -/
def Obligations.FabricCommands : Prop :=
  (∀ (s : State) (g : Go) (p : Option Nat) (x : Sess), s.passes cmdFabric g →
    let u := s.received cmdFabric g
    let b := u.fabStream g
    u.session (u.mb g.mb).sess = some x →
    exec (.loadFabric g p) s = .next (match u.judgeFabric b true 0xFF (some x.regions) with
      | .error f => (u.raise .cfg (if b.length < 256 then 0x80000000 else 0x02000000)).postResult 0x50 g { code := f.code, detail := f.detail, shortfall := f.short }
      | .ok key =>
        let l : Load := {
            slot := u.fcfg.nextSlot, mb := some g.mb, sess := (u.mb g.mb).sess, kind := fld b 0xC 1, target := fld b 0xE 1,
            covered := coveredBy (fld b 0xE 1), stream := b, short := u.payFails g, imageId := fld b 0x10 8,
            plainLen := fld b 0x18 8, key := key }
        { u with loads := u.loads ++ [l], fcfg := { u.fcfg with nextSlot := u.fcfg.nextSlot + 1 } }.staysBusy 0x50 g (.load u.fcfg.nextSlot))) ∧
  (∀ (s : State) (g : Go) (p : Option Nat) (x : Sess), s.passes cmdFabricRegion g →
    let u := s.received cmdFabricRegion g
    let b := u.fabStream g
    let r := par g 0x20 1
    u.session (u.mb g.mb).sess = some x →
    exec (.loadFabricRegion g p) s = .next (
      if ¬ (r < 64 ∨ r = 0xFF) then u.fails 0x51 g 4 (detailOf 5 0x20)
      else match u.judgeFabric b false r (some x.regions) with
      | .error f => (u.raise .cfg (if b.length < 256 then 0x80000000 else 0x02000000)).postResult 0x51 g { code := f.code, detail := f.detail, shortfall := f.short }
      | .ok key =>
        let l : Load := {
            slot := u.fcfg.nextSlot, mb := some g.mb, sess := (u.mb g.mb).sess, kind := fld b 0xC 1, target := fld b 0xE 1,
            covered := coveredBy (fld b 0xE 1), stream := b, short := u.payFails g, imageId := fld b 0x10 8,
            plainLen := fld b 0x18 8, key := key }
        { u with loads := u.loads ++ [l], fcfg := { u.fcfg with nextSlot := u.fcfg.nextSlot + 1 } }.staysBusy 0x51 g (.load u.fcfg.nextSlot)))

/-- THE PAIR BY COMMAND (R310, R318, R319, R344 to R346). `PAIR_CONFIGURE` stores the pair fields in the settings copy not in
use and puts the mode in force: 0 leaves pair service, another may form the pair; its conditions not met, or the flash write
failing (0xE), it answers without a change. `PAIR_PROMOTE` outside shadow service, and `PAIR_REJOIN` where R346 does not hold, answer
`E_PAIR_STATE` (0xD); where R346 holds the transfer of every allocated page begins. -/
def Obligations.PairCommands : Prop :=
  (∀ (s : State) (g : Go) (fit : PartnerFit) (flashOk : Bool), s.passes cmdConfigure g →
    let u := s.accept 0x60 g
    let mode := par g 0x20 1
    let v := (u.storeCopy (pairFields u.inUse g)).2.2
    let w := { v with pair := { v.pair with mode := mode } }
    exec (.pairConfigure g ⟨fit, flashOk⟩) s = .next (
      if 2 < mode then u.fails 0x60 g 4 (detailOf 5 0x20)
      else if 1 < par g 0x21 1 then u.fails 0x60 g 4 (detailOf 5 0x21)
      else if ¬ (par g 0x24 4 = 0 ∨ (mode = 2 ∧ par g 0x24 4 ≤ 3600000)) then u.fails 0x60 g 2 (detailOf 5 0x24)
      else if u.pair.mode + mode = 3 ∧ u.pair.mode ≠ 0 ∧ mode ≠ 0 then u.fails 0x60 g 0xD
      else if raw g 0x28 16 = u.deviceId then u.fails 0x60 g 0xD
      else if mode ≠ 0 ∧ u.namedBy fit = true ∧ u.fitsAs mode (raw g 0x28 16) fit = false then u.fails 0x60 g 0xD
      else if flashOk = false then u.fails 0x60 g 0xE
      else (if mode = 0 then w.leavePair else w.formPair fit).succeeds 0x60 g [])) ∧
  (∀ (s : State) (g : Go), s.passes cmdPromote g →
    exec (.pairPromote g) s = .next ((s.accept 0x62 g).fails 0x62 g 0xD)) ∧
  (∀ (s : State) (g : Go) (fit : PartnerFit), s.passes cmdRejoin g →
    let u := s.accept 0x63 g
    exec (.pairRejoin g fit) s = .next (
      if u.pair.mode = 1 ∧ u.pair.role = 1 ∧ u.pair.formed = false ∧ u.pair.phase = 0 ∧ u.pairFits fit = true ∧
          fit.noSession = true ∧ u.sameFabrics fit = true ∧ u.fabricImages = false then
        { u with pair := { u.pair with
          phase := 1, passes := 0, bytesSent := 0, toSend := (u.sess.flatMap Sess.pages).eraseDups
          marked := [] } }.staysBusy 0x63 g .pairRejoin
      else u.fails 0x63 g 0xD))

/-- PROMOTION (R345). A privileged `PAIR_PROMOTE` on a secondary in shadow service, with no rejoin and no promotion under
way, stays busy and starts the promotion's count of boundaries. -/
def Obligations.PromotionStarts : Prop :=
  ∀ (s : State) (g : Go), g.wf = true → s.accepts g.mb g.go.toNat = true → s.pair.left = false →
    (s.accept 0x62 g).preCheck cmdPromote g = none →
    s.pair.shadow = true → s.pair.role = 2 → s.pair.phase = 0 → s.pair.promoteIn = 0 →
    let u := s.accept 0x62 g
    exec (.pairPromote g) s = .next ({ u with pair := { u.pair with promoteIn := 2 } }.staysBusy 0x62 g .pairPromote)

/-- FIRMWARE AND SETTINGS (R28, R311, R353, R364 to R366, R421). `FW_STAGE` checks an image in the order of R421 and, all
well, puts it in the slot that is not active. `FW_ACTIVATE` with the staged version, outside a pair and with no other
session open, stays busy until the restart. `SETTINGS_WRITE` of a block with every field in range writes the copy not in
use with the next sequence number, and never the pair fields. -/
def Obligations.FirmwareAndSettings : Prop :=
  (∀ (s : State) (g : Go) (signed flashOk : Bool), s.passes cmdFwStage g →
    let u := s.received cmdFwStage g
    let b := u.payload g
    exec (.fwStage g signed flashOk) s = .next (
      if fwKnown (fit 512 b) = false then u.fails 0x70 g 0xA
      else if fwShaped (fit 512 b) g.payLen.toNat = false then u.fails 0x70 g 2
      else if signed = false ∨ fwBodyOk b = false then u.fails 0x70 g 9
      else if fwFresh (fit 512 b) u.rollback = false then u.fails 0x70 g 9
      else if flashOk = false then u.fails 0x70 g 0xE
      else { u with flash := u.flash.stage { header := b.take 512, authOk := true } }.succeeds 0x70 g
        [(0x120, leBytes 4 (fld b 0xC 4))])) ∧
  (∀ (s : State) (g : Go), s.passes cmdFwActivate g →
    let u := s.accept 0x71 g
    exec (.fwActivate g) s = .next (match u.flash.staged with
      | none => u.fails 0x71 g 4 (detailOf 5 0x20)
      | some i =>
        if par g 0x20 4 ≠ fld i.header 0xC 4 then u.fails 0x71 g 4 (detailOf 5 0x20)
        else if u.pair.formed = true then u.fails 0x71 g 0xD
        else if ∃ x ∈ u.sess, x.id ≠ g.session.toNat then u.fails 0x71 g 7
        else u.staysBusy 0x71 g .restart)) ∧
  (∀ (s : State) (g : Go) (flashOk : Bool), s.passes cmdSettingsWrite g →
    let u := s.received cmdSettingsWrite g
    let b := u.payload g
    exec (.settingsWrite g flashOk) s = .next (match fieldFault b false with
      | some o => u.fails 0x91 g 2 (detailOf 1 o)
      | none =>
        if fld b 0x10 2 ≠ u.tick.period ∧ u.imageLoaded = true then u.fails 0x91 g 7
        else if flashOk = false then u.fails 0x91 g 0xE
        else
          let v := u.storeCopy (overlay b 0x24 (slice u.inUse 0x24 28))
          { v.2.2 with dev := { v.2.2.dev with applyAt := true, applyPeriod := true } }.succeeds 0x91 g
            [(0x120, leBytes 4 v.1), (0x124, leBytes 4 v.2.1)]))

/-- UNITS BY COMMAND (R194, R314, R372 to R374). With the identifier in the range of its kind: `RETIRE_UNIT` of a
pseudo-channel begins to copy its pages to spare space (which space is free: log entry 58); of another unit it waits for the
boundary with the change entered; `RESTORE_UNIT` of a unit that is out and whose
test passes does the same, and otherwise answers with the test's result; `RUN_SELF_TEST` answers the test's result, or
`E_BUSY` (7) for a unit in service. -/
def Obligations.UnitCommands : Prop :=
  (∀ (s : State) (g : Go), s.passes cmdRetire g →
    let u := s.accept 0xB0 g
    let kind := par g 0x20 1
    let id := par g 0x24 4
    exec (.retireUnit g) s = .next (
      if 5 < kind then u.fails 0xB0 g 4 (detailOf 5 0x20)
      else if unitId kind id = false then u.fails 0xB0 g 4 (detailOf 5 0x24)
      else if kind = 4 then (
        let cap : Outcome := { fields := [(0x124, leBytes 2 u.units.capacity)] }
        if u.pcGone (id / 32) (id % 32) = true then u.postResult 0xB0 g cap
        else if (u.memCtl (id / 32)).frozen = true then u.fails 0xB0 g 0xE
        else if 4 ≤ u.mpk.retired + u.mpk.retiring.length then
          ({ u with free := u.free + 1 }.freezeCtl (id / 32) (Config.freeValue u.free) true none).postResult 0xB0 g
            { cap with code := 0xE }
        else
          let seed := Config.freeValue u.free
          let j : RetireJob := { stack := id / 32, pc := id % 32, page := 0, seed := seed, mb := some g.mb }
          let p : Spare := { stack := id / 32, pc := id % 32, seed := seed, pages := 0 }
          ({ u with
            free := u.free + 1
            mpk := { u.mpk with retiring := u.mpk.retiring ++ [j], spares := u.mpk.spares ++ [p] } }.setCtl (id / 32)
              (fun c => { c with retireBusy := true })).staysBusy 0xB0 g (.retire (id / 32) (id % 32)))
      else
        let change : UnitChange :=
          if kind = 0 then .slot (id / 16) (id % 16) else if kind = 1 then .cluster id
          else if kind = 2 then .region id else if kind = 3 then .die id else .lane id
        { u with units := { u.units with pend := u.units.pend ++ [change] } }.staysBusy 0xB0 g .unit)) ∧
  (∀ (s : State) (g : Go) (x : SelfTest), s.passes cmdRestore g →
    let u := s.accept 0xB1 g
    let kind := par g 0x20 1
    let id := par g 0x24 4
    let r := testFirst x kind id
    let f : List (Nat × List Byte) := [(0x120, leBytes 4 r), (0x124, leBytes 2 u.units.capacity)]
    kind ≤ 5 → unitId kind id = true →
    exec (.restoreUnit g x) s = .next (
      if kind = 4 then u.fails 0xB1 g 4 (detailOf 5 0x20)
      else if kind = 2 ∧ u.units.dieFenced.getLsbD (id / 2) = true then u.fails 0xB1 g 4 (detailOf 5 0x24)
      else if u.unitOut kind id = false ∧ u.unitBusy kind id = true then u.fails 0xB1 g 7
      else if u.unitOut kind id = false then u.postResult 0xB1 g { code := if r = 0 then 0 else 0xE, fields := f }
      else if testPasses x kind id = false then u.postResult 0xB1 g { code := 0xE, fields := f }
      else (u.addChange (restoreOf kind id x)).staysBusy 0xB1 g .unit [(0x120, leBytes 4 r)])) ∧
  (∀ (s : State) (g : Go) (x : SelfTest), s.passes cmdSelfTest g →
    let u := s.accept 0xB2 g
    let kind := par g 0x20 1
    let id := par g 0x24 4
    kind ≤ 5 → unitId kind id = true →
    exec (.runSelfTest g x) s = .next (
      if u.unitBusy kind id = true then u.fails 0xB2 g 7
      else u.succeeds 0xB2 g [(0x120, leBytes 4 (testFirst x kind id)), (0x124, leBytes 2 u.units.capacity)]))

/-! Ticks and steps (02, 11). -/

/-- THE TICK SOURCE (R29, R30, R50). When the next tick falls due it can be issued, or it is held and `STRETCH` set. A
Rooster's report records its region's digest and marks it done; with a Rooster still busy the tick stays open, and outside
shadow service the report of the last one closes it. `PAIR_HB_OUT` toggles, and in a pair a message goes with the edge
(R322) that says which tick is done. The end of a copy of an identity's memory is counted (R53). -/
def Obligations.TickSource : Prop :=
  (∀ s : State, s.tickRuns = true → s.tick.count ≠ 0 → s.tick.due = false → s.tick.copying = 0 →
    exec .tickDue s = .next (
      if s.tick.closed = true ∧ s.tick.settled = true ∧ s.pairHolds = false then { s with tick := { s.tick with due := true } }
      else
        let t := s.raise .tickStatus 0x40000000
        { t with tick := { t.tick with due := true, held := true, late := ~~~ s.tick.done } })) ∧
  (∀ (s : State) (r : Nat) (busy : List (Nat × Nat)), s.canon → s.mayReport r = true → s.tick.closed = false →
    let d := withBit s.tick.done r true
    (d ≠ 0xFFFFFFFFFFFFFFFF → Answers (exec (.regionDone r busy) s) (fun t =>
      t.tick.done = d ∧ t.tick.closed = false ∧ (t.region r).digest = s.regionDigest r ∧ t.tiles = s.tiles ∧
        t.eng = s.eng ∧ t.mem = s.mem ∧ t.sess = s.sess)) ∧
    (d = 0xFFFFFFFFFFFFFFFF → s.pair.shadow = false → Answers (exec (.regionDone r busy) s) (fun t =>
      t.tick.done = d ∧ t.tick.closed = true ∧ t.tick.active = false ∧ t.tick.settled = true ∧ t.mem = s.mem))) ∧
  (∀ s : State, s.heartBeats = true → Answers (exec .heartbeatToggle s) (fun t =>
    t.dev = { s.dev with hbLevel := !s.dev.hbLevel } ∧ SameWork s t ∧ t.sess = s.sess ∧
    (s.pair.mode = 0 ∨ s.pair.left = true ∨ s.hears = false → t.pair = s.pair ∧ t.out = s.out) ∧
    (s.pair.mode ≠ 0 → s.pair.left = false → s.hears = true → ∃ m, t.out.pairMsg = some m ∧
      m.done = (if s.tick.closed = true then s.tick.count else s.tick.count - 1) ∧
      m.digest = (if s.tick.closed = true then s.tickDigest else s.tick.pkgDigest) ∧ m.seqHeld = s.pair.seqHeld))) ∧
  (∀ (s : State) (late : Nat), s.tickRuns = true → s.tick.copying ≠ 0 →
    Answers (exec (.identityCopyComplete late) s) (fun t => t.tick.copying = s.tick.copying - 1))

/-- WARNINGS AND HANGS (R54, R55, R58, R141, R173). The tick warning sets event 2 pending in every context of the region
that has a task and has not ended, and touches no other region's tiles. A region that reaches the hang limit sets `HANG`;
its last busy slot is then treated as failed, and where no slot is busy nothing more happens. -/
def Obligations.WarningsAndHangs : Prop :=
  (∀ (s : State) (r : Nat), s.canon → s.mayWarn r = true →
    Answers (exec (.tickWarning r) s) (fun t =>
      t.tick.warned = withBit s.tick.warned r true ∧
      (∀ i, i / 36 ≠ r → t.tile i = s.tile i) ∧
      ∀ i c, i / 36 = r → c < 4 → ((s.tile i).ctx c).task = true → ((s.tile i).ctx c).ended = false →
        ((t.tile i).ctx c).r.es = ((s.tile i).ctx c).r.es ||| 4)) ∧
  (∀ (s : State) (r slot : Nat), s.hangs r slot = true →
    exec (.hang r slot) s = .next (
      let t := s.raise .tickStatus 0x80000000
      if s.slotBusy slot = true then t.tileFails slot else t))

/-- TICK BOUNDARIES (R29, R30, R46 to R49, R53, R213, R323, R324). At a boundary the primary of a shadow pair first forwards
the retirements it has decided, which can hold the next tick until they are acknowledged. Then, after the boundary's actions,
the next tick is issued: its number is one more, the digest of the tick that ended stands beside that tick's number, and
nothing is due or held. While an identity's memory is being copied the tick is held instead; the end of the last copy issues
it. A changeover that ends leaves its region to its new owner. -/
def Obligations.TickBoundaries : Prop :=
  (∀ (s : State) (late : Nat) (b : BoundarySample), s.mayCross = true →
    let w := s.decideUnits
    let u := w.boundary b
    ((s.pair.shadow = false ∨ s.units.pend = []) → w = s) ∧
    (w.mayCross = false → exec (.tickBoundary late b) s = .next w) ∧
    (w.mayCross = true → u.tick.copying = 0 → Answers (exec (.tickBoundary late b) s) (fun t =>
      t.tick.count = u.tick.count + 1 ∧ t.tick.due = false ∧ t.tick.held = false ∧ t.tick.active = !t.tick.closed ∧
      t.tick.digestTick = (if 0 < u.tick.count then u.tick.count else u.tick.digestTick) ∧
      t.tick.pkgDigest = (if 0 < u.tick.count then u.tickDigest else u.tick.pkgDigest))) ∧
    (w.mayCross = true → u.tick.copying ≠ 0 → exec (.tickBoundary late b) s = .next (
      if u.tick.held = true then u
      else
        let v := u.raise .tickStatus 0x40000000
        { v with tick := { v.tick with held := true } }))) ∧
  (∀ (s : State) (late : Nat), s.tickRuns = true → 1 < s.tick.copying →
    exec (.identityCopyComplete late) s = .next { s with tick := { s.tick with copying := s.tick.copying - 1 } }) ∧
  (∀ (s : State) (late : Nat), s.tickRuns = true → s.tick.copying = 1 →
    Answers (exec (.identityCopyComplete late) s) (fun t =>
      t.tick.count = s.tick.count + 1 ∧ t.tick.copying = 0 ∧ t.tick.due = false ∧ t.tick.held = false ∧
        t.tick.active = !t.tick.closed)) ∧
  (∀ (s : State) (r : Nat), s.canon → s.atBoundary = true → r < 64 → (s.region r).change = 1 →
    (∀ x ∈ s.sess, x.regions.getLsbD r = false) →
    Answers (exec (.changeoverEnd r) s) (fun t =>
      (t.region r).change = 0 ∧ ∀ y ∈ t.sess, y.release.getLsbD r = false))

/-- STEPS (R215, R269, R292, R293, R303, R305). At a boundary the item in front of a session's queue starts and reserves its
ring entry, or completes with `E_NOT_READY` (8). A step that has ended completes with its record: status, counter, cookie,
chained digest and overflow count (0 unless it is `OK`), ticks, first and last tick; a replay with the digests and the
bytes asked for, or `E_BUS_ERROR` where a controller that the copy needs serves none (R195). A record that waited is
written when an entry is free. -/
def Obligations.Steps : Prop :=
  (∀ (s : State) (id : Nat) (x : Sess) (q : QItem) (rest : List QItem), s.atBoundary = true → s.session id = some x →
    x.queue = q :: rest → s.mayStart x q = true → q.replay = none →
    exec (.stepStart id) s = .next (
      let i := look {} x.images q.image
      let u := s.forward (.stepStart x.id)
      if u.refusedStart i (u.live x.regions) = true then
        ((u.setSess x.id (fun y => { y with queue := y.queue.drop 1, refusedAt := some u.tick.count })).setSess x.id
          (fun y => { y with lastDone := some q.counter })).postRecord x.id false
            (recordOf q.image 8 0 q.counter q.cookie 0 0 0 0 0)
      else u.setSess x.id (fun y => { y with
        queue := y.queue.drop 1, running := some { item := q, bound := i.bound }
        ring := { y.ring with reserved := true } }))) ∧
  (∀ (s : State) (id : Nat) (x : Sess) (run : Run) (c : Nat), s.session id = some x → x.running = some run →
    run.finish = some c → run.item.replay = none →
    let u := (s.setSess x.id (fun y => { y with running := none })).setSess x.id
      (fun y => { y with lastDone := some run.item.counter })
    let v := u.postRecord x.id true (
      recordOf run.item.image c 0 run.item.counter run.item.cookie (if c = 0 then chainDigest run.digests else 0)
        (if c = 0 then run.ovf else 0) run.digests.length run.startTick run.lastTick)
    exec (.stepComplete id) s = .next (
      if c = 6 ∧ run.begun = true then (v.removeQueued x.id (fun q => q.image == run.item.image) 6).2 else v)) ∧
  (∀ (s : State) (id : Nat) (x : Sess) (run : Run) (rp : ReplayReq) (c : Nat), s.session id = some x →
    x.running = some run → run.finish = some c → run.item.replay = some rp → c ≠ 6 →
    let u := s.setSess x.id (fun y => { y with running := none })
    let b := u.replayBytes x run rp
    let src := rp.srcAddr (x.imageOf run)
    exec (.stepComplete id) s = .next (
      if c ≠ 0 then u.endReplay rp.mb x.id { code := c }
      else if (rp.devDest = true ∧ u.served rp.dest b.length = false) ∨
          (rp.target = 0 ∧ u.served src rp.length = false) then u.endReplay rp.mb x.id { code := 0xE }
      else
        let u := if rp.target = 0 ∧ u.waits src rp.length = true then
          u.holdAccess { kind := .fetch, addr := src, len := rp.length, mb := some rp.mb } else u
        let v := if rp.devDest = true then u.devStore rp.dest b (some rp.mb)
          else { u with out := { u.out with hostMem := wrBytes u.out.hostMem rp.dest b } }
        v.endReplay rp.mb x.id { fields := [(0x120, leBytes 8 (run.digests.getLastD 0).toNat),
          (0x128, leBytes 8 (chainDigest run.digests))] })) ∧
  (∀ (s : State) (id : Nat) (x : Sess) (rec : Record) (more : List Record), s.session id = some x →
    x.ring.waiting = rec :: more → x.ring.hasFree = true → s.ringReachable x.ring = true →
    exec (.completionRecordWrite id) s = .next (
      ((s.setSess id (fun y => { y with ring := { y.ring with waiting := more } })).putRecord x rec).endCloses))

/-- COMPLETION RECORDS (R292, R301). A record goes to the entry that the producer index names, 64 bytes from the ring's
address on, its first byte the phase bit, 1 on the ring's first lap and toggling on each lap; the index goes up by 1. For
a ring in device memory its bytes can be read there afterwards, where its controllers serve (R195) and no access has to wait
for them (R198), and no other byte of device memory changes. -/
def Obligations.RecordPlacement : Prop :=
  ∀ (s : State) (x : Sess) (rec : Record), memWf s.mem = true → s.session x.id = some x → 0 < x.ring.entries →
    x.ring.dev = true → rec.length = 64 →
    let a := x.ring.addr + 64 * (x.ring.prod % x.ring.entries)
    let t := s.putRecord x rec
    (s.waits a 64 = false → s.served a 64 = true →
      t.rdMem a 64 = BitVec.ofNat 8 (1 - x.ring.prod / x.ring.entries % 2) :: rec.drop 1) ∧
    (∀ b, (b < a ∨ a + 64 ≤ b) → rdByte t.mem b = rdByte s.mem b) ∧
    ∃ y, t.session x.id = some y ∧ y.ring.prod = (x.ring.prod + 1) % 2 ^ 32 ∧ y.ring.cons = x.ring.cons

/-! Tiles (03, 05). -/

/-- PASSES (R67, R82 to R84, R118, R119, R122, R160). The array takes the pass whose turn it is when its operands are there,
else its context becomes data-late: `DLATE` and event 3. A held array goes on when a row comes. A pass commits: what it
writes is what its operands give as they stood, its queue rows are given back, and the pass behind it is next in the array.
A result row joins the column-result queue behind those before it. -/
def Obligations.Passes : Prop :=
  (∀ (s : State) (slot i : Nat) (p : PassWork), s.canon → s.passNow slot = some i → (s.tile slot).passes[i]? = some p →
    p.ctx < 4 →
    (operandsReady (s.tile slot) p (s.ringsDone slot) = true →
      Answers (exec (.passStart slot) s) (fun t =>
        (t.tile slot).passes = setAt (s.tile slot).passes i (fun q => { q with started := true }) ∧
        ((t.tile slot).array.map (fun j => j.idx)) = ((s.tile slot).array.map (fun j => j.idx)) ++ [i] ∧
        ((t.tile slot).ctx p.ctx).late = false ∧ (t.tile slot).loc = (s.tile slot).loc ∧
        ∀ k, k ≠ slot → t.tile k = s.tile k)) ∧
    (operandsReady (s.tile slot) p (s.ringsDone slot) = false → ((s.tile slot).ctx p.ctx).late = false →
      Answers (exec (.passStart slot) s) (fun t =>
        ((t.tile slot).ctx p.ctx).late = true ∧ (t.tile slot).r.dlate.getLsbD p.ctx = true ∧
        (t.tile slot).passes = (s.tile slot).passes ∧ (t.tile slot).array = (s.tile slot).array ∧
        (t.tile slot).loc = (s.tile slot).loc ∧
        (((s.tile slot).ctx p.ctx).task = true → ((s.tile slot).ctx p.ctx).ended = false →
          ((t.tile slot).ctx p.ctx).r.es = ((s.tile slot).ctx p.ctx).r.es ||| 8)))) ∧
  (∀ (s : State) (slot : Nat), s.mayResume slot = true →
    exec (.arrayResume slot) s = .next (
      let u := s.runTile slot resumeArray
      if (u.tile slot).array.any (fun j => j.held) = true then u.markLate (slot / 36) (u.feeders slot [4]) else u)) ∧
  (∀ (s : State) (slot : Nat) (j : ArrJob) (rest : List ArrJob) (p : PassWork), s.canon → s.commitNow slot = true →
    (s.tile slot).array = j :: rest → (s.tile slot).passes[j.idx]? = some p → p.replay = false →
    let d := parseDesc p.desc
    let o := passOut ((s.tile slot).job.getD {}) (operandsOf (s.tile slot) d) d
    Answers (exec (.passCommit slot) s) (fun t =>
      (t.tile slot).array.map (fun j => j.idx) = rest.map (fun j => j.idx) ∧ (t.tile slot).loc = o.loc ∧
      (t.tile slot).passes = setAt (s.tile slot).passes j.idx (fun q => { q with committed := true, replay := false }) ∧
      (t.tile slot).sq = (if d.aQueue = true then (s.tile slot).sq.drop d.m else (s.tile slot).sq) ∧
      (t.tile slot).tq = (if d.bQueue = true then (s.tile slot).tq.drop 32 else (s.tile slot).tq) ∧
      (t.tile slot).r.commits = ((s.tile slot).r.commits + 1) % 65536 ∧
      (t.tile slot).r.lastCount = Nat.min o.count 0xFFFF ∧ t.mem = s.mem ∧ (rest = [] → t.eng = s.eng) ∧
      ∀ k, k ≠ slot → t.tile k = s.tile k)) ∧
  (∀ (s : State) (slot : Nat) (j : ArrJob) (rest : List ArrJob) (p : PassWork), s.canon → s.atWork slot = true →
    rowReady (s.tile slot) = true → (s.tile slot).array = j :: rest → (s.tile slot).passes[j.idx]? = some p →
    p.replay = false →
    let d := parseDesc p.desc
    Answers (exec (.columnResultDelivery slot) s) (fun t =>
      (t.tile slot).crq = (s.tile slot).crq ++ [⟨p.ctx, crqRowOf (operandsOf (s.tile slot) d) d p.delivered⟩] ∧
      (t.tile slot).passes = setAt (s.tile slot).passes j.idx (fun q => { q with delivered := q.delivered + 1 }) ∧
      (t.tile slot).array = j :: rest ∧ (t.tile slot).loc = (s.tile slot).loc))

/-- CONTEXTS AND EVENTS (R116, R141). A switch gives the sequencer to the first ready context after the running one in
cyclic order and counts it, unless that is the same one. An event that is taken saves the address that would have come
next in `ER`, sets `INH`, records its number, clears its pending bit and continues at `EVB` + 4e. -/
def Obligations.ContextsAndEvents : Prop :=
  (∀ (s : State) (slot c : Nat), s.canon → s.maySwitch slot = true → nextCtx (s.tile slot) = some c → (s.tile slot).cur < 4 →
    Answers (exec (.contextSwitch slot) s) (fun t =>
      let a := s.tile slot
      let b := t.tile slot
      b.cur = c ∧ (b.ctx a.cur) = { a.ctx a.cur with yield := false } ∧
      (∀ k, k < 4 → k ≠ a.cur → b.ctx k = a.ctx k) ∧
      b.r.switches = (if c = a.cur then a.r.switches else (a.r.switches + 1) % 65536) ∧ b.loc = a.loc ∧
      b.passes = a.passes ∧ b.crq = a.crq)) ∧
  (∀ (s : State) (slot e : Nat), s.canon → s.eventNow slot = some e → (s.tile slot).cur < 4 →
    Answers (exec (.eventTaken slot) s) (fun t =>
      let x := (s.tile slot).ctx (s.tile slot).cur
      let y := (t.tile slot).ctx (s.tile slot).cur
      y.r.er = BitVec.ofNat 13 x.pc ∧ y.pc = (x.r.evb.toNat + 4 * e) % 8192 ∧
      y.r.es = (x.r.es &&& ~~~ BitVec.ofNat 16 (0x30 + 2 ^ e)) ||| BitVec.ofNat 16 (0x200 + 16 * e) ∧
      y.loops = x.loops ∧ y.r.a = x.r.a ∧ y.r.d = x.r.d ∧ (t.tile slot).loc = (s.tile slot).loc ∧
      ∀ k, k < 4 → k ≠ (s.tile slot).cur → (t.tile slot).ctx k = (s.tile slot).ctx k))

/-! The sequencer (05). -/

/-- THE SEQUENCER'S COMMANDS (R124, R125, R128, R137). Each names one field of a bundle by its code: `COP` in bits [63:59]
of the word, `OP` in [43:38], the kind of the X move in [23:22] and of the Y move in [11:10], its operand bits below. When
the slot executes that word now, the command is the execution of that bundle; else it does nothing (log entries 4, 10). -/
def Obligations.SequencerCommands : Prop :=
  ∀ (s : State) (b : Bundle) (fc : BitVec 15) (fv : BitVec 14) (fm : BitVec 10),
    let c := b.ctl.toNat * 2 ^ 44
    let v := b.vec.toNat * 2 ^ 24
    let x := b.x.toNat * 2 ^ 12
    let y := b.y.toNat
    let ctl := fun (cop : Nat) => cop * 2 ^ 59 + fc.toNat * 2 ^ 44 + v + x + y
    let vec := fun (op : Nat) => c + op * 2 ^ 38 + fv.toNat * 2 ^ 24 + x + y
    let xm := fun (kind : Nat) => c + v + kind * 2 ^ 22 + fm.toNat * 2 ^ 12 + y
    let ym := fun (kind : Nat) => c + v + x + kind * 2 ^ 10 + fm.toNat
    let runs := fun (i : Instr) (w : Nat) => exec i s = .next (if s.mayRun b.slot w = true then s.runWord b.slot w else s)
    runs (.nop b fc) (ctl 0x00) ∧ runs (.jmp b fc) (ctl 0x01) ∧ runs (.call b fc) (ctl 0x02) ∧
    runs (.jmpr b fc) (ctl 0x03) ∧ runs (.branch b fc) (ctl 0x04) ∧ runs (.repeatN b fc) (ctl 0x05) ∧
    runs (.repeatA b fc) (ctl 0x06) ∧ runs (.doLoop b fc) (ctl 0x07) ∧ runs (.doLoopA b fc) (ctl 0x08) ∧
    runs (.exitLoop b fc) (ctl 0x09) ∧ runs (.passOp b fc) (ctl 0x0A) ∧ runs (.waitp b fc) (ctl 0x0B) ∧
    runs (.yield b fc) (ctl 0x0C) ∧ runs (.endTask b fc) (ctl 0x0D) ∧ runs (.rte b fc) (ctl 0x0E) ∧
    runs (.setal b fc) (ctl 0x0F) ∧ runs (.setah b fc) (ctl 0x10) ∧ runs (.inca b fc) (ctl 0x11) ∧
    runs (.movr b fc) (ctl 0x12) ∧ runs (.ldcr b fc) (ctl 0x13) ∧ runs (.stcr b fc) (ctl 0x14) ∧
    runs (.bxclr b fc) (ctl 0x15) ∧ runs (.setsat b fc) (ctl 0x16) ∧ runs (.vexpa b fc) (ctl 0x17) ∧
    runs (.vnop b fv) (vec 0x00) ∧ runs (.prd b fv) (vec 0x01) ∧ runs (.pra b fv) (vec 0x02) ∧
    runs (.prs b fv) (vec 0x03) ∧ runs (.acld b fv) (vec 0x04) ∧ runs (.acad b fv) (vec 0x05) ∧
    runs (.acsb b fv) (vec 0x06) ∧ runs (.acsh b fv) (vec 0x07) ∧ runs (.acrd b fv) (vec 0x08) ∧
    runs (.expo b fv) (vec 0x09) ∧ runs (.norm b fv) (vec 0x0A) ∧ runs (.vadd b fv) (vec 0x0B) ∧
    runs (.vsub b fv) (vec 0x0C) ∧ runs (.vneg b fv) (vec 0x0D) ∧ runs (.vasr b fv) (vec 0x0E) ∧
    runs (.vmov b fv) (vec 0x0F) ∧ runs (.crd b fv) (vec 0x10) ∧ runs (.bfc b fv) (vec 0x11) ∧
    runs (.flt b fv) (vec 0x12) ∧ runs (.cst b fv) (vec 0x13) ∧
    runs (.loadX b fm) (xm 1) ∧ runs (.storeX b fm) (xm 2) ∧ runs (.loadOperandStore b fm) (xm 3) ∧
    runs (.loadY b fm) (ym 1) ∧ runs (.storeY b fm) (ym 2) ∧ runs (.storeOperandStore b fm) (ym 3)

/-- ONE BUNDLE TOUCHES ITS OWN TILE ONLY (R113, R124, R126, R135, R142, R452). A bundle leaves every other slot, device
memory, cluster buffers and stream engines as they were. In its own tile it leaves the other contexts, the queues, the array
and the work given to the tile, and of local memory it writes neither the queue memory nor the program memory. -/
def Obligations.BundleFrame : Prop :=
  (∀ (s : State) (slot w : Nat),
    let t := s.runWord slot w
    (∀ k, k ≠ slot → t.tile k = s.tile k) ∧ t.mem = s.mem ∧ t.bufs = s.bufs ∧ t.eng = s.eng ∧ t.regions = s.regions ∧
      t.tick = s.tick ∧ t.fab = s.fab ∧ t.dev = s.dev ∧ t.units = s.units) ∧
  (∀ (t : Tile) (c w : Nat), c < 4 →
    let u := runBundle t c w
    (∀ k, k < 4 → k ≠ c → u.ctx k = t.ctx k) ∧ u.sq = t.sq ∧ u.tq = t.tq ∧ u.sqTaken = t.sqTaken ∧
      u.tqTaken = t.tqTaken ∧ u.array = t.array ∧ u.job = t.job ∧ u.cur = t.cur ∧
      u.passes.length = t.passes.length ∧
      ∀ a, (0x80000 ≤ a ∧ a < 0x90000) ∨ 0xB0000 ≤ a → rdByte u.loc a = rdByte t.loc a)

/-- CONTROL OPERATIONS THAT MOVE THE CONTEXT (R118, R137 to R141, R143). A bundle whose other fields do nothing, in a
context with no loop, repeat, branch or load pending: what each control operation leaves. `BR` and `JMPR` read An as it
stood before the bundle before them; a branch takes effect after its delay slot. -/
def Obligations.FlowOperations : Prop :=
  ∀ (t : Tile) (c : Nat), c < 4 →
    let x := t.ctx c
    x.rep = 0 → x.branch = none → x.loops = [] → x.ldcr = none → x.pc + 2 < 8192 →
    let u := fun (cop o : Nat) => runBundle t c (cop * 2 ^ 59 + o * 2 ^ 44)
    let y := fun (cop o : Nat) => (u cop o).ctx c
    (y 0x00 0).pc = x.pc + 1 ∧ (y 0x00 0).r.a = x.r.a ∧ (y 0x00 0).r.d = x.r.d ∧ (y 0x00 0).branch = none ∧
    (∀ k, k < 8192 → (y 0x01 k).branch = some ⟨some k, false⟩ ∧ (y 0x01 k).pc = x.pc + 1 ∧ (y 0x01 k).r.a = x.r.a) ∧
    (∀ k, k < 8192 → tabWf 0 x.r.a = true → (y 0x02 k).branch = some ⟨some k, false⟩ ∧ (y 0x02 k).pc = x.pc + 1 ∧
      (y 0x02 k).r.areg 7 = x.pc + 2) ∧
    (∀ n, n < 8 → (y 0x03 (n * 2 ^ 12)).branch = some ⟨some ((look 0 x.r.aPrev n).toNat % 8192), false⟩ ∧
      (y 0x03 (n * 2 ^ 12)).pc = x.pc + 1) ∧
    (∀ cc n off, cc < 4 → n < 8 → off < 1024 →
      let a := look 0 x.r.aPrev n
      let holds := cc = 0 ∨ (cc = 1 ∧ a = 0) ∨ (cc = 2 ∧ a ≠ 0) ∨ (cc = 3 ∧ a.getLsbD 19 = true)
      let z := y 0x04 (cc * 2 ^ 13 + n * 2 ^ 10 + off)
      let dest : Int := if off < 512 then x.pc + off else x.pc + off - 1024
      (holds → z.branch = some ⟨some (dest % 8192).toNat, false⟩) ∧ (¬ holds → z.branch = some ⟨none, false⟩) ∧
      z.pc = x.pc + 1) ∧
    (∀ k, k < 32768 → (y 0x05 k).rep = k + 1 ∧ (y 0x05 k).pc = x.pc + 1) ∧
    (∀ n, n < 8 →
      let k := x.r.areg n % 2 ^ 16
      let z := y 0x06 (n * 2 ^ 12)
      (k = 0 → z.pc = x.pc + 2 ∧ z.rep = 0) ∧ (k ≠ 0 → z.pc = x.pc + 1 ∧ z.rep = k)) ∧
    (∀ k off, k < 64 → 1 ≤ off → off < 512 →
      let z := y 0x07 (k * 2 ^ 9 + off)
      z.loops = [⟨x.pc + 1, x.pc + off, k + 1⟩] ∧ z.pc = x.pc + 1) ∧
    (∀ n off, n < 8 → 1 ≤ off → off < 512 → x.pc + off + 1 < 8192 →
      let k := x.r.areg n % 2 ^ 16
      let z := y 0x08 (n * 2 ^ 12 + off)
      (k = 0 → z.loops = [] ∧ z.pc = x.pc + off + 1) ∧
      (k ≠ 0 → z.loops = [⟨x.pc + 1, x.pc + off, k⟩] ∧ z.pc = x.pc + 1)) ∧
    (∀ i, nextRelease t.passes c = some i → (u 0x0A 0).passes = setAt t.passes i (fun p => { p with released := true })) ∧
    ((y 0x0B 0).waitp = true ∧ (y 0x0B 0).pc = x.pc + 1) ∧
    ((y 0x0C 0).yield = true ∧ (y 0x0C 0).pc = x.pc + 1) ∧
    ((y 0x0D 0).ended = true ∧
      (u 0x0D 0).passes = t.passes.map (fun p => if p.ctx = c ∧ p.withdrawn = false then { p with released := true } else p)) ∧
    (x.r.es.getLsbD 9 = true → (y 0x0E 0).branch = some ⟨some x.r.er.toNat, true⟩ ∧ (y 0x0E 0).pc = x.pc + 1)

/-- LOOPS AND DELAY SLOTS (R138 to R140). The bundle in a branch's delay slot is followed by the target, with `INH` cleared
by `RTE`, after which a repeat that the error event broke into goes on; a body's last bundle begins the next iteration or ends the loop; a repeated bundle stays until its count runs
out; `EXIT` leaves the innermost loop for the bundle after its last. The bundle is four no-operations, or `EXIT`. -/
def Obligations.LoopsAndSlots : Prop :=
  ∀ (t : Tile) (c : Nat), c < 4 →
    let x := t.ctx c
    x.ldcr = none → x.pc + 2 < 8192 →
    let y := (runBundle t c 0).ctx c
    (∀ k rte, x.branch = some ⟨some k, rte⟩ → k < 8192 → x.rep = 0 → y.pc = k ∧ y.branch = none ∧ y.loops = x.loops ∧
      y.r.es = (if rte = true then x.r.es &&& 0xFDFF else x.r.es) ∧ y.rep = (if rte = true then x.repHeld else 0)) ∧
    (∀ l rest, x.branch = none → x.rep = 0 → x.loops = l :: rest → x.pc = l.last → 1 < l.left → l.first < 8192 →
      y.pc = l.first ∧ y.loops = { l with left := l.left - 1 } :: rest) ∧
    (∀ l, x.branch = none → x.rep = 0 → x.loops = [l] → x.pc = l.last → l.left ≤ 1 → y.pc = x.pc + 1 ∧ y.loops = []) ∧
    (∀ l rest, x.branch = none → x.rep = 0 → x.loops = l :: rest → x.pc ≠ l.last → y.pc = x.pc + 1 ∧ y.loops = x.loops) ∧
    (x.branch = none → 1 < x.rep → y.pc = x.pc ∧ y.rep = x.rep - 1 ∧ y.safe = false) ∧
    (x.branch = none → x.rep = 1 → x.loops = [] → y.pc = x.pc + 1 ∧ y.rep = 0) ∧
    (∀ l rest, x.branch = none → x.rep = 0 → x.loops = l :: rest → x.pc ≠ l.last →
      let z := (runBundle t c (9 * 2 ^ 59)).ctx c
      z.loops = rest ∧ z.branch = some ⟨some (l.last + 1), false⟩ ∧ z.pc = x.pc + 1)

/-- REGISTER OPERATIONS (R123, R127, R131, R137, R143). What the control operations on registers leave, in a context with
nothing pending: an address register that is written has its circular base set with it and its walk counter cleared;
`LDCR`'s value comes one bundle late, `STCR` stores the 32 bits that a control register reads as. -/
def Obligations.RegisterOperations : Prop :=
  ∀ (t : Tile) (c : Nat), c < 4 →
    let x := t.ctx c
    x.rep = 0 → x.branch = none → x.loops = [] → x.ldcr = none → x.pc + 2 < 8192 →
    tabWf 0 x.r.a = true → tabWf 0 x.r.b = true → tabWf 0 x.r.c = true → tabWf 0 x.r.m = true → memWf t.loc = true →
    let u := fun (cop o : Nat) => runBundle t c (cop * 2 ^ 59 + o * 2 ^ 44)
    let y := fun (cop o : Nat) => (u cop o).ctx c
    let sets := fun (z : Ctx) (n : Nat) (v : BitVec 20) =>
      look 0 z.r.a n = v ∧ look 0 z.r.b n = v ∧ look 0 z.r.c n = 0 ∧ z.pc = x.pc + 1 ∧ z.r.d = x.r.d ∧
        ∀ k, k ≠ n → look 0 z.r.a k = look 0 x.r.a k ∧ look 0 z.r.b k = look 0 x.r.b k ∧ look 0 z.r.c k = look 0 x.r.c k
    (∀ n v, n < 8 → v < 4096 → sets (y 0x0F (n * 2 ^ 12 + v)) n (BitVec.ofNat 20 v)) ∧
    (∀ n v, n < 8 → v < 256 → sets (y 0x10 (n * 2 ^ 12 + v)) n (BitVec.ofNat 20 (x.r.areg n % 4096 + v * 4096))) ∧
    (∀ n v, n < 8 → v < 4096 → sets (y 0x11 (n * 2 ^ 12 + v)) n
      (BitVec.ofInt 20 (x.r.areg n + (if v < 2048 then (v : Int) else (v : Int) - 4096)))) ∧
    (∀ rd rs, rd < 8 → rs < 32 → sets (y 0x12 (rd * 2 ^ 10 + rs * 2 ^ 5)) rd ((ctlRead x rs).setWidth 20)) ∧
    (∀ k rs, k < 8 → rs < 32 → look 0 (y 0x12 ((8 + k) * 2 ^ 10 + rs * 2 ^ 5)).r.m k = ctlRead x rs) ∧
    (∀ rs, rs < 32 →
      let z := fun (rd : Nat) => (y 0x12 (rd * 2 ^ 10 + rs * 2 ^ 5)).r
      let v := ctlRead x rs
      (z 16).vexp = v.setWidth 16 ∧ (z 17).bexp = v.setWidth 4 ∧ (z 18).srTid = v ∧
      (z 19).srEidx = (x.r.srEidx &&& 0xFFFFFFFF00000000) ||| v.setWidth 64 ∧
      (z 20).srEidx = (x.r.srEidx &&& 0xFFFFFFFF) ||| (v.setWidth 64 <<< 32) ∧ (z 21).srStep = v ∧
      (z 22).mxsa = v.setWidth 19 ∧ (z 23).evb = v.setWidth 13 ∧ (z 24).emask = v.setWidth 4 ∧ (z 25).er = v.setWidth 13 ∧
      (z 26).es = v.setWidth 16 &&& 0xF23F ∧ (z 27).cstat = v.setWidth 3) ∧
    (∀ q n inc, q < 28 → n < 8 → inc < 2 → x.r.areg n % 4 = 0 → x.r.areg n < 0x10000 →
      let z := y 0x13 (q * 2 ^ 10 + n * 2 ^ 7 + inc * 2 ^ 6)
      z.ldcr = some (q, BitVec.ofNat 32 (ofLe (rdBytes t.loc (0x90000 + x.r.areg n) 4))) ∧
      z.r.areg n = x.r.areg n + 4 * inc) ∧
    (∀ q n inc, q < 32 → n < 8 → inc < 2 → x.r.areg n % 4 = 0 → x.r.areg n < 0x10000 →
      let v := u 0x14 (q * 2 ^ 10 + n * 2 ^ 7 + inc * 2 ^ 6)
      rdBytes v.loc (0x90000 + x.r.areg n) 4 = leBytes 4 (ctlRead x q).toNat ∧
      (∀ a, (a < 0x90000 + x.r.areg n ∨ 0x90000 + x.r.areg n + 4 ≤ a) → rdByte v.loc a = rdByte t.loc a) ∧
      (v.ctx c).r.areg n = x.r.areg n + 4 * inc) ∧
    (y 0x15 0).r.bexp = 15 ∧
    (∀ v, v < 2 → (y 0x16 v).r.cstat = (x.r.cstat &&& 6) ||| BitVec.ofNat 3 v) ∧
    (∀ v, v < 4096 → (y 0x17 v).r.vexp =
      BitVec.ofInt 16 (x.r.vexp.toInt + (if v < 2048 then (v : Int) else (v : Int) - 4096))) ∧
    (∀ (q : Nat) (w : Word), ((runBundle (t.setCtx c { x with ldcr := some (q, w) }) c 0).ctx c).r =
      { ctlWrite x.r q w with accPrevA := x.r.accA, accPrevB := x.r.accB, aPrev := (ctlWrite x.r q w).a })

/-- VECTOR OPERATIONS ON THE ACCUMULATORS (R120, R128, R143). Lane by lane, modulo 2^40: product, sum, difference, load,
shift; `NORM` works on the value from before the bundle before it. The other accumulator and the data registers stay. -/
def Obligations.AccumulatorOperations : Prop :=
  ∀ (t : Tile) (c s1 s2 q : Nat), c < 4 → s1 < 8 → s2 < 8 → q < 2 →
    let x := t.ctx c
    x.rep = 0 → x.branch = none → x.loops = [] → x.ldcr = none → x.pc + 2 < 8192 →
    let a := x.r.dreg s1
    let b := x.r.dreg s2
    let acc := if q = 1 then x.r.accB else x.r.accA
    let old := if q = 1 then x.r.accPrevB else x.r.accPrevA
    let y := fun (op f : Nat) => (runBundle t c (op * 2 ^ 38 + (f + q * 2 ^ 7) * 2 ^ 24)).ctx c
    let gives := fun (z : Ctx) (l : List (BitVec 40)) =>
      (if q = 1 then z.r.accB else z.r.accA) = l ∧
      (if q = 1 then z.r.accA else z.r.accB) = (if q = 1 then x.r.accA else x.r.accB) ∧
      z.r.accPrevA = x.r.accA ∧ z.r.accPrevB = x.r.accB ∧ z.r.d = x.r.d ∧ z.r.a = x.r.a ∧ z.r.w = x.r.w ∧ z.pc = x.pc + 1
    let f := s1 * 2 ^ 11 + s2 * 2 ^ 8
    let p := List.zipWith (fun (v w : BitVec 16) => BitVec.ofInt 40 (v.toInt * w.toInt)) a b
    let l : List (BitVec 40) := a.map (fun (v : BitVec 16) => (v.signExtend 40 : BitVec 40) <<< 15)
    gives (y 0x00 0) acc ∧
    gives (y 0x01 f) p ∧
    gives (y 0x02 f) (List.zipWith (fun v w => v + w) acc p) ∧
    gives (y 0x03 f) (List.zipWith (fun v w => v - w) acc p) ∧
    gives (y 0x04 f) l ∧
    gives (y 0x05 f) (List.zipWith (fun v w => v + w) acc l) ∧
    gives (y 0x06 f) (List.zipWith (fun v w => v - w) acc l) ∧
    (∀ k, k < 32 → gives (y 0x07 (k * 2 ^ 8)) (acc.map (fun (v : BitVec 40) => v <<< k))) ∧
    (∀ k, 1 ≤ k → k ≤ 32 → gives (y 0x07 ((64 - k) * 2 ^ 8)) (acc.map (fun (v : BitVec 40) => v.sshiftRight k))) ∧
    gives (y 0x0A f) (List.zipWith (fun (v : BitVec 40) (d : BitVec 16) =>
      let k : Int := d.toInt - 9
      if 0 ≤ k then v <<< (Nat.min k.toNat 39) else v.sshiftRight (Nat.min (-k).toNat 39)) old a)

/-- VECTOR OPERATIONS ON DATA REGISTERS (R128 to R131, R143). `VADD`, `VSUB`, `VNEG` and `ACRD` fit exact integers to 16
bits under the saturation mode, `QSAT` set when one lies outside; `VASR` and `ACRD` round to nearest, ties to even; `DET`
lowers `BEXP` to the fewest redundant sign bits written. -/
def Obligations.DataRegisterOperations : Prop :=
  ∀ (t : Tile) (c s1 s2 dd q det : Nat), c < 4 → s1 < 8 → s2 < 8 → dd < 8 → q < 2 → det < 2 →
    let x := t.ctx c
    x.rep = 0 → x.branch = none → x.loops = [] → x.ldcr = none → x.pc + 2 < 8192 → tabWf lanes0 x.r.d = true →
    let a := x.r.dreg s1
    let b := x.r.dreg s2
    let old := if q = 1 then x.r.accPrevB else x.r.accPrevA
    let y := fun (op : Nat) =>
      (runBundle t c (op * 2 ^ 38 + (s1 * 2 ^ 11 + s2 * 2 ^ 8 + q * 2 ^ 7 + dd * 2 ^ 4 + det * 2 ^ 3) * 2 ^ 24)).ctx c
    let low := fun (l : List (BitVec 16)) => l.foldl (fun m v => Nat.min m (rsb 16 v.toInt)) x.r.bexp.toNat
    let writes := fun (z : Ctx) (l : List (BitVec 16)) (sat : Bool) =>
      z.r.dreg dd = l ∧ (∀ k, k ≠ dd → z.r.dreg k = x.r.dreg k) ∧
      z.r.cstat = x.r.cstat ||| (if sat = true then 2 else 0) ∧
      z.r.bexp = (if det = 1 then BitVec.ofNat 4 (low l) else x.r.bexp) ∧
      z.r.accA = x.r.accA ∧ z.r.accB = x.r.accB ∧ z.r.a = x.r.a ∧ z.pc = x.pc + 1
    let fits := fun (z : Ctx) (l : List Int) =>
      writes z (l.map (fun v =>
        if x.r.cstat.getLsbD 0 = true then BitVec.ofInt 16 (max (-32768) (min 32767 v)) else BitVec.ofInt 16 v))
        (l.any (fun v => decide (v < -32768) || decide (32767 < v)))
    fits (y 0x08) (old.map (fun v => rneShift v.toInt (15 + s2))) ∧
    writes (y 0x09) (old.map (fun v => BitVec.ofNat 16 (rsb 40 v.toInt))) false ∧
    fits (y 0x0B) (List.zipWith (fun v w => v.toInt + w.toInt) a b) ∧
    fits (y 0x0C) (List.zipWith (fun v w => v.toInt - w.toInt) a b) ∧
    fits (y 0x0D) (a.map (fun v => -v.toInt)) ∧
    writes (y 0x0E) (a.map (fun v => BitVec.ofInt 16 (rneShift v.toInt s2))) false ∧
    writes (y 0x0F) a false

/-- WIDE OPERATIONS (R104, R110, R121, R133 to R136). `CRD` takes the context's oldest row; with none queued and one still due it
waits, changing nothing else. `BFC` gives one block-floating vector with the shared exponent of the largest finite
magnitude, and `FLT` the exact values D[S1] x 2^VEXP. `CST` stores the 32 lanes as elements of the format it names, of one
byte or more each, rounded as it asks; a stochastic one draws by tensor, element and step, and moves `SR_EIDX`; the number
of outputs out of range is recorded in `TILE_ARR_OVF`. -/
def Obligations.WideOperations : Prop :=
  ∀ (t : Tile) (c s1 dd det : Nat), c < 4 → s1 < 8 → dd < 8 → det < 2 →
    let x := t.ctx c
    x.rep = 0 → x.branch = none → x.loops = [] → x.ldcr = none → x.pc + 2 < 8192 → tabWf lanes0 x.r.d = true →
    let u := fun (op : Nat) => runBundle t c (op * 2 ^ 38 + (s1 * 2 ^ 11 + dd * 2 ^ 4 + det * 2 ^ 3) * 2 ^ 24)
    let y := fun (op : Nat) => (u op).ctx c
    (∀ r, t.crq.find? (fun q => q.ctx == c) = some r →
      (y 0x10).r.w = r.vals ∧ (y 0x10).pc = x.pc + 1 ∧ (u 0x10).crq.length + 1 = t.crq.length ∧
      (u 0x10).crq.filter (fun q => q.ctx != c) = t.crq.filter (fun q => q.ctx != c)) ∧
    (t.crq.find? (fun q => q.ctx == c) = none → t.passes.any (fun p => p.ctx == c && p.rowsDue) = true →
      u 0x10 = t.setCtx c { x with waitCrd := true }) ∧
    (let z := y 0x11
     let top := aMax (x.r.w.map decode48)
     let e : Int := if top.1 = 0 then 0 else expOf top.1 top.2 + 1 - 15
     z.r.vexp = BitVec.ofInt 16 e ∧ z.r.w = x.r.w ∧
     z.r.dreg dd = x.r.w.map (fun v => match decode48 v with
       | .nan => 0
       | .inf neg => if neg = true then 0x8000 else 0x7FFF
       | .fin neg m q =>
         let k := roundTo .rne m q e
         if neg = true then BitVec.ofInt 16 (-(k : Int)) else BitVec.ofNat 16 (Nat.min k 32767)) ∧
     z.r.cstat = x.r.cstat ||| (if x.r.w.any (fun v => !(decode48 v).isFin) = true then 4 else 0)) ∧
    (y 0x12).r.w = (x.r.dreg s1).map (fun d =>
      if d = 0 then 0 else encode48 (decide (d.toInt < 0)) d.toInt.natAbs x.r.vexp.toInt) ∧
    (y 0x12).r.d = x.r.d ∧
    (∀ code fmt rnd n, code < 64 → Fmt.ofCode code = some fmt → fmt.isMx = false → fmt.bits % 8 = 0 → 0 < fmt.bits →
      rnd < 3 → n < 8 → x.r.areg n % 64 = 0 → x.r.areg n + 4 * fmt.bits ≤ 0x80000 →
      let z := runBundle t c ((0x13 * 2 ^ 14 + code * 2 ^ 8 + rnd * 2 ^ 6 + n * 2 ^ 3) * 2 ^ 24)
      let j := t.job.getD {}
      let how := fun (i : Nat) => if rnd = 0 then Rnd.rne else if rnd = 1 then .zero else
        .stoch (srWord j.sessSeed j.schedSeed j.counter x.r.srTid.toNat ((x.r.srEidx.toNat + i) % 2 ^ 64))
      z.loc = wrBytes t.loc (x.r.areg n) ((List.range 32).flatMap (fun i =>
        leBytes (fmt.bits / 8) (convert fmt (how i) (decode48 (x.r.w.getD i 0))).1)) ∧
      z.r.lastCount = ((List.range 32).filter (fun i => (convert fmt (how i) (decode48 (x.r.w.getD i 0))).2)).length ∧
      (z.ctx c).r.srEidx = (if rnd = 2 then x.r.srEidx + x.r.srStep.signExtend 64 else x.r.srEidx) ∧
      (z.ctx c).r.w = x.r.w ∧ (z.ctx c).pc = x.pc + 1)

/-- MOVES (R125 to R127). With a linear or no modifier in use, each kind of move transfers one vector of 64 bytes at An and,
with `UPD`, advances An by `INC`; a store writes exactly those bytes. In circular mode the advance wraps in the buffer that
starts at Bn; in the two walking modes the address comes from the reversed counter, which alone advances. -/
def Obligations.Moves : Prop :=
  ∀ (t : Tile) (c d n upd : Nat), c < 4 → d < 8 → n < 8 → upd < 2 →
    let x := t.ctx c
    x.rep = 0 → x.branch = none → x.loops = [] → x.ldcr = none → x.pc + 2 < 8192 → tabWf lanes0 x.r.d = true →
    tabWf 0 x.r.a = true → tabWf 0 x.r.c = true → modOk x.r n = true → eaOf x.r n % 64 = 0 →
    let ea := eaOf x.r n
    let f := fun (kind : Nat) => kind * 2 ^ 10 + d * 2 ^ 7 + n * 2 ^ 4 + upd * 2 ^ 3
    let ux := fun (kind : Nat) => runBundle t c (f kind * 2 ^ 12)
    let uy := fun (kind : Nat) => runBundle t c (f kind)
    let steps := fun (z : Ctx) =>
      (upd = 0 → z.r.a = x.r.a ∧ z.r.c = x.r.c) ∧
      (upd = 1 → modOf x.r n < 2 → z.r.c = x.r.c ∧ advOf x.r n = .a (look 0 z.r.a n)) ∧
      (upd = 1 → 2 ≤ modOf x.r n → z.r.a = x.r.a ∧ advOf x.r n = .c (look 0 z.r.c n)) ∧
      z.r.b = x.r.b ∧ z.pc = x.pc + 1
    let loads := fun (u : Tile) (base : Nat) =>
      (u.ctx c).r.dreg d = (List.range 32).map (fun k => BitVec.ofNat 16 (ofLe (rdBytes t.loc (base + ea + 2 * k) 2))) ∧
      u.loc = t.loc ∧ steps (u.ctx c)
    let stores := fun (u : Tile) (base : Nat) =>
      u.loc = wrBytes t.loc (base + ea) ((x.r.dreg d).flatMap (fun v => leBytes 2 v.toNat)) ∧ (u.ctx c).r.d = x.r.d ∧
      steps (u.ctx c)
    (ea < 0x10000 → loads (ux 1) 0x90000 ∧ stores (ux 2) 0x90000 ∧ loads (uy 1) 0xA0000 ∧ stores (uy 2) 0xA0000) ∧
    (ea < 0x80000 → loads (ux 3) 0 ∧ stores (uy 3) 0)

/-- ADVANCES (R127). Linear: An + `INC` modulo 2^20. Circular: from An in the buffer and |`INC`| at most its length, An
moves inside it. Walking: the counter moves modulo 2^k, and the address it gives is An plus 64 times the counter's bits, or
its base-4 digits, in reverse. -/
def Obligations.Advances : Prop :=
  ∀ (r : CtxRegs) (n : Nat), n < 8 →
    let m := (look 0 r.m n).toNat
    let inc : Int := if m % 2 ^ 20 < 2 ^ 19 then (m % 2 ^ 20 : Nat) else (m % 2 ^ 20 : Nat) - (2 ^ 20 : Int)
    let k := m / 2 ^ 20 % 2 ^ 10
    let a := r.areg n
    let b := (look 0 r.b n).toNat
    let w := (look 0 r.c n).toNat
    (m / 2 ^ 30 = 0 → eaOf r n = a ∧ advOf r n = .a (BitVec.ofInt 20 (a + inc))) ∧
    (m / 2 ^ 30 = 1 → eaOf r n = a ∧
      (b ≤ a → a < b + (k + 1) * 64 → -((k + 1) * 64 : Int) ≤ inc → inc ≤ ((k + 1) * 64 : Int) →
        advOf r n = .a (BitVec.ofInt 20 (b + ((a : Int) - b + inc) % ((k + 1) * 64 : Int))))) ∧
    (m / 2 ^ 30 = 2 → 1 ≤ k → k ≤ 12 → eaOf r n = (a + revBits k (w % 2 ^ k) * 64) % 2 ^ 20 ∧
      advOf r n = .c (BitVec.ofNat 12 (((w : Int) + inc) % (2 ^ k : Int)).toNat)) ∧
    (m / 2 ^ 30 = 3 → 1 ≤ k → k ≤ 12 → k % 2 = 0 → eaOf r n = (a + revDigits (k / 2) (w % 2 ^ k) * 64) % 2 ^ 20 ∧
      advOf r n = .c (BitVec.ofNat 12 (((w : Int) + inc) % (2 ^ k : Int)).toNat)) ∧
    ∀ j v i, i < j → (revBits j v).testBit i = v.testBit (j - 1 - i)

/-- THE ERROR EVENT (R137, R142). A bundle with a reserved control code, whatever its other fields hold, changes no register
but `ES`, and no memory. Enabled and outside a handler, event 0 is taken at once with the next bundle's address in `ER`;
otherwise the context ends, `FATAL` is set and the passes it has not released are withdrawn. `TILE_SEQ_ERR` keeps the first
error. -/
def Obligations.ErrorEvent : Prop :=
  ∀ (t : Tile) (c w : Nat), c < 4 → 0x18 ≤ w / 2 ^ 59 → w < 2 ^ 64 →
    let x := t.ctx c
    x.rep = 0 → x.branch = none → x.loops = [] → x.ldcr = none → x.pc + 1 < 8192 →
    let u := runBundle t c w
    let y := u.ctx c
    u.loc = t.loc ∧ u.crq = t.crq ∧ y.r.d = x.r.d ∧ y.r.a = x.r.a ∧ y.r.accA = x.r.accA ∧ y.r.w = x.r.w ∧
    u.r.err = true ∧
    (u.r.cause, u.r.errCtx, u.r.errPc) = (if t.r.valid = true then (t.r.cause, t.r.errCtx, t.r.errPc) else (1, c, x.pc)) ∧
    (x.r.emask.getLsbD 0 = true ∧ x.r.es.getLsbD 9 = false →
      y.r.er = BitVec.ofNat 13 (x.pc + 1) ∧ y.pc = x.r.evb.toNat ∧ y.r.es = (x.r.es &&& 0x0FCE) ||| 0x1200 ∧
      u.passes = t.passes ∧ u.r.fatal = t.r.fatal) ∧
    (¬ (x.r.emask.getLsbD 0 = true ∧ x.r.es.getLsbD 9 = false) →
      y.ended = true ∧ u.r.fatal = true ∧ y.r.es = (x.r.es &&& 0x0FFF) ||| 0x1001 ∧
      u.passes = t.passes.map (fun p => if p.ctx = c ∧ p.released = false then { p with withdrawn := true } else p))

/-- WIDE VALUES (R92, R93). Encoding what a WA48 word stands for gives that word again, for every finite word that is not
a zero. -/
def Obligations.WideRoundTrip : Prop :=
  ∀ (w : BitVec 48) (neg : Bool) (m : Nat) (q : Int), decode48 w = .fin neg m q → m ≠ 0 → encode48 neg m q = w

/-! Streams, memory and failing units (06, 07, 13). -/

/-- STREAMS (R146, R153, R160, R165 to R167, R169, R171, R172, R177, R210). In a mesh cycle every armed stream of the region,
past the rows that null indices skip, reports its time-to-empty, and with no access held the eligible inbound stream with the
smallest one is granted a burst.
A burst to device memory is written where its row lies, and a row that ends is recorded. An index out of range sets
`IDX_RANGE`, stops the stream and its session's step. A ring's end sets `DONE` and makes the shadow present. The watchdog
sets `STALL` in every stream whose wait has reached the limit and aborts the one armed last. -/
def Obligations.StreamEvents : Prop :=
  (∀ (s : State) (r left : Nat), s.canon → s.engineOn r = true → s.clamped r = false →
    let u := (List.range 32).foldl (fun (s : State) n => s.skipRows r n) s
    Answers (exec (.sheepdogGrant r left) s) (fun t =>
      t.mem = s.mem ∧ t.tiles = s.tiles ∧ (∀ q n, q ≠ r → t.stream q n = s.stream q n) ∧
      (∀ n, n < 32 → (s.stream r n).ring.isSome = true → (t.stream r n).r.tte = u.tteOf r n left) ∧
      ∀ a, (∀ n b, n < 32 → (u.nextBurst r n).1 ≠ .held b) → a ∈ u.candidates r false →
        (∀ m ∈ u.candidates r false, u.tteOf r a left ≤ u.tteOf r m left ∧ (m < a → u.tteOf r a left < u.tteOf r m left)) →
        (s.stream r a).grants < (t.stream r a).grants)) ∧
  (∀ (s : State) (r n : Nat) (g : Ring) (b : Burst) (rest : List Burst) (h : Home), s.canon → s.engineOn r = true → n < 32 →
    (s.stream r n).ring = some g → (s.stream r n).staged = b :: rest → s.homeOf g = some h → b.skip = false →
    b.bus = false → b.memUe = false → b.badIdx = false →
    let d := h.desc g b.desc
    let at_ := d.dstOff + b.start / d.rowBytes * d.dstStride
    let off := b.start % d.rowBytes
    d.dst = 0 → d.kind ≠ 2 → d.kind ≠ 3 → d.narrow = false → 0 < d.rowBytes → 0 < b.data.length →
    off + b.data.length ≤ d.rowBytes → s.tierHeld (h.tensor d.dstTensor) = false →
    s.waits (h.tensor d.dstTensor + (at_ + off)) b.data.length = false →
    s.meets r (.memory (h.tensor d.dstTensor)) (at_ + off) b.data.length = .fine →
    Answers (exec (.burstDelivery r n) s) (fun t =>
      t.mem = wrBytes s.mem (h.tensor d.dstTensor + at_ + off) b.data ∧ (t.stream r n).staged = rest ∧
      (off + b.data.length = d.rowBytes →
        look 0 t.tick.cdig h.cluster = look 0 s.tick.cdig h.cluster ^^^
          digestRec (blockIndex false d.dstTensor at_) ((s.stream r n).rowBuf ++ b.data)) ∧
      t.tiles = s.tiles ∧ ∀ q m, (q ≠ r ∨ m ≠ n) → t.stream q m = s.stream q m)) ∧
  (∀ (s : State) (r n : Nat) (g : Ring) (b : Burst) (rest : List Burst) (h : Home), s.canon → s.engineOn r = true → n < 32 →
    (s.stream r n).ring = some g → (s.stream r n).staged = b :: rest → s.homeOf g = some h → b.skip = false →
    b.badIdx = true →
    Answers (exec (.burstDelivery r n) s) (fun t =>
      (t.stream r n).ring = none ∧ (t.stream r n).stopped = true ∧ (t.flags (.strmErr r n)).getLsbD 28 = true ∧
      t.mem = s.mem ∧ ∀ x run, s.session g.sess = some x → x.running = some run → run.stop = none →
        ∃ y, t.session g.sess = some y ∧ y.running = some { run with stop := some 0xF })) ∧
  (∀ (s : State) (r n : Nat), s.canon → s.engineOn r = true → n < 32 → (s.stream r n).ringDone = true →
    Answers (exec (.ringComplete r n) s) (fun t =>
      (t.flags (.strmStatus r n)).getLsbD 26 = true ∧ (t.stream r n).shadow = none ∧ (t.stream r n).staged = [] ∧
      (t.stream r n).ring = (s.stream r n).shadow.map (fun g => { g with seq := s.tick.armSeq }) ∧
      (t.stream r n).dDesc = 0 ∧ t.mem = s.mem ∧ ∀ q m, (q ≠ r ∨ m ≠ n) → t.stream q m = s.stream q m)) ∧
  (∀ (s : State) (r : Nat) (reached : List Nat), s.engineOn r = true → s.stalled r reached = [] →
    exec (.stallWatchdog r reached) s = .next s) ∧
  (∀ (s : State) (r v : Nat) (reached : List Nat) (g : Ring), s.canon → s.engineOn r = true → v ∈ s.stalled r reached →
    (s.stream r v).ring = some g →
    (∀ m h, m ∈ s.stalled r reached → m ≠ v → (s.stream r m).ring = some h →
      h.tick < g.tick ∨ h.tick = g.tick ∧ h.seq < g.seq) →
    Answers (exec (.stallWatchdog r reached) s) (fun t =>
      (t.stream r v).ring = none ∧ (t.stream r v).stopped = true ∧ (t.flags (.strmErr r v)).getLsbD 29 = true ∧
      (∀ m, m ∈ s.stalled r reached → (t.flags (.strmErr r m)).getLsbD 30 = true ∧
        (t.stream r m).stallCnt = (s.stream r m).stallCnt + 1 ∧ (m ≠ v → (t.stream r m).ring = (s.stream r m).ring)) ∧
      t.mem = s.mem))

/-- THE HOST'S MEMORY ACCESSES (R180, R190, R191, R195, R198, R324, R325, R400). An address that no committed decoder maps
reads as all-ones, poisoned, and sets `UNMAPPED`; a write to it does so too and changes no memory. Decoder 0 maps the HBM
window. A served write puts its bytes at the device address and a served read returns what is there; an access that has to
wait is held, and a tier in self-refresh begins its exit; a frozen controller drops a write and poisons a read; in a shadow
pair the secondary drops its host's write and sets a flag, and the primary forwards its host's with a tag of the tick after
the present one. Every write completes at once, but for one that is forwarded and not yet acknowledged. -/
def Obligations.HostMemory : Prop :=
  (∀ (s : State) (h n : Nat), s.cxl.dec0.committed = true → s.cxl.dec0.base ≤ h →
    h + n ≤ s.cxl.dec0.base + 0x139C0000000 → s.hdm h n = some (h - s.cxl.dec0.base)) ∧
  (∀ (s : State) (h n : Nat), s.memPort = true → s.hdm h n = none →
    exec (.hostMemRead h n) s = .next { s.raise .memPkg 0x80000000 with
      out := { s.out with readData := List.replicate n 0xFF, poisoned := true } }) ∧
  (∀ (s : State) (h : Nat) (b : List Byte), s.memPort = true → s.hdm h b.length = none →
    exec (.hostMemWrite h b) s = .next { s.raise .memPkg 0x80000000 with
      out := { s.out with writesDone := s.out.writesDone + 1 } }) ∧
  (∀ (s : State) (h n a : Nat), s.memPort = true → s.hdm h n = some a → s.waits a n = false → s.served a n = true →
    Answers (exec (.hostMemRead h n) s) (fun t =>
      t.out.readData = rdBytes s.mem a n ∧ t.out.poisoned = false ∧ t.mem = s.mem ∧ t.tiles = s.tiles ∧ t.sess = s.sess)) ∧
  (∀ (s : State) (h n a : Nat), s.memPort = true → s.hdm h n = some a → s.frozenAt a n = true →
    Answers (exec (.hostMemRead h n) s) (fun t => t.out.poisoned = true ∧ t.mem = s.mem)) ∧
  (∀ (s : State) (h a : Nat) (b : List Byte), s.memPort = true → s.hdm h b.length = some a → s.pair.shadow = false →
    s.waits a b.length = false → (s.ctlsOf a b.length).all s.ctlOn = true →
    Answers (exec (.hostMemWrite h b) s) (fun t =>
      t.mem = (if s.frozenAt a b.length = true then s.mem else wrBytes s.mem a b) ∧ t.tiles = s.tiles ∧ t.sess = s.sess ∧
      t.out.writesDone = s.out.writesDone + 1)) ∧
  (∀ (s : State) (h n a : Nat), s.memPort = true → s.hdm h n = some a → s.waits a n = true → s.frozenAt a n = false →
    Answers (exec (.hostMemRead h n) s) (fun t =>
      t.mpk.held = s.mpk.held ++ [{ kind := .read, addr := a, len := n }] ∧
      (s.tierHeld a = true → (t.tier (isLp a)).leaving = true) ∧ t.out = s.out ∧ t.mem = s.mem)) ∧
  (∀ (s : State) (h a : Nat) (b : List Byte), s.memPort = true → s.hdm h b.length = some a → s.pair.shadow = false →
    s.waits a b.length = true → s.frozenAt a b.length = false →
    Answers (exec (.hostMemWrite h b) s) (fun t =>
      t.mpk.held = s.mpk.held ++ [{ kind := .write, addr := a, len := b.length, data := b }] ∧
      (s.tierHeld a = true → (t.tier (isLp a)).leaving = true) ∧ t.mem = s.mem)) ∧
  (∀ (s : State) (h a : Nat) (b : List Byte), s.memPort = true → s.hdm h b.length = some a → s.pair.shadow = true →
    (s.pair.role = 2 → Answers (exec (.hostMemWrite h b) s) (fun t => t.mem = s.mem ∧
      (t.flags .pairState).getLsbD 21 = true ∧ t.pair = { s.pair with secWrite := true })) ∧
    (s.pair.role = 1 → Answers (exec (.hostMemWrite h b) s) (fun t => t.mem = s.mem ∧
      t.pair.seq = s.pair.seq + 1 ∧ t.out = s.out ∧
      let f : Forwarded := { seq := s.pair.seq + 1, tag := s.tick.count + 1, input := .write a b }
      t.pair.inputs = s.pair.inputs ++ [f] ∧ t.pair.unacked = s.pair.unacked ++ [f])))

/-- MEMORY EVENTS (R187, R191, R194 to R198, R369). A refresh is counted. A tier leaves self-refresh and serves what it
held, or enters it again while parked. The ingress buffer drains its oldest data, its tier being awake. A pseudo-channel at its threshold begins
to retire, or with four gone its stack freezes; each page copied moves the retirement on and the last ends it. A frozen
controller notes the sector and the kind of its error, every running step stops, and a reader's with its own code. A
cluster buffer's uncorrectable error stops the steps on its cluster, which retires at the next boundary. -/
def Obligations.MemoryEvents : Prop :=
  (∀ (s : State) (n : Nat), s.ctlServes n = true → (s.tier (decide (16 ≤ n))).inSr = false →
    (s.tier (decide (16 ≤ n))).leaving = false →
    exec (.refresh n) s = .next (s.setCtl n (fun c => { c with refreshes := c.refreshes + 1 }))) ∧
  (∀ (s : State) (lp : Bool), (s.tier lp).leaving = true → s.clk.hold = false →
    Answers (exec (.selfRefreshExitComplete lp) s) (fun t =>
      t.tier lp = {} ∧ t.tier (!lp) = s.tier (!lp) ∧ (∀ h ∈ t.mpk.held, h ∈ s.mpk.held) ∧
      ∀ h, s.mpk.held = [h] → h.kind = .write → isLp h.addr = lp → s.mpk.panic = false →
        let u := (s.setTier lp {}).gateTier lp true
        t.mpk.held = [] ∧ (u.served h.addr h.data.length = true → t.mem = wrBytes s.mem h.addr h.data))) ∧
  (∀ (s : State) (lp : Bool), s.dev.stage = 3 → (s.tier lp).inSr = false → (s.tier lp).leaving = false →
    Answers (exec (.selfRefreshReentry lp) s) (fun t =>
      t.tier lp = { inSr := true } ∧ t.tier (!lp) = s.tier (!lp) ∧ t.mem = s.mem)) ∧
  (∀ (s : State) (a : Nat) (b : List Byte) (rest : List (Nat × List Byte)), s.mpk.ingress = (a, b) :: rest →
    (s.tierHeld a = true → exec .ingressDrain s = .next (s.startExit a)) ∧
    (s.tierHeld a = false → (s.ctlsOf a b.length).all s.ctlOn = true →
    Answers (exec .ingressDrain s) (fun t => t.mpk.ingress = rest ∧
      (s.mpk.held = [] → t.mem = (if s.frozenAt a b.length = true then s.mem else wrBytes s.mem a b)) ∧
      t.mpk.panic = (s.mpk.panic && decide (65536 ≤ t.ingressFill))))) ∧
  (∀ (s : State) (stack pc addr : Nat), s.canon → s.mayRetire stack pc = true →
    Answers (exec (.pseudoChannelRetirement stack pc addr) s) (fun t =>
      if s.pcsFull = true then (t.memCtl stack).frozen = true
      else (∃ v, t.mpk.retiring = s.mpk.retiring ++ [{ stack := stack, pc := pc, page := 0, seed := v, mb := none }]) ∧
        (t.memCtl stack).retireBusy = true ∧ (t.memCtl stack).ceCount = (s.memCtl stack).ceCount + 1 ∧ t.mem = s.mem)) ∧
  (∀ (s : State) (stack pc : Nat) (j : RetireJob), s.canon → pc < 32 → s.copyWaits stack = false →
    s.retireJob stack pc = some j →
    Answers (exec (.retirePageCopy stack pc) s) (fun t => t.mem = s.mem ∧
      if j.page + 1 < 40960 then t.mpk.retired = s.mpk.retired ∧
        t.retireJob stack pc = some { j with page := j.page + 1 }
      else (∀ k ∈ t.mpk.retiring, k ≠ { j with page := j.page + 1 }) ∧
        t.mpk.retired = s.mpk.retired + 1 ∧ (t.memCtl stack).units.getLsbD pc = true)) ∧
  (∀ (s : State) (n addr : Nat) (cmd : Bool) (reader : Option (Nat × Nat)), s.canon → s.ctlServes n = true →
    Answers (exec (.controllerFreeze n addr cmd reader) s) (fun t =>
      (t.memCtl n).frozen = true ∧ (t.memCtl n).ueAddr = addr / 32 * 32 ∧ (t.memCtl n).ueCmd = cmd ∧
      (t.flags (.memStatus n)).getLsbD 25 = true ∧ t.mpk.retiring = [] ∧
      (s.mpk.panic = false → t.mem = s.mem ∧ (s.mpk.retiring = [] → ∀ k, k ≠ n → t.memCtl k = s.memCtl k)) ∧
      (s.pair.formed = true → t.pair.left = true ∧ t.sess = []) ∧
      (reader = none → s.pair.formed = false → ∀ id x run, s.session id = some x → x.running = some run → run.stop = none →
        ∃ y, t.session id = some y ∧ y.running = some { run with stop := some 0xF }) ∧
      (∀ r k g, reader = some (r, k) → r < 64 → k < 32 → (s.stream r k).ring = some g →
        (t.stream r k).ring = none ∧ (s.pair.formed = false →
        (t.flags (.strmErr r k)).getLsbD 26 = true ∧
        ∀ x run, s.session g.sess = some x → x.running = some run → run.stop = none →
          ∃ y, t.session g.sess = some y ∧ y.running = some { run with stop := some 0xC })))) ∧
  (∀ (s : State) (c : Nat), s.canon → s.bufServes c = true →
    Answers (exec (.clusterBufferUncorrectable c) s) (fun t =>
      (t.buf c).lost = true ∧ t.units.pend = s.units.pend ++ [.cluster c] ∧ t.mem = s.mem ∧
      ∀ id x run, s.session id = some x → x.running = some run → run.finish = none → run.begun = true → c ∈ run.live →
        run.stop = none → ∃ y, t.session id = some y ∧ y.running = some { run with stop := some 0xF }))

/-- FAILED UNITS (R23, R25, R52, R58, R59, R368 to R370). A core that its watchdog finds silent, a mesh or bridge fault and
a fault of the tick source are marked, and a formed pair is left. A die or region that fails is fenced at once: gated, its
streams disarmed, its tiles emptied, its fabric isolated, its Rooster done. A tile that fails: the spare of its cluster is
out of service; an identity moves to the free mule, without its memory; with none free the cluster retires at the next
boundary and the step on it stops. -/
def Obligations.UnitFaults : Prop :=
  (∀ (s : State) (core : Nat), s.inService = true → core < 8 →
    Answers (exec (.watchdogExpiry core) s) (fun t => t.units.coreFail.getLsbD core = true ∧
      (s.pair.formed = true → t.pair.left = true ∧ t.sess = []) ∧ (s.pair.formed = false → t.sess = s.sess ∧ t.pair = s.pair))) ∧
  (∀ (s : State) (isle : Nat), s.inService = true → isle < 4 →
    Answers (exec (.isleMeshOrBridgeFault isle) s) (fun t => t.units.meshFault = true ∧
      (s.pair.formed = true → t.pair.left = true ∧ t.sess = []) ∧ (s.pair.formed = false → t.sess = s.sess ∧ t.pair = s.pair))) ∧
  (∀ s : State, s.inService = true →
    Answers (exec .tickSourceFault s) (fun t => t.units.tickFault = true ∧
      (s.pair.formed = true → t.pair.left = true ∧ t.sess = []) ∧ (s.pair.formed = false → t.sess = s.sess ∧ t.pair = s.pair))) ∧
  (∀ (s : State) (d : Nat), s.canon → s.inService = true → d < 32 → s.units.dieFenced.getLsbD d = false →
    s.pair.shadow = false →
    Answers (exec (.dieLinkFailure d) s) (fun t =>
      t.units.dieFenced.getLsbD d = true ∧ t.mem = s.mem ∧
      ∀ r, r / 2 = d → s.units.fenced r = false → t.gateOf r = 0 ∧ t.tick.done.getLsbD r = true ∧
        (t.fabric r).isolated = true ∧ (∀ n, n < 32 → (t.stream r n).ring = none) ∧
        ∀ i, i / 36 = r → (t.tile i).job = none)) ∧
  (∀ (s : State) (r : Nat), s.canon → s.inService = true → r < 64 → s.units.fenced r = false → s.pair.shadow = false →
    Answers (exec (.regionUnitFailure r) s) (fun t =>
      t.units.fencedRegions.getLsbD r = true ∧ t.gateOf r = 0 ∧ t.tick.done.getLsbD r = true ∧ t.mem = s.mem ∧
      (s.units.fencedRegions.getLsbD (r ^^^ 1) = true → t.units.dieFenced.getLsbD (r / 2) = true) ∧
      (t.fabric r).isolated = true ∧ (∀ n, n < 32 → (t.stream r n).ring = none) ∧
      ∀ i, i / 36 = r → (t.tile i).job = none)) ∧
  (∀ (s : State) (slot : Nat), s.canon → s.tileMeets slot = true → s.units.retiredSlots.contains slot = false →
    s.units.retiredClusters.contains (slot / 9) = false → s.units.fenced (slot / 9 / 4) = false →
    (s.units.tileOf slot = none → Answers (exec (.tileUncorrectableError slot) s) (fun t =>
      t.units = { s.units with retiredSlots := s.units.retiredSlots ++ [slot] } ∧ t.tiles = s.tiles ∧ t.sess = s.sess)) ∧
    (∀ lt m, s.units.tileOf slot = some lt → s.units.mule (slot / 9) = some m → (s.units.places (slot / 9)).length = 8 →
      Answers (exec (.tileUncorrectableError slot) s) (fun t =>
        t.units.slotOf lt = 9 * (slot / 9) + m ∧ t.units.retiredSlots = s.units.retiredSlots ++ [slot] ∧
        t.units.pend = s.units.pend ∧ t.mem = s.mem ∧
        ∀ x run, s.userOf (slot / 9) = some (x, run) →
          ((x.imageOf run).carry = false → s.tick.active = true → look 0 t.tick.cdig (slot / 9) = 0))) ∧
    (∀ lt, s.units.tileOf slot = some lt → s.units.mule (slot / 9) = none →
      Answers (exec (.tileUncorrectableError slot) s) (fun t =>
        t.units.pend = s.units.pend ++ [.cluster (slot / 9)] ∧ t.units.place = s.units.place ∧ t.mem = s.mem ∧
        ∀ x run, s.userOf (slot / 9) = some (x, run) → s.session x.id = some x → run.stop = none →
          ∃ y, t.session x.id = some y ∧ y.running = some { run with stop := some 0xF })))

/-! Clocks, power and the fabric (09, 10, 14). -/

/-- CLOCKS AND POWER (R225, R379, R380, R385 to R396). A lost reference sets its flag and begins clock hold: passes are
discarded, the tick is held, every fabric region is isolated with set/reset asserted, the Strait lanes idle, both tiers
enter self-refresh. It ends at OP0. A qualification window lets start-up go on, fails it after 1 s, or finds both
references lost. A PLL that loses lock sends its trees to off. A mux ends its switch and begins the one queued; a forced
one is noted and resets its domain. A trip at 115 degrees does as clock hold does to passes and the tick. A sample sets
the clamp exactly when energy exceeds the envelope, and holds or releases dies by their sensors. A step that is ready moves
its region one operating point. -/
def Obligations.ClocksAndPower : Prop :=
  (∀ (s : State) (xtal ref : Bool), s.canon → s.watching = true → (xtal || ref) = true →
    Answers (exec (.referenceLoss xtal ref) s) (fun t =>
      (xtal = true → (t.flags .clkStatus).getLsbD 29 = true) ∧ (ref = true → (t.flags .clkStatus).getLsbD 28 = true) ∧
      t.dev.qualified = false ∧ (ref = true → t.cxl.up = false) ∧ t.mem = s.mem ∧
      (s.clk.hold = false → t.clk.hold = true ∧ t.dev.stage = 4 ∧ t.dev.held = s.dev.stage ∧
        t.mpk.hbm = { inSr := true } ∧ t.mpk.lp = { inSr := true } ∧ (s.tick.active = true → t.tick.held = true) ∧
        (∀ r, r < 64 → (t.fabric r).isolated = true ∧ (t.fabric r).gsr = true ∧ (t.region r).step = 0) ∧
        (∀ i, i < 2304 → (t.tile i).array = []) ∧
        ∀ l, l < 32 → (t.strLane l).idle = true ∧ (t.strLane l).up = false))) ∧
  (∀ s : State, s.canon → s.clk.hold = true → s.dev.qualified = true →
    Answers (exec .clockHoldExit s) (fun t =>
      t.clk.hold = false ∧ t.dev.stage = s.dev.held ∧ (s.dev.held ≠ 3 → t.mpk.hbm = {} ∧ t.mpk.lp = {}) ∧
      (∀ r, r < 64 → (t.region r).op = 0 ∧ (t.region r).target = 0 ∧ (t.region r).step = 0 ∧ (t.region r).locked = true) ∧
      (s.pair.formed = true → t.pair.left = true ∧ t.sess = []))) ∧
  (∀ (s : State) (ok late : Bool) (ppm : Int), s.dev.pwrGood = true → s.dev.phase ≠ .off →
    let u := { s with clk := { s.clk with ppm := ppm } }
    exec (.referenceQualification ok ppm late) s = .next (
      if s.dev.phase = .qualify then
        (if ok = true then { u with dev := { s.dev with qualified := true, phase := .boot, bootErr := 0 } }
        else if late = true then { u with dev := { s.dev with bootErr := 2 } } else u)
      else if ok = true then { u with dev := { s.dev with qualified := true } }
      else u.loseReference true 0x38000000)) ∧
  (∀ (s : State) (r k : Nat), s.canon → s.dev.pwrGood = true → r < 64 → k < 2 → (s.fabric r).pllLock.getLsbD k = true →
    Answers (exec (.pllLockLoss r k) s) (fun t =>
      (t.fabric r).pllLock.getLsbD k = false ∧ (t.fabric r).pllLock.getLsbD (1 - k) = (s.fabric r).pllLock.getLsbD (1 - k) ∧
      (∀ n, ((s.fabric r).tree n).switching = none → ((s.fabric r).tree n).queued = none →
        (t.fabric r).tree n = if ((s.fabric r).tree n).sel / 4 = k then
            { (s.fabric r).tree n with switching := some (15, ((s.fabric r).tree n).div) } else (s.fabric r).tree n) ∧
      ∀ q, q ≠ r → t.fabric q = s.fabric q)) ∧
  (∀ (s : State) (r k : Nat), s.canon → s.mayLock r k = true →
    Answers (exec (.pllLock r k) s) (fun t => t.fabric r =
      { s.fabric r with pllLock := (s.fabric r).pllLock ||| BitVec.ofNat 2 (2 ^ k) } ∧ ∀ q, q ≠ r → t.fabric q = s.fabric q)) ∧
  (∀ (s : State) (unit sel div : Nat), s.canon → s.dev.pwrGood = true → unit < 512 →
    ((s.fabric (unit / 8)).tree (unit % 8)).switching = some (sel, div) →
    let x := (s.fabric (unit / 8)).tree (unit % 8)
    let y := { x with sel := sel, div := div, switching := x.queued, queued := none, switches := x.switches + 1 }
    Answers (exec (.muxSwitchComplete 4 unit) s) (fun t => (t.fabric (unit / 8)).tree (unit % 8) = y) ∧
    Answers (exec (.muxForcedSwitch 4 unit) s) (fun t => (t.fabric (unit / 8)).tree (unit % 8) = y ∧
      (t.flags .clkStatus).getLsbD 30 = true ∧ t.clk.stuckDomain = 4 ∧ t.clk.stuckUnit = unit)) ∧
  (∀ (s : State) (domain unit : Nat), s.canon → s.dev.pwrGood = true → (domain = 1 ∧ unit < 4 ∨ domain = 3 ∧ unit < 64) →
    let n := look 0 s.clk.muxNext (muxKey domain unit)
    n ≠ 0 →
    Answers (exec (.muxSwitchComplete domain unit) s) (fun t =>
      look 0 t.clk.mux (muxKey domain unit) = n % 4 - 1 ∧ look 0 t.clk.muxNext (muxKey domain unit) = n / 4) ∧
    Answers (exec (.muxForcedSwitch domain unit) s) (fun t =>
      look 0 t.clk.mux (muxKey domain unit) = n % 4 - 1 ∧ look 0 t.clk.muxNext (muxKey domain unit) = n / 4 ∧
      (t.flags .clkStatus).getLsbD 30 = true ∧ t.clk.stuckDomain = domain ∧ t.clk.stuckUnit = unit ∧
      (domain = 1 → t.units.coreFail.getLsbD (2 * unit) = true ∧ t.units.coreFail.getLsbD (2 * unit + 1) = true) ∧
      (domain = 3 → ∀ i, i / 36 = unit → (t.tile i).array = []))) ∧
  (∀ (s : State) (die temp : Nat), s.canon → s.dev.pwrGood = true → 115 ≤ temp → s.pwr.inTrip = false →
    Answers (exec (.thermalTrip die temp) s) (fun t =>
      t.pwr.inTrip = true ∧ t.pwr.clamp = false ∧ (t.flags .pwrStatus).getLsbD 29 = true ∧ t.mem = s.mem ∧
      (s.tick.active = true → t.tick.held = true) ∧ (∀ r, (t.region r).step = 0) ∧
      ∀ i, i < 2304 → (t.tile i).array = [])) ∧
  (∀ s : State, s.canon → s.pwr.inTrip = true →
    Answers (exec .thermalTripRelease s) (fun t =>
      t.pwr.inTrip = false ∧ t.pwr.dieHold = 0 ∧ t.tiles = s.tiles ∧
      ∀ r, r < 64 → (t.region r).op = 0 ∧ (t.region r).step = 0 ∧ (t.region r).locked = true)) ∧
  (∀ (s : State) (p : PowerReading), s.dev.pwrGood = true →
    Answers (exec (.powerSample p) s) (fun t =>
      (s.metering = true → t.pwr.clamp = decide (s.pwr.envelope * p.elapsed < p.energy) ∧ t.pwr.energy = p.energy ∧
        (s.pwr.clamp = false → s.pwr.envelope * p.elapsed < p.energy → (t.flags .pwrStatus).getLsbD 30 = true)) ∧
      ∀ d c, p.dies = [(d, c)] → d < 32 → t.pwr.tjMax = c ∧
        t.pwr.dieHold.getLsbD d = (decide (105 ≤ c) || (s.pwr.dieHold.getLsbD d && decide (103 < c))) ∧
        (100 ≤ c → (t.flags .pwrStatus).getLsbD 28 = true))) ∧
  (∀ (s : State) (r : Nat), s.dev.pwrGood = true → r < 64 → s.clk.hold = false → s.pwr.inTrip = false →
    ((s.region r).step = 1 → exec (.stepReady r) s = .next (s.setRegion r (fun x =>
      { x with step := 2, locked := decide (x.target < x.op) }))) ∧
    ((s.region r).step ≠ 1 → (s.region r).locked = false →
      exec (.stepReady r) s = .next (s.setRegion r (fun x => { x with locked := true })))) ∧
  (∀ (s : State) (r : Nat), s.canon → s.tilesRun = true → r < 64 → (s.region r).step = 2 → s.clamped r = false →
    s.between r = true →
    Answers (exec (.stepApply r) s) (fun t =>
      (∀ q, q ≠ r → t.region q = s.region q) ∧ (t.region r).step = 0 ∧
      ((s.region r).target < (s.region r).op → (t.region r).op = (s.region r).op - 1 ∧ (t.region r).locked = false) ∧
      ((s.region r).op < (s.region r).target → (t.region r).op = (s.region r).op + 1 ∧ (t.region r).locked = true) ∧
      ((s.region r).op ≠ (s.region r).target → t.muxGoal (muxKey 3 r) = 1 - s.muxGoal (muxKey 3 r))))

/-- LOADING THE FABRIC (R249, R256 to R268). A verified segment's text joins what waits for dispatch and its key gives way
to the next one's; a bad tag fails the load. An intact record is taken: a frame goes to its region, the end record starts
the order of every region that has one and clears the rest. A damaged record is sent once more, and fails the load the
second time. The steps of a start-up order release the cells, set/reset and writes; the last one ends it; a late one is
isolated. Clearing ends with an empty region. -/
def Obligations.FabricLoading : Prop :=
  (∀ (s : State) (slot : Nat) (l : Load), s.canon → s.load slot = some l → l.takesSegment = true →
    let o := (l.segPlace l.seg).1
    let n := (l.segPlace l.seg).2
    let short := l.stream.length < o + n + 16 ∨ (l.short = true ∧ l.seg + 1 = l.segments)
    let text := gcmOpen l.key (leBytes 4 l.seg ++ zeroBytes 8) (l.aad l.seg) (slice l.stream o n) (slice l.stream (o + n) 16)
    (short → Answers (exec (.segmentVerify slot) s) (fun t => (t.flags .cfg).getLsbD 31 = true ∧
      ∀ r, l.covered.getLsbD r = true → s.fabGone r = false → (t.fabric r).clearing = true)) ∧
    (¬ short → text = none → Answers (exec (.segmentVerify slot) s) (fun t => (t.flags .cfg).getLsbD 30 = true ∧
      ∀ r, l.covered.getLsbD r = true → s.fabGone r = false → (t.fabric r).clearing = true)) ∧
    (∀ b, ¬ short → text = some b → Answers (exec (.segmentVerify slot) s) (fun t =>
      t.fab = s.fab ∧ t.load slot = some { l with
        seg := l.seg + 1, plain := l.plain ++ b,
        key := hkdf l.key (slice l.stream 0x20 32) (ascii "LQFAB-SEG" ++ leBytes 4 (l.seg + 1)) 32 }))) ∧
  (∀ (s : State) (slot : Nat) (l : Load) (intact : Bool), s.canon → s.load slot = some l → l.sees = true →
    let type := fld l.plain 0 1
    let r := fld l.plain 1 1
    let idx := fld l.plain 2 2
    let len := fld l.plain 4 4
    let right := decide (fld l.plain (8 + len) 4 = crc32c (l.plain.take (8 + len))) && intact
    (l.plain.length < 8 ∨ l.recordOk = false → Answers (exec (.recordDispatch slot intact) s) (fun t =>
      (t.flags .cfg).getLsbD 29 = true ∧
      ∀ q, l.covered.getLsbD q = true → s.fabGone q = false → (t.fabric q).clearing = true)) ∧
    (8 ≤ l.plain.length → l.recordOk = true → l.hasRecord = true → right = false →
      Answers (exec (.recordDispatch slot intact) s) (fun t =>
        if l.resent = true then (t.flags .cfg).getLsbD 28 = true
        else t.fab = s.fab ∧ t.load slot = some { l with resent := true })) ∧
    (8 ≤ l.plain.length → l.recordOk = true → l.hasRecord = true → right = true →
      Answers (exec (.recordDispatch slot intact) s) (fun t =>
        (type ≠ 0xF → ∃ m, t.load slot = some m ∧ m.plain = l.plain.drop (12 + len) ∧ m.records = l.records + 1 ∧
          m.used = l.used + 12 + len ∧ m.resent = false ∧ m.key = l.key) ∧
        (type = 2 → s.fabGone r = false → (∀ p, l.part r = some p → p.dropped = false) →
          t.fabric r = { s.fabric r with columns := put [] (s.fabric r).columns idx (slice l.plain 8 len) }) ∧
        (type = 3 → s.fabGone r = false → (∀ p, l.part r = some p → p.dropped = false) →
          t.fabric r = { s.fabric r with brams := put [] (s.fabric r).brams idx (slice l.plain 8 len) }) ∧
        (type = 0xF → ∀ q, l.covered.getLsbD q = true → s.fabGone q = false →
          (l.part q = none → (t.fabric q).clearing = true) ∧
          ∀ p, l.part q = some p → p.dropped = false → p.ctl = true →
            (t.fabric q).startup.running = true ∧ (t.fabric q).startup.order = fld p.trailer 0 1 ∧
            (t.fabric q).imageId = l.imageId)))) ∧
  (∀ (s : State) (r : Nat), s.canon → r < 64 → s.mayAct r = true →
    let u := (s.fabric r).startup
    Answers (exec (.startupAction r) s) (fun t =>
      (u.steps + 1 < 4 → (t.fabric r).startup = { u with steps := u.steps + 1 } ∧
        (t.fabric r).configured = (s.fabric r).configured) ∧
      (u.steps + 1 = 4 → (t.fabric r).startup = { u with steps := 4, done := true, running := false } ∧
        (t.fabric r).configured = true) ∧
      (t.fabric r).gsr = ((s.fabric r).gsr && u.action != 2) ∧
      (t.fabric r).writes = ((s.fabric r).writes || u.action == 3) ∧
      (t.fabric r).isolated = ((s.fabric r).isolated && u.action != 1) ∧
      (u.action = 1 → ∀ p, p < 8 → ((t.fabric r).port p).rxCred = ((s.fabric r).port p).rxDepth ∧
        ((t.fabric r).port p).txCred = 32 ∧ ((t.fabric r).port p).txBuf = []))) ∧
  (∀ (s : State) (r : Nat), s.canon → r < 64 → (s.fabric r).startup.running = true →
    Answers (exec (.startupTimeout r) s) (fun t =>
      (t.fabric r).isolated = true ∧ (t.fabric r).gsr = true ∧ (t.fabric r).writes = false ∧
      (t.fabric r).configured = false ∧ (t.fabric r).startup.timedOut = true ∧ (t.fabric r).startup.running = false ∧
      (t.flags .cfg).getLsbD 27 = true)) ∧
  (∀ (s : State) (r : Nat), s.canon → r < 64 → (s.fabric r).clearing = true →
    Answers (exec (.clearComplete r) s) (fun t =>
      (t.fabric r).clearing = false ∧ (t.fabric r).configured = false ∧ (t.fabric r).isolated = true ∧
      (t.fabric r).columns = [] ∧ (t.fabric r).brams = [] ∧ (t.fabric r).control = [] ∧ (t.fabric r).imageId = 0))

/-- A RUNNING DESIGN (R227, R228, R234, R236, R237, R241, R242). A load of a runtime tree begins a switch; where its tree
runs, a delay line takes a target and moves one tap a cycle toward it. A credit comes back, or is in excess; a beat is taken
on a credit, or is dropped without one; both errors set their flag. A control port keeps one read, which answers with the
register's value when the port may read it, and with an error otherwise. What the design's cells do meanwhile moves no word
of device memory. -/
def Obligations.RunningDesign : Prop :=
  (∀ (s : State) (r n : Nat) (sel div : BitVec 4), s.canon → s.designOn r = true → n < 8 →
    let x := (s.fabric r).tree n
    x.runtime = true → x.switching = none → ¬ (x.sel = sel.toNat ∧ x.div = div.toNat) →
    Answers (exec (.treeLoad r n sel div) s) (fun t =>
      (t.fabric r).tree n = { x with switching := some (sel.toNat, div.toNat) } ∧
      (∀ k, k ≠ n → (t.fabric r).tree k = (s.fabric r).tree k) ∧ ∀ q, q ≠ r → t.fabric q = s.fabric q)) ∧
  (∀ (s : State) (r pin : Nat) (tap : BitVec 9), s.canon → s.elemRuns r (20 + pin) = true → pin < 3 →
    Answers (exec (.dlyLoad r pin tap) s) (fun t =>
      ((t.fabric r).delay pin).target = tap.toNat ∧ ((t.fabric r).delay pin).tap = ((s.fabric r).delay pin).tap ∧
      t.mem = s.mem)) ∧
  (∀ (s : State) (r pin : Nat), s.canon → s.dev.pwrGood = true → r < 64 → pin < 3 → s.elemOn r (20 + pin) = true →
    let d := (s.fabric r).delay pin
    d.tap ≠ d.target →
    Answers (exec (.delayLineMove r pin) s) (fun t =>
      (t.fabric r).delay pin = { d with tap := if d.tap < d.target then d.tap + 1 else d.tap - 1 } ∧
      ∀ k, k ≠ pin → (t.fabric r).delay k = (s.fabric r).delay k)) ∧
  (∀ (s : State) (r p : Nat), s.canon → s.portOn r p = true → p < 8 →
    let x := (s.fabric r).port p
    Answers (exec (.rxCred r p) s) (fun t =>
      if x.rxCred < x.rxDepth then (t.fabric r).port p = { x with rxCred := x.rxCred + 1 }
      else (t.flags (.portErr r p)).getLsbD 31 = true ∧ ((t.fabric r).port p).rxCred = x.rxCred ∧
        ((t.fabric r).port p).credErrs = x.credErrs + 1)) ∧
  (∀ (s : State) (r p : Nat) (beat : List Byte), s.canon → s.portOn r (8 + p) = true → p < 8 →
    let x := (s.fabric r).port p
    Answers (exec (.txValid r p beat) s) (fun t =>
      if 0 < x.txCred then (t.fabric r).port p =
        { x with txBuf := x.txBuf ++ [beat], txCred := x.txCred - 1, txBeats := x.txBeats + 1 }
      else (t.flags (.portErr r p)).getLsbD 30 = true ∧ ((t.fabric r).port p).txBuf = x.txBuf ∧
        ((t.fabric r).port p).credErrs = x.credErrs + 1)) ∧
  (∀ (s : State) (r c : Nat) (fab : Bool) (addr : BitVec 12), s.canon → s.cpOn r c = true → (s.fabric r).cp c = none →
    Answers (exec (.cpReq r c fab addr) s) (fun t =>
      (t.fabric r).cp c = some (fab, addr.toNat) ∧ ∀ k, k ≠ c → (t.fabric r).cp k = (s.fabric r).cp k)) ∧
  (∀ (s : State) (r c a : Nat) (fab : Bool), s.canon → s.dev.pwrGood = true → r < 64 → c < 4 →
    s.elemOn r (16 + c) = true → (s.fabric r).cp c = some (fab, a) →
    Answers (exec (.cpAck r c) s) (fun t => (t.fabric r).cp c = none ∧
      (∀ g, cpReg r fab a = some g → s.blockOn g = true → s.units.fenced r = false →
        t.out.cpAck = some (r, c, s.regValue g, false)) ∧
      (cpReg r fab a = none → t.out.cpAck = some (r, c, 0, true) ∧ (t.flags (.cpErr r)).getLsbD (28 + c) = true)))

/-! Lanes, links and pairs (12, 15). -/

/-- LANES AND LINKS (R364, R398 to R400, R403 to R416). A transmitter's taps are set when their sum is at most 40, else a
flag is; a slip moves the word boundary one bit; lock and idle are followed. A Strait lane trains by steps, answers presets
and tap requests within their limits, and drops out when its lock or its codewords fail, which takes the link down below
16 lanes. A frame in sequence is taken, a repeated one is not, any other is replayed. The CXL link trains, drops, recovers,
sleeps and resets without touching work; a decoder commits only with the right size, base and ways. -/
def Obligations.LanesAndLinks : Prop :=
  (∀ (s : State) (l : Nat) (pre : BitVec 4) (post : BitVec 5), s.canon → s.laneOn l = true → s.designOn (2 * l) = true →
    (s.lane l).runtime = true →
    Answers (exec (.txCoefLoad l pre post) s) (fun t => (∀ k, k ≠ l → t.lane k = s.lane k) ∧
      if pre.toNat + post.toNat ≤ 40 then t.lane l = { s.lane l with pre := pre.toNat, post := post.toNat }
      else (t.lane l).pre = (s.lane l).pre ∧ (t.lane l).post = (s.lane l).post ∧ (t.flags (.ftxStatus l)).getLsbD 27 = true)) ∧
  (∀ (s : State) (l : Nat), s.canon → s.laneOn l = true → s.designOn (2 * l) = true → (s.lane l).rxLock = true →
    Answers (exec (.rxSlip l) s) (fun t => t.lane l = { s.lane l with slipPos := ((s.lane l).slipPos + 1) % 128 })) ∧
  (∀ (s : State) (l : Nat) (idle : Bool), s.canon → s.laneOn l = true → (s.lane l).designIdle ≠ idle →
    Answers (exec (.txIdle l idle) s) (fun t => (t.lane l).designIdle = idle ∧
      (idle = true → (t.lane l).txIdle = true) ∧
      (idle = false → (s.clk.hold = true ∨ s.pwr.inTrip = true) → (t.lane l).txIdle = true ∧ (t.lane l).holdIdle = true) ∧
      (idle = false → s.laneHeld l = false → s.pair.shadow = false → (t.lane l).txIdle = false))) ∧
  (∀ (s : State) (l : Nat), s.canon → s.laneOn l = true → (s.lane l).rxLock = true →
    Answers (exec (.rxLockLoss l) s) (fun t => (t.lane l).rxLock = false ∧ (t.flags (.ftxStatus l)).getLsbD 26 = true)) ∧
  (∀ (s : State) (l : Nat), s.canon → s.laneOn l = true → s.units.retiredLanes.getLsbD l = false →
    (s.lane l).rxLock = false →
    Answers (exec (.rxLockAcquired l) s) (fun t => t.lane l = { s.lane l with rxLock := true })) ∧
  (∀ (s : State) (l : Nat) (idle : Bool), s.canon → s.laneOn l = true →
    Answers (exec (.rxIdleChange l idle) s) (fun t => t.lane l = { s.lane l with rxIdle := idle })) ∧
  (∀ (s : State) (l : Nat) (reversed : Bool) (fit : Option PartnerFit), s.canon → s.straitOn = true → l < 32 →
    (s.strLane l).up = false → (s.strLane l).rejoin = false →
    Answers (exec (.straitLaneTraining l false ⟨reversed, fit⟩) s) (fun t =>
      (t.strLane l).up = false ∧ (t.strLane l).training = false ∧ (t.strLane l).idle = true) ∧
    Answers (exec (.straitLaneTraining l true ⟨reversed, fit⟩) s) (fun t => t.strait.reversed = reversed ∧
      ((s.strLane l).training = false → (s.strLane l).kept = false → (t.strLane l).training = true ∧
        (t.strLane l).step = 3 ∧ (t.strLane l).pre2 = 0 ∧ (t.strLane l).pre1 = 4 ∧ (t.strLane l).post1 = 6) ∧
      ((s.strLane l).training = true → (s.strLane l).step = 4 → (t.strLane l).training = false ∧
        (t.strLane l).up = !(s.strLane l).back ∧ (t.strLane l).rejoin = (s.strLane l).back))) ∧
  (∀ (s : State) (l : Nat) (q : EqRequest), s.canon → s.straitOn = true → l < 32 →
    let x := s.strLane l
    x.training = true → x.step = 3 →
    Answers (exec (.equalisationRequest l q) s) (fun t =>
      let y := t.strLane l
      (q.done = true → y.step = 4 ∧ y.kept = true ∧ y.pre2 = x.pre2 ∧ y.pre1 = x.pre1 ∧ y.post1 = x.post1) ∧
      (q.done = false → x.requests < 4000 → y.requests = x.requests + 1 ∧ t.out.trainReply.length = 3 ∧
        (∀ p c, q = { preset := some p } → presetOf p = some c → (y.pre2, y.pre1, y.post1) = c ∧
          t.out.trainReply = [0, 0, 0]) ∧
        (q = {} → y.pre2 = x.pre2 ∧ y.pre1 = x.pre1 ∧ y.post1 = x.post1 ∧ t.out.trainReply = [2, 2, 2]) ∧
        (x.pre2 ≤ 6 → x.pre1 ≤ 16 → x.post1 ≤ 12 → x.pre2 + x.pre1 + x.post1 ≤ 32 →
          y.pre2 ≤ 6 ∧ y.pre1 ≤ 16 ∧ y.post1 ≤ 12 ∧ y.pre2 + y.pre1 + y.post1 ≤ 32)))) ∧
  (∀ (s : State) (seq : Nat) (kind : BitVec 8) (body : List Byte) (intact : Bool), s.straitOn = true → 16 ≤ s.lanesUp →
    s.ingressRoom = true →
    Answers (exec (.straitFrame seq kind body intact) s) (fun t => t.mem = s.mem ∧
      (intact = true → seq = s.strait.rxSeq → t.strait.rxSeq = s.strait.rxSeq + 1) ∧
      (intact = true → seq < s.strait.rxSeq → t = s) ∧
      ((intact = false ∨ s.strait.rxSeq < seq) → t.strait.rxSeq = s.strait.rxSeq ∧
        t.strait.replays = s.strait.replays + 1 ∧ t.mpk = s.mpk))) ∧
  (∀ (s : State) (l codewords : Nat), s.canon → s.straitOn = true → l < 32 → (s.strLane l).up = true →
    Answers (exec (.laneRemoval l codewords) s) (fun t =>
      (t.strLane l).up = false ∧ (t.strLane l).back = true ∧ (t.strLane l).fecUe = (s.strLane l).fecUe + codewords ∧
      (t.flags (.strLane l)).getLsbD 30 = true ∧ (t.flags .strStatus).getLsbD 28 = true ∧
      (∀ k, k ≠ l → t.strLane k = s.strLane k) ∧
      (s.strait.wasUp = true → t.lanesUp < 16 → (t.flags .strStatus).getLsbD 27 = true))) ∧
  (∀ (s : State) (rate width : Nat), s.mayTrain rate = true →
    Answers (exec (.linkTraining rate width) s) (fun t =>
      t.cxl.up = true ∧ t.cxl.rate = rate ∧ t.cxl.width = width ∧ t.cxl.cxlMode = decide (4 ≤ rate) ∧ SameWork s t)) ∧
  (∀ s : State, s.cxl.up = true →
    Answers (exec .linkDown s) (fun t => t.cxl.up = false ∧ (t.flags .cxlStatus).getLsbD 27 = true ∧ t.sess = s.sess ∧
      t.mbx = s.mbx ∧ t.mpk = s.mpk ∧ SameWork s t) ∧
    Answers (exec .l1Entry s) (fun t => t = { s with cxl := { s.cxl with l1 := true } }) ∧
    (∀ replays, Answers (exec (.linkRecovery false replays) s) (fun t =>
      t.cxl.up = true ∧ t.cxl.replays = s.cxl.replays + replays ∧ (t.flags .cxlStatus).getLsbD 25 = true ∧
      t.cxl.l1 = s.cxl.l1 ∧ SameWork s t)) ∧
    (∀ replays, s.cxl.l1 = true → exec (.linkRecovery true replays) s = .next { s with
      cxl := { s.cxl with replays := s.cxl.replays + replays, l1 := false } }) ∧
    (∀ d3, Answers (exec (.dStateChange d3) s) (fun t => t.cxl = { s.cxl with d3 := d3 } ∧
      (d3 = false → s.cxl.ideStopped.getLsbD 0 = false → t.out.vecWait = []) ∧ (d3 = true → t.out = s.out))) ∧
    (∀ k, k < 3 → s.cxl.ideKeyed.getLsbD k = true → s.cxl.ideStopped.getLsbD k = false →
      Answers (exec (.ideFailure k) s) (fun t => t.cxl.ideStopped.getLsbD k = true ∧
        (t.flags .cxlStatus).getLsbD 26 = true ∧ SameWork s t)) ∧
    (∀ base size ways, exec (.hdmDecoderCommit 0 base size ways) s = .next { s with cxl := { s.cxl with dec0 :=
      if size = 0x139C0000000 ∧ base % 2 ^ 28 = 0 ∧ ways = 1 then { base := base, committed := true }
      else { base := base, err := true } } }) ∧
    (∀ base size ways, s.mpk.lpN ≠ 0 → exec (.hdmDecoderCommit 1 base size ways) s = .next { s with cxl := { s.cxl with dec1 :=
      if size = s.lpLimit - lpBase ∧ base % 2 ^ 28 = 0 ∧ ways = 1 then { base := base, committed := true }
      else { base := base, err := true } } })) ∧
  (∀ s : State, s.dev.pwrGood = true →
    Answers (exec .perst s) (fun t => t.cxl.up = false ∧ t.cxl.d3 = false ∧ t.cxl.cohBase = 0 ∧ t.cxl.cohLimit = 0 ∧
      t.sess = s.sess ∧ t.mbx = s.mbx ∧ t.dev = s.dev ∧ SameWork s t))

/-- PAIRS (R319 to R326, R330, R338 to R340, R343, R347, R349). A message tells what the partner has done, and the inputs it
acknowledges are done with: the host writes among them complete; when both have done the tick and their digests agree, the
tick is settled; it forms a pair that may form. The secondary keeps forwarded inputs in sequence. A command that one part
alone holds completes with `E_PAIR_STATE`. Two windows of one kind declare a heartbeat fault, the link or the partner lost; a
survivor carries on out of the pair, a secondary as primary. A rejoin goes phase by phase, sending the pages of each pass,
and a checkpoint sends the pages marked for its session and its record. -/
def Obligations.PairEvents : Prop :=
  (∀ (s : State) (m : PairMsg), s.hears = true →
    (s.pair.lostRole = 2 → Answers (exec (.pairMessage m) s) (fun t => t.pair.left = true ∧ t.pair.formed = false ∧
      t.sess = [])) ∧
    (s.pair.lostRole ≠ 2 → s.pair.formed = true → s.pair.role = 1 → s.pair.mine = [] → s.pair.diverging = false →
      s.tick.closed = false →
      Answers (exec (.pairMessage m) s) (fun t => t.pair.partnerDone = m.done ∧ t.pair.partnerDigest = m.digest ∧
        t.pair.partnerSeqHeld = m.seqHeld ∧ t.pair.theirs.length = s.pair.theirs.length + m.reports.length ∧
        t.pair.unacked = s.pair.unacked.filter (fun f => decide (m.seqHeld < f.seq)) ∧
        t.out.writesDone = s.out.writesDone + writesIn (s.pair.unacked.filter (fun f => decide (f.seq ≤ m.seqHeld))) ∧
        t.sess = s.sess ∧ SameWork s t)) ∧
    (s.pair.lostRole ≠ 2 → s.pair.shadow = true → s.pair.role = 1 → s.pair.mine = [] → s.pair.diverging = false →
      s.tick.closed = true → s.tick.settled = false → m.done = s.tick.count → m.again = s.pair.rerun →
      m.digest = s.tickDigest →
      Answers (exec (.pairMessage m) s) (fun t => t.tick.settled = true ∧ t.pair.cmpTick = s.tick.count ∧ t.mem = s.mem)) ∧
    (∀ f, s.pair.lostRole ≠ 2 → s.pair.formed = false → s.pair.left = false → s.dev.pkgFault = false → s.pair.mode ≠ 0 →
      m.fit = some f → s.pairFits f = true → f.noSession = true → s.sess = [] →
      Answers (exec (.pairMessage m) s) (fun t => t.pair.formed = true ∧ t.pair.waits = true ∧
        t.pair.role = s.formRole f.pref ∧ t.pair.seq = 0 ∧ SameWork { s with ftx := t.ftx } t))) ∧
  (∀ (s : State) (i : Forwarded), s.hears = true → s.pair.shadow = true → s.pair.role = 2 → i.seq = s.pair.seqHeld + 1 →
    s.inputRoom i.input = true →
    (∀ a b, i.input = .write a b → exec (.forwardedInput i) s = .next { s with
      pair := { s.pair with seqHeld := i.seq, inputs := s.pair.inputs ++ [i] } }.enterPanic) ∧
    (∀ l, i.input = .word l none → Answers (exec (.forwardedInput i) s) (fun t =>
      t.pair.seqHeld = i.seq ∧ t.pair.inputs = s.pair.inputs ++ [i] ∧ (t.flags .pairState).getLsbD 20 = true))) ∧
  (∀ (s : State) (mb go : Nat), s.canon → s.pair.shadow = true →
    let mine := s.pair.mine.any (fun o => o.mb == mb && o.go == go)
    let theirs := s.pair.theirs.any (fun o => o.mb == mb && o.go == go)
    (∀ b, mine = true → theirs = false → s.unordered mb go = some b →
      Answers (exec (.orderMatchTimeout mb go) s) (fun t => t.pair.unmatched = s.pair.unmatched + 1 ∧
        (t.mb mb).busy = some { b with acc := { code := 0xD }, done := true } ∧
        t.pair.mine.any (fun o => o.mb == mb && o.go == go) = false)) ∧
    (mine = false → theirs = true →
      Answers (exec (.orderMatchTimeout mb go) s) (fun t => t.pair.unmatched = s.pair.unmatched + 1 ∧
        (t.mb mb).seq = go ∧ (t.mb mb).state = 3 ∧ (t.mb mb).code = 0xD ∧ (t.mb mb).statusSeq = go % 256 ∧
        t.pair.theirs.any (fun o => o.mb == mb && o.go == go) = false))) ∧
  (∀ (s : State) (edge message : Bool), s.dev.pwrGood = true → s.pair.formed = true → s.clk.hold = false →
    (s.pair.lastWindow ≠ some (edge, message) → exec (.partnerJudgement edge message) s = .next { s with
      pair := { s.pair with lastWindow := some (edge, message) } }) ∧
    (s.pair.lastWindow = some (edge, message) → Answers (exec (.partnerJudgement edge message) s) (fun t =>
      (edge = true → message = true → t = s) ∧
      (edge = false → message = true → t.pair.formed = true ∧ (t.flags .pairState).getLsbD 24 = true) ∧
      (edge = true → message = false → t.pair.formed = false ∧ (t.flags .pairState).getLsbD 25 = true ∧
        (s.pair.role = 2 → t.pair.left = true ∧ t.sess = [])) ∧
      (edge = false → message = false → t.pair.formed = false ∧ t.pair.lostRole = s.pair.role ∧
        (t.flags .pairState).getLsbD 26 = true ∧ (s.pair.role = 2 → t.pair.role = 1))))) ∧
  (∀ s : State, s.canon → s.hears = true → s.pair.formed = true →
    Answers (exec .leaveNotice s) (fun t => t.pair.formed = false ∧ t.pair.role = (if s.pair.role = 2 then 1
      else if s.pair.role = 3 then 0 else s.pair.role) ∧ ∀ l, l < 32 → (t.strLane l).up = false)) ∧
  (∀ s : State, s.pair.role = 1 →
    (s.pair.phase = 1 → exec (.rejoinPhase false) s = .next { s with
      out := { s.out with sent := s.pair.toSend.map s.pageOut }
      pair := { s.pair with phase := 2, bytesSent := s.pair.bytesSent + 65536 * s.pair.toSend.length,
                            toSend := s.pair.marked, marked := [] } }) ∧
    (s.pair.phase = 2 → s.mayHold = true → exec (.rejoinPhase false) s = .next { s with
      pair := { s.pair with phase := 3, joinHold := true } }) ∧
    (s.pair.phase = 2 → s.mayHold = false → exec (.rejoinPhase false) s = .next { s with
      out := { s.out with sent := s.pair.toSend.map s.pageOut }
      pair := { s.pair with passes := s.pair.passes + 1, bytesSent := s.pair.bytesSent + 65536 * s.pair.toSend.length,
                            toSend := s.pair.marked, marked := [] } }) ∧
    (s.pair.phase = 3 → Answers (exec (.rejoinPhase false) s) (fun t => t.pair.formed = true ∧ t.pair.role = 1 ∧
      t.pair.waits = true ∧ t.pair.phase = 0 ∧ t.pair.joinHold = false)) ∧
    (s.pair.phase ≠ 0 → Answers (exec (.rejoinPhase true) s) (fun t => t.pair.phase = 0 ∧ t.pair.joinHold = false ∧
      t.pair.role = 1 ∧ t.pair.formed = s.pair.formed))) ∧
  (∀ s : State, s.hears = true → s.pair.role = 0 → s.pair.mode = 1 → s.sess = [] → s.dev.stage = 2 → s.pair.phase = 0 →
    Answers (exec (.rejoinPhase false) s) (fun t => t.pair.role = 3 ∧ t.pair.phase = 1 ∧ t.dev.hbOn = true)) ∧
  (∀ (s : State) (lost : Bool), s.pair.role = 3 → s.pair.phase = 3 →
    Answers (exec (.rejoinPhase lost) s) (fun t => t.pair.phase = 0 ∧ t.pair.role = (if lost = true then 0 else 2) ∧
      (lost = false → t.pair.formed = true ∧ t.pair.waits = true))) ∧
  (∀ (s : State) (id : Nat) (x : Sess), s.session id = some x → s.pair.formed = true → s.pair.waits = false →
    s.pair.mode = 2 → s.pair.role = 1 → x.running = none → s.hears = true →
    Answers (exec (.checkpoint id) s) (fun t => (∀ p, p ∈ t.pair.marked ↔ p ∈ s.pair.marked ∧ p ∉ x.pages) ∧
      t.pair.bytesSent = 65536 * (s.pair.marked.filter (fun p => x.pages.contains p)).length ∧ t.mem = s.mem ∧
      t.out.sent = (s.pair.marked.filter (fun p => x.pages.contains p)).map s.pageOut ++ [s.copyOf x]))

/-! Identity, attestation and keys (16). -/

/-- SPDM (R403, R418, R419, R427, R428). The requests in order: the negotiation goes on from step to step; after it, the
chain's digest and bytes, a signed challenge, the measurements in their blocks, and at most two secured sessions that
open, renew their keys, key IDE streams and end. Without an identity a request after the negotiation is answered with
ERROR `Unspecified` and changes nothing else. What the messages hold beside these is the model's (log entry 22). -/
def Obligations.SpdmRequests : Prop :=
  (∀ s : State, s.doeOn = true → s.spdmOn = true →
    exec .getVersion s = .next { s with
      sec := { s.sec with spdm := 1 }, out := { s.out with doe := [0x12, 0x04, 0, 0, 0x12] } } ∧
    (1 ≤ s.sec.spdm → exec .getCapabilities s = .next { s with
      sec := { s.sec with spdm := Nat.max s.sec.spdm 2 }, out := { s.out with doe := [0x12, 0x61, 0, 0] } }) ∧
    (2 ≤ s.sec.spdm → exec (.negotiateAlgorithms true) s = .next { s with
      sec := { s.sec with spdm := 3 }, out := { s.out with doe := [0x12, 0x63, 0, 0] } })) ∧
  (∀ (s : State) (slot off len index sid k : Nat) (b : List Byte) (ok : Bool), s.doeOn = true → s.spdmOn = true →
    s.sec.idKey = none →
    let r := Host.Outcome.next { s with out := { s.out with doe := [0x12, 0x7F, 5, 0] } }
    exec .getDigests s = r ∧ exec (.getCertificate slot off len) s = r ∧ exec (.challenge slot b) s = r ∧
      exec (.getMeasurements index b) s = r ∧ exec (.keyExchange b) s = r ∧ exec (.finish sid ok) s = r ∧
      exec (.keyUpdate sid) s = r ∧ exec (.endSession sid) s = r ∧ exec (.ideKmRequest sid k) s = r) ∧
  (∀ (s : State) (d : Nat), s.doeOn = true → s.spdmOn = true → s.sec.idKey = some d → 3 ≤ s.sec.spdm →
    let nonce := Config.freeBytes s.free 32
    let sig := fun (m : List Byte) =>
      ecdsaSign d (1 + Config.freeValue (s.free + 1) % (p256N - 1)) (sha256 (m ++ nonce))
    (s.flash.chain ≠ [] → exec .getDigests s = .next { s with
      out := { s.out with doe := [0x12, 0x01, 0, 1] ++ sha256 s.flash.chain } }) ∧
    (∀ off len, s.sec.certOk = true → exec (.getCertificate 0 off len) s = .next { s with
      out := { s.out with doe := [0x12, 0x02, 0, 0] ++ (s.flash.chain.drop off).take len } }) ∧
    (∀ m, Answers (exec (.challenge 0 m) s) (fun t => t.sec = s.sec ∧ SameWork s t ∧
      t.out.doe = [0x12, 0x03, 0, 1] ++ (sha256 s.flash.chain ++ (nonce ++ sig m)))) ∧
    (∀ i m, 1 ≤ i → i ≤ 5 → Answers (exec (.getMeasurements i m) s) (fun t => t.sec = s.sec ∧ SameWork s t ∧
      t.out.doe = [0x12, 0x60, 0, 0] ++ ([1] ++ ([BitVec.ofNat 8 i, 1, 35, 0,
        (if i = 1 then 0 else if i = 2 then 1 else if i = 4 then 2 else 3), 32, 0] ++ s.measurement i) ++
        (nonce ++ sig m)))) ∧
    (∀ m, s.sec.spdmSess.length < 2 → Answers (exec (.keyExchange m) s) (fun t =>
      t.sec.spdmSess = s.sec.spdmSess ++ [{ id := if s.spdmOf 1 = none then 1 else 2 }] ∧ SameWork s t)) ∧
    (∀ m, 2 ≤ s.sec.spdmSess.length → exec (.keyExchange m) s = .next { s with
      out := { s.out with doe := [0x12, 0x7F, 3, 0] } }) ∧
    (∀ sid x, s.spdmOf sid = some x → x.open_ = false →
      Answers (exec (.finish sid true) s) (fun t => t.spdmOf sid = some { x with open_ := true } ∧
        ∀ k, k ≠ sid → t.spdmOf k = s.spdmOf k) ∧
      Answers (exec (.finish sid false) s) (fun t => t.spdmOf sid = none ∧ ∀ k, k ≠ sid → t.spdmOf k = s.spdmOf k)) ∧
    (∀ sid x, s.spdmOf sid = some x → x.open_ = true →
      Answers (exec (.keyUpdate sid) s) (fun t => t.spdmOf sid = some { x with updates := x.updates + 1 } ∧
        ∀ k, k ≠ sid → t.spdmOf k = s.spdmOf k) ∧
      Answers (exec (.endSession sid) s) (fun t => t.spdmOf sid = none ∧ ∀ k, k ≠ sid → t.spdmOf k = s.spdmOf k) ∧
      ∀ k, k < 3 → Answers (exec (.ideKmRequest sid k) s) (fun t => t.cxl.ideKeyed.getLsbD k = true ∧
        t.cxl.ideStopped.getLsbD k = false ∧ t.sec = s.sec)))

/-- THE ROOT OF TRUST AND THE SEALED KEY STORE (R423 to R426). A key that lies on the curve is kept for enrolment; a valid
answer to the nonce enrols it, gives the boot ROM the counter, or ends the advance; an invalid one leaves the enrolment,
and sets `RB_ADV_FAIL`, the advance staying due. An operation of the store on an envelope with a fault stores nothing and
gives the fault; otherwise it stores a sealed key, an empty slot of the next generation, or no enrolment, unless the flash
write fails (5). The buffer is cleared at the end. -/
def Obligations.RootOfTrustAndSeals : Prop :=
  (∀ s : State, s.mayEnrol = true →
    (∀ k, k.length = 64 → onCurve (keyOf k) = true → exec (.rbPubkey (some k)) s = .next { s with
      out := { s.out with smbMaster := [1] }, sec := { s.sec with rbKey := k } }) ∧
    exec (.rbPubkey none) s = .next { s with out := { s.out with smbMaster := [1] }, sec := { s.sec with rbKey := [] } } ∧
    (s.bootReads = false → s.sec.rbKey ≠ [] → ∀ a,
      let nonce := Config.freeBytes s.free 32
      Answers (exec (.rbRead (some a)) s) (fun t => t.out.smbMaster = 2 :: nonce ∧ t.sec.rbKey = [] ∧
        t.flash.enrolment =
          if s.sec.idKey.isSome = true ∧ rbValid s.sec.rbKey nonce a = true then some s.sec.rbKey else none))) ∧
  (∀ (s : State) (key : List Byte) (a : RbAnswer), s.bootReads = true → s.flash.enrolment = some key →
    let nonce := Config.freeBytes s.free 32
    Answers (exec (.rbRead (some a)) s) (fun t => t.out.smbMaster = 2 :: nonce ∧ t.flash = s.flash ∧
      t.sec.rbSeen = rbValid key nonce a ∧ t.sec.rbCounter = if rbValid key nonce a = true then a.counter else s.sec.rbCounter)) ∧
  (∀ (s : State) (key : List Byte) (a : RbAnswer), s.mayAdvance = true → s.flash.enrolment = some key →
    let nonce := Config.freeBytes s.free 32
    Answers (exec (.rbAdvance (some a)) s) (fun t => t.out.smbMaster = 3 :: (leBytes 4 (fld s.dev.fw 0xA 2) ++ nonce) ∧
      if rbValid key nonce a = true then t.sec.rbCounter = a.counter ∧ t.sec.rbRetry = false
      else t.sec.rbCounter = s.sec.rbCounter ∧ t.sec.rbRetry = true ∧ (t.flags .secStatus).getLsbD 28 = true)) ∧
  (∀ (s : State) (flashOk : Bool) (c : Nat), s.envelopeFault s.envelope = some c →
    let r := Host.Outcome.next { s with sec := { s.sec with busy := false, sealResult := c, sealBuf := [] } }
    (s.sealing 1 = true → exec (.sealWriteSlot flashOk) s = r) ∧ (s.sealing 2 = true → exec (.sealEraseSlot flashOk) s = r) ∧
      (s.sealing 3 = true → exec (.sealRemoveEnrolment flashOk) s = r)) ∧
  (∀ s : State, s.envelopeFault s.envelope = none →
    let k := fld s.envelope 1 1
    let gen := fld s.envelope 4 4
    let ended := fun (c : Nat) => { s.sec with busy := false, sealResult := c, sealBuf := [] }
    (∀ key, s.sealing 1 = true → s.unwrap s.envelope = .ok key →
      let text := gcmSeal s.sec.kSeal (leBytes 4 k ++ leBytes 4 gen ++ zeroBytes 4) [] key
      exec (.sealWriteSlot true) s = .next { s with
        sec := ended 0,
        flash := { s.flash with seals := put {} s.flash.seals k ({ gen := gen, cipher := some text } : SealSlot) } } ∧
      exec (.sealWriteSlot false) s = .next { s with sec := ended 5 }) ∧
    (∀ c flashOk, s.sealing 1 = true → s.unwrap s.envelope = .error c →
      exec (.sealWriteSlot flashOk) s = .next { s with sec := ended c }) ∧
    (s.sealing 2 = true →
      exec (.sealEraseSlot true) s = .next { s with
        sec := ended 0, flash := { s.flash with seals := put {} s.flash.seals k ({ gen := gen } : SealSlot) } } ∧
      exec (.sealEraseSlot false) s = .next { s with sec := ended 5 }) ∧
    (s.sealing 3 = true →
      Answers (exec (.sealRemoveEnrolment true) s) (fun t => t.flash = { s.flash with enrolment := none } ∧
        t.sec.rbOn = false ∧ t.sec.sealResult = 0 ∧ t.sec.busy = false ∧ t.sec.sealBuf = []) ∧
      exec (.sealRemoveEnrolment false) s = .next { s with sec := ended 5 })) ∧
  (∀ s : State, s.envelopeFault s.envelope = none → s.sealing 1 = true →
    (fld s.envelope 4 4 = ((s.sealSlot (fld s.envelope 1 1)).gen + 1) % 2 ^ 32 ∧ fld s.envelope 1 1 < 8))

/-! Start-up and board management (13, 18). -/

/-- POWER AND START-UP (R352 to R358, R361, R364, R417, R424, R440, R441). A rise of `PWR_GOOD` begins the Lamb stage with
every unit at reset and the flash kept; a fall or an undervoltage ends all but the flash, the latter with a record. The
boot ROM hands over to the active slot's image, else to the other's, else stays where it is. Stage 1 takes its settings,
fences and retires what failed, leaves HBM zeroed and starts the tick source with a first tick due. Stage 2 zeroes the
LPDDR5X tier, retires failed lanes and ends in service, or parked as the settings ask. -/
def Obligations.PowerAndBoot : Prop :=
  (∀ (s : State) (strap : BitVec 3), s.dev.pwrGood = false → s.dev.uvHold = false →
    Answers (exec (.pwrGoodRise strap none) s) (fun t =>
      t.dev = { pwrGood := true, strap := strap.toNat, phase := .qualify } ∧ t.flash = s.flash ∧ t.mem = [] ∧ t.sess = [] ∧
      t.mbx = [] ∧ t.tick = {} ∧ t.tiles = [] ∧ t.regions = [] ∧ t.fab = [] ∧ t.units = {} ∧ t.clk = {} ∧ t.pair = {} ∧
      t.pending = s.pending)) ∧
  (∀ (s : State) (strap : BitVec 3) (b : BoardFlash), s.dev.pwrGood = false → s.dev.uvHold = false →
    Answers (exec (.pwrGoodRise strap (some b)) s) (fun t => t.dev.pwrGood = true ∧ t.flash.setA = b.setA ∧
      t.flash.setB = b.setB ∧ t.flash.chain = b.chain ∧ t.flash.active = b.active ∧ t.flash.seals = s.flash.seals ∧
      t.flash.enrolment = s.flash.enrolment)) ∧
  (∀ s : State, s.dev.pwrGood = true →
    Answers (exec .pwrGoodFall s) (fun t => t.dev = {} ∧ t.flash = s.flash ∧ t.mem = [] ∧ t.sess = [] ∧ t.mbx = [] ∧
      t.tick = {} ∧ t.ftx = [] ∧ t.sec = {}) ∧
    ∀ rail, rail ≠ 0 → Answers (exec (.railUndervoltage rail) s) (fun t => t.dev = { uvHold := true } ∧
      t.flash = s.flash ∧ t.mem = [] ∧ t.sess = [] ∧ t.pwr.rail = rail.toNat ∧ (t.flags .railStatus).getLsbD 31 = true)) ∧
  (∀ (s : State) (e : BootEnv), s.mayBoot = true →
    (∀ seed, e.seed = some seed → Answers (exec (.bootFirmware e) s) (fun t =>
      t.sec.idKey = some (identityOf seed) ∧ t.sec.kSeal = sealKeyOf seed)) ∧
    (∀ i, s.flash.main = some i → s.fwBoots i = true → Answers (exec (.bootFirmware e) s) (fun t =>
      t.dev.stage = 1 ∧ t.dev.phase = .stage1 ∧ t.dev.fw = i.header ∧ t.dev.fwSlot = s.flash.active ∧
      t.dev.fwFallback = false ∧ t.sec.rbOn = s.flash.enrolment.isSome ∧ t.sec.romHash = e.romHash)) ∧
    (∀ i, (∀ j, s.flash.main = some j → s.fwBoots j = false) → s.flash.staged = some i → s.fwBoots i = true →
      Answers (exec (.bootFirmware e) s) (fun t => t.dev.stage = 1 ∧ t.dev.phase = .stage1 ∧ t.dev.fw = i.header ∧
        t.dev.fwSlot = (!s.flash.active) ∧ t.dev.fwFallback = true)) ∧
    ((∀ j, s.flash.main = some j → s.fwBoots j = false) → (∀ j, s.flash.staged = some j → s.fwBoots j = false) →
      Answers (exec (.bootFirmware e) s) (fun t => t.dev.bootErr = 1 ∧ t.dev.stage = s.dev.stage ∧
        t.dev.phase = s.dev.phase))) ∧
  (∀ (s : State) (e : Stage1Env), s.canon → s.dev.pwrGood = true → s.dev.phase = .stage1 → s.clk.hold = false →
    Answers (exec (.stage1 e) s) (fun t =>
      t.dev.phase = .open1 ∧ t.tick.on = true ∧ t.tick.due = true ∧ t.dev.hbOn = true ∧
      t.tick.period = fld s.readSettings.dev.settings 0x10 2 ∧ t.pwr.envelope = fld s.readSettings.dev.settings 0x14 2 ∧
      (∀ a, a < 0x20000000000 → rdByte t.mem a = 0) ∧ (∀ c, c < 16 → (t.memCtl c).trained = true) ∧
      (∀ d, d ∈ e.dieFail → d < 32 → t.units.dieFenced.getLsbD d = true) ∧
      (∀ r, r ∈ e.regionFail → r < 64 → t.units.fenced r = true) ∧
      ∀ c f, s.units = {} → (c, f) ∈ e.slotFail → c < 256 → f < 9 → t.units.retiredSlots.contains (9 * c + f) = true)) ∧
  (∀ (s : State) (e : Stage2Env), s.dev.pwrGood = true → s.dev.phase = .open1 → s.dev.pkgFault = false →
    s.clk.hold = false → s.flashNamed = false → s.fcfg.flashRan = false → s.loads = [] → e.partner = none →
    Answers (exec (.stage2 e) s) (fun t => t.dev.phase = .full ∧
      t.dev.stage = (if bitAt (fld s.dev.atStart 0xC 4) 0 = true then 3 else 2) ∧
      (∀ a, 0x20000000000 ≤ a → rdByte t.mem a = 0) ∧ (∀ a, a < 0x20000000000 → rdByte t.mem a = rdByte s.mem a) ∧
      ∀ l, l ∈ e.laneFail → l < 32 → t.units.retiredLanes.getLsbD l = true)) ∧
  (∀ (s : State) (e : Stage2Env), s.dev.pwrGood = true → s.dev.phase = .open1 → s.dev.pkgFault = false →
    s.clk.hold = false → s.flashNamed = true → s.fcfg.flashRan = false →
    Answers (exec (.stage2 e) s) (fun t => t.fcfg.flashRan = true ∧ (t.flashLoading = true → t.dev.phase = .open1) ∧
      (t.flashLoading = false → t.dev.phase = .full)))

/-- BOARD MANAGEMENT (R361 to R364, R366, R367, R440, R450). With power good a read is answered with the health record's
first 48 bytes or with `DEV_STATUS`; without it nothing is acknowledged. A command with a wrong PEC is not acknowledged; one
with the wrong data, or where it is not accepted, sets `SMB_REFUSED` and does nothing else. `PARK` parks a part in service
with no session and no pair; `UNPARK` brings it back; `RESET` restarts it from the Lamb stage; settings are staged by 32
bytes and committed whole. A boundary-scan instruction governs the pins in the Lamb stage only. -/
def Obligations.BoardManagement : Prop :=
  (∀ s : State, s.dev.pwrGood = true →
    exec .readHealth s = .next { s with out := { s.out with
      smbAck := true, smbReply := (fit 256 s.health.record).take 48 } } ∧
    exec .readStatus s = .next { s with out := { s.out with
      smbAck := true, smbReply := leBytes 4 (s.regValue .devStatus).toNat } } ∧
    ∀ i, exec (.boundaryScanInstruction i) s = .next { s with dev := { s.dev with
      scan := decide (i = .other) && decide (s.dev.stage = 0) } }) ∧
  (∀ (s : State) (data : Byte) (off : BitVec 16) (b : List Byte) (pec f : Bool), s.dev.pwrGood = false ∨ pec = false →
    let r := Host.Outcome.next { s with out := { s.out with smbAck := false } }
    exec (.park data pec) s = r ∧ exec (.unpark data pec) s = r ∧ exec (.smbReset data pec) s = r ∧
      exec (.settingsStage off b pec) s = r ∧ exec (.settingsCommit data pec f) s = r) ∧
  (∀ (s : State) (data : Byte) (off : BitVec 16) (b : List Byte) (f : Bool), s.dev.pwrGood = true →
    let r := Host.Outcome.next (({ s with out := { s.out with smbAck := true } }).raise .devStatus 0x02000000)
    (data ≠ 0x5A ∨ s.dev.stage ≠ 2 ∨ s.sess ≠ [] ∨ s.pair.role ≠ 0 → exec (.park data true) s = r) ∧
    (data ≠ 0x5A ∨ s.dev.stage ≠ 3 → exec (.unpark data true) s = r) ∧ (data ≠ 0xA5 → exec (.smbReset data true) s = r) ∧
    (s.smbSettings = false ∨ off.toNat % 32 ≠ 0 ∨ 8192 ≤ off.toNat ∨ b.length ≠ 32 → exec (.settingsStage off b true) s = r) ∧
    (s.smbSettings = false ∨ data ≠ 0x5A → exec (.settingsCommit data true f) s = r)) ∧
  (∀ s : State, s.canon → s.dev.pwrGood = true → s.dev.stage = 2 → s.sess = [] → s.pair.role = 0 →
    Answers (exec (.park 0x5A true) s) (fun t => t.dev.stage = 3 ∧ t.mpk.hbm = { inSr := true } ∧
      t.mpk.lp = { inSr := true } ∧ t.out.smbAck = true ∧ t.mem = s.mem ∧
      (∀ r, r < 64 → (t.fabric r).isolated = true ∧ (t.fabric r).gsr = true ∧ t.gateOf r &&& 0x2F = 0) ∧
      ∀ l, l < 32 → (t.strLane l).up = false ∧ (t.strLane l).idle = true)) ∧
  (∀ s : State, s.canon → s.dev.pwrGood = true → s.dev.stage = 3 →
    Answers (exec (.unpark 0x5A true) s) (fun t => t.dev.stage = 2 ∧ t.mpk.hbm = {} ∧ t.mpk.lp = {} ∧
      t.out.smbAck = true ∧ (s.mpk.panic = false → t.mpk.held = []) ∧
      ∀ r, r < 64 → s.units.fenced r = false → t.gateOf r &&& 0x2F = 0x2F ∧
        ((s.fabric r).configured = true → s.fabGone r = false → (t.fabric r).startup.running = true))) ∧
  (∀ s : State, s.dev.pwrGood = true →
    Answers (exec (.smbReset 0xA5 true) s) (fun t => t.dev.stage = 0 ∧ t.dev.phase = .qualify ∧ t.dev.pwrGood = true ∧
      t.sess = [] ∧ t.mbx = [] ∧ t.tick = {} ∧ t.flash = s.flash ∧ t.mem = s.mem ∧ t.out.smbAck = true)) ∧
  (∀ (s : State) (off : BitVec 16) (b : List Byte), s.dev.pwrGood = true → s.smbSettings = true → off.toNat % 32 = 0 →
    off.toNat < 8192 → b.length = 32 →
    Answers (exec (.settingsStage off b true) s) (fun t => t.out.smbAck = true ∧ t.dev.staging.length = 8192 ∧
      slice t.dev.staging off.toNat 32 = b ∧ t.flash = s.flash ∧
      ∀ i, (i < off.toNat ∨ off.toNat + 32 ≤ i) → t.dev.staging.getD i 0 = (fit 8192 s.dev.staging).getD i 0)) ∧
  (∀ (s : State) (flashOk : Bool), s.dev.pwrGood = true → s.smbSettings = true →
    Answers (exec (.settingsCommit 0x5A true flashOk) s) (fun t => t.dev.staging = t.inUse ∧ t.out.smbAck = true ∧
      match s.writeSettings (fit 8192 s.dev.staging) true flashOk with
      | .error _ => t.flash = s.flash ∧ t.dev.settings = s.dev.settings ∧ (t.flags .devStatus).getLsbD 25 = true
      | .ok (_, _, u) => t.flash = u.flash ∧ t.dev.settings = u.dev.settings ∧ t.dev.setCopy = u.dev.setCopy ∧
          t.dev.applyAt = true))
end

