-- ==== Sys2Proof/Laws/PerInstr.lean ====
section
/-! SUPPORT. What well-formedness says of each command as it is written: the mailbox and the parameters of a go write,
the tile slot of a sequencer or array command. One lemma per constructor. -/

namespace Sys2Proof.Laws.Wf

/-- The go write that a command carries, if it is one of Icura's. -/
def goOf : Sys2Proof.Instr → Option Sys2Proof.Go
  | .deviceInfo g => some g
  | .health g => some g
  | .openSession g => some g
  | .closeSession g => some g
  | .setSessionLimits g => some g
  | .allocMemory g => some g
  | .freeMemory g => some g
  | .loadSchedule g => some g
  | .unloadSchedule g => some g
  | .bindTensor g => some g
  | .submitSteps g => some g
  | .cancelSteps g => some g
  | .querySteps g => some g
  | .replayIntermediate g => some g
  | .loadFabric g _ => some g
  | .loadFabricRegion g _ => some g
  | .fabricStatus g => some g
  | .pairConfigure g _ => some g
  | .pairStatus g => some g
  | .pairPromote g => some g
  | .pairRejoin g _ => some g
  | .fwStage g _ _ => some g
  | .fwActivate g => some g
  | .attestReport g => some g
  | .getCertificates g => some g
  | .settingsRead g => some g
  | .settingsWrite g _ => some g
  | .telemetryRead g => some g
  | .eventLogRead g => some g
  | .retireUnit g => some g
  | .restoreUnit g _ => some g
  | .runSelfTest g _ => some g
  | .regRead g => some g
  | .regWrite g => some g
  | .undefinedOpcode g _ => some g
  | _ => none

/-- The tile slot that a command names, if it names one. -/
def slotOf : Sys2Proof.Instr → Option Nat
  | .hang _ slot => some slot
  | .passStart slot => some slot
  | .arrayResume slot => some slot
  | .passCommit slot => some slot
  | .tileUncorrectableError slot => some slot
  | .contextSwitch slot => some slot
  | .eventTaken slot => some slot
  | .nop b _ => some b.slot
  | .jmp b _ => some b.slot
  | .call b _ => some b.slot
  | .jmpr b _ => some b.slot
  | .branch b _ => some b.slot
  | .repeatN b _ => some b.slot
  | .repeatA b _ => some b.slot
  | .doLoop b _ => some b.slot
  | .doLoopA b _ => some b.slot
  | .exitLoop b _ => some b.slot
  | .passOp b _ => some b.slot
  | .waitp b _ => some b.slot
  | .yield b _ => some b.slot
  | .endTask b _ => some b.slot
  | .rte b _ => some b.slot
  | .setal b _ => some b.slot
  | .setah b _ => some b.slot
  | .inca b _ => some b.slot
  | .movr b _ => some b.slot
  | .ldcr b _ => some b.slot
  | .stcr b _ => some b.slot
  | .bxclr b _ => some b.slot
  | .setsat b _ => some b.slot
  | .vexpa b _ => some b.slot
  | .vnop b _ => some b.slot
  | .prd b _ => some b.slot
  | .pra b _ => some b.slot
  | .prs b _ => some b.slot
  | .acld b _ => some b.slot
  | .acad b _ => some b.slot
  | .acsb b _ => some b.slot
  | .acsh b _ => some b.slot
  | .acrd b _ => some b.slot
  | .expo b _ => some b.slot
  | .norm b _ => some b.slot
  | .vadd b _ => some b.slot
  | .vsub b _ => some b.slot
  | .vneg b _ => some b.slot
  | .vasr b _ => some b.slot
  | .vmov b _ => some b.slot
  | .crd b _ => some b.slot
  | .bfc b _ => some b.slot
  | .flt b _ => some b.slot
  | .cst b _ => some b.slot
  | .loadX b _ => some b.slot
  | .storeX b _ => some b.slot
  | .loadOperandStore b _ => some b.slot
  | .loadY b _ => some b.slot
  | .storeY b _ => some b.slot
  | .storeOperandStore b _ => some b.slot
  | .columnResultDelivery slot => some slot
  | _ => none

/-- A well-formed command's go write is on one of the 256 mailboxes with 224 parameter bytes (R273), and its tile slot is
one of the 2,304 (R17). -/
def Statement (i : Sys2Proof.Instr) : Prop :=
  i.wf = true → (∀ g, goOf i = some g → g.mb < 256 ∧ g.params.length = 224) ∧ ∀ k, slotOf i = some k → k < 2304

/-- A command that names nothing of the kind. -/
theorem nothing {α : Type} {p : α → Prop} (g : α) (h : (none : Option α) = some g) : p g := nomatch h

/-- A command that names one thing of which the fact holds. -/
theorem just {α : Type} {p : α → Prop} {x : α} (hx : p x) (g : α) (h : some x = some g) : p g :=
  Option.some.inj h ▸ hx

/-- What the check of a go write says. -/
theorem goBounds {g : Sys2Proof.Go} (h : g.wf = true) : g.mb < 256 ∧ g.params.length = 224 := by
  simpa [Sys2Proof.Go.wf] using h

theorem fst {a b : Bool} (h : (a && b) = true) : a = true := by
  cases a with
  | true => rfl
  | false => exact h

theorem snd {a b : Bool} (h : (a && b) = true) : b = true := by
  cases a with
  | true => exact h
  | false => exact nomatch h

theorem deviceInfo (g : Go) : Statement (.deviceInfo g) := fun h => ⟨just (goBounds h), nothing⟩
theorem health (g : Go) : Statement (.health g) := fun h => ⟨just (goBounds h), nothing⟩
theorem openSession (g : Go) : Statement (.openSession g) := fun h => ⟨just (goBounds h), nothing⟩
theorem closeSession (g : Go) : Statement (.closeSession g) := fun h => ⟨just (goBounds h), nothing⟩
theorem setSessionLimits (g : Go) : Statement (.setSessionLimits g) := fun h => ⟨just (goBounds h), nothing⟩
theorem allocMemory (g : Go) : Statement (.allocMemory g) := fun h => ⟨just (goBounds h), nothing⟩
theorem freeMemory (g : Go) : Statement (.freeMemory g) := fun h => ⟨just (goBounds h), nothing⟩
theorem loadSchedule (g : Go) : Statement (.loadSchedule g) := fun h => ⟨just (goBounds h), nothing⟩
theorem unloadSchedule (g : Go) : Statement (.unloadSchedule g) := fun h => ⟨just (goBounds h), nothing⟩
theorem bindTensor (g : Go) : Statement (.bindTensor g) := fun h => ⟨just (goBounds h), nothing⟩
theorem submitSteps (g : Go) : Statement (.submitSteps g) := fun h => ⟨just (goBounds h), nothing⟩
theorem cancelSteps (g : Go) : Statement (.cancelSteps g) := fun h => ⟨just (goBounds h), nothing⟩
theorem querySteps (g : Go) : Statement (.querySteps g) := fun h => ⟨just (goBounds h), nothing⟩
theorem replayIntermediate (g : Go) : Statement (.replayIntermediate g) := fun h => ⟨just (goBounds h), nothing⟩
theorem loadFabric (g : Go) (partner : Option Nat) : Statement (.loadFabric g partner) := fun h => ⟨just (goBounds h), nothing⟩
theorem loadFabricRegion (g : Go) (partner : Option Nat) : Statement (.loadFabricRegion g partner) := fun h => ⟨just (goBounds h), nothing⟩
theorem fabricStatus (g : Go) : Statement (.fabricStatus g) := fun h => ⟨just (goBounds h), nothing⟩
theorem pairConfigure (g : Go) (fit : PairTrial) : Statement (.pairConfigure g fit) := fun h => ⟨just (goBounds h), nothing⟩
theorem pairStatus (g : Go) : Statement (.pairStatus g) := fun h => ⟨just (goBounds h), nothing⟩
theorem pairPromote (g : Go) : Statement (.pairPromote g) := fun h => ⟨just (goBounds h), nothing⟩
theorem pairRejoin (g : Go) (fit : PartnerFit) : Statement (.pairRejoin g fit) := fun h => ⟨just (goBounds h), nothing⟩
theorem fwStage (g : Go) (signed flashOk : Bool) : Statement (.fwStage g signed flashOk) := fun h => ⟨just (goBounds h), nothing⟩
theorem fwActivate (g : Go) : Statement (.fwActivate g) := fun h => ⟨just (goBounds h), nothing⟩
theorem attestReport (g : Go) : Statement (.attestReport g) := fun h => ⟨just (goBounds h), nothing⟩
theorem getCertificates (g : Go) : Statement (.getCertificates g) := fun h => ⟨just (goBounds h), nothing⟩
theorem settingsRead (g : Go) : Statement (.settingsRead g) := fun h => ⟨just (goBounds h), nothing⟩
theorem settingsWrite (g : Go) (flashOk : Bool) : Statement (.settingsWrite g flashOk) := fun h => ⟨just (goBounds h), nothing⟩
theorem telemetryRead (g : Go) : Statement (.telemetryRead g) := fun h => ⟨just (goBounds h), nothing⟩
theorem eventLogRead (g : Go) : Statement (.eventLogRead g) := fun h => ⟨just (goBounds h), nothing⟩
theorem retireUnit (g : Go) : Statement (.retireUnit g) := fun h => ⟨just (goBounds h), nothing⟩
theorem restoreUnit (g : Go) (t : SelfTest) : Statement (.restoreUnit g t) := fun h => ⟨just (goBounds h), nothing⟩
theorem runSelfTest (g : Go) (t : SelfTest) : Statement (.runSelfTest g t) := fun h => ⟨just (goBounds h), nothing⟩
theorem regRead (g : Go) : Statement (.regRead g) := fun h => ⟨just (goBounds h), nothing⟩
theorem regWrite (g : Go) : Statement (.regWrite g) := fun h => ⟨just (goBounds h), nothing⟩
theorem commandCompletion (mb : Nat) : Statement (.commandCompletion mb) := fun _ => ⟨nothing, nothing⟩
theorem claimRead (mb : Nat) : Statement (.claimRead mb) := fun _ => ⟨nothing, nothing⟩
theorem claimRelease (mb : Nat) (tag : Word) : Statement (.claimRelease mb tag) := fun _ => ⟨nothing, nothing⟩
theorem claimLapse (mb : Nat) : Statement (.claimLapse mb) := fun _ => ⟨nothing, nothing⟩
theorem ringConsumerWrite (mb : Nat) (v : Word) : Statement (.ringConsumerWrite mb v) := fun _ => ⟨nothing, nothing⟩
theorem leaseExpiry (sess : Nat) : Statement (.leaseExpiry sess) := fun _ => ⟨nothing, nothing⟩
theorem healthRecordRewrite : Statement (.healthRecordRewrite) := fun _ => ⟨nothing, nothing⟩
theorem tickDue : Statement (.tickDue) := fun _ => ⟨nothing, nothing⟩
theorem regionDone (r : Nat) (busy : List (Nat × Nat)) : Statement (.regionDone r busy) := fun _ => ⟨nothing, nothing⟩
theorem tickBoundary (late : Nat) (b : BoundarySample) : Statement (.tickBoundary late b) := fun _ => ⟨nothing, nothing⟩
theorem identityCopyComplete (late : Nat) : Statement (.identityCopyComplete late) := fun _ => ⟨nothing, nothing⟩
theorem changeoverEnd (r : Nat) : Statement (.changeoverEnd r) := fun _ => ⟨nothing, nothing⟩
theorem tickWarning (r : Nat) : Statement (.tickWarning r) := fun _ => ⟨nothing, nothing⟩
theorem heartbeatToggle : Statement (.heartbeatToggle) := fun _ => ⟨nothing, nothing⟩
theorem hang (r slot : Nat) : Statement (.hang r slot) := fun h => ⟨nothing, just (of_decide_eq_true (snd h))⟩
theorem stepStart (sess : Nat) : Statement (.stepStart sess) := fun _ => ⟨nothing, nothing⟩
theorem stepComplete (sess : Nat) : Statement (.stepComplete sess) := fun _ => ⟨nothing, nothing⟩
theorem completionRecordWrite (sess : Nat) : Statement (.completionRecordWrite sess) := fun _ => ⟨nothing, nothing⟩
theorem passStart (slot : Nat) : Statement (.passStart slot) := fun h => ⟨nothing, just (of_decide_eq_true h)⟩
theorem arrayResume (slot : Nat) : Statement (.arrayResume slot) := fun h => ⟨nothing, just (of_decide_eq_true h)⟩
theorem passCommit (slot : Nat) : Statement (.passCommit slot) := fun h => ⟨nothing, just (of_decide_eq_true h)⟩
theorem thermalTrip (die temp : Nat) : Statement (.thermalTrip die temp) := fun _ => ⟨nothing, nothing⟩
theorem thermalTripRelease : Statement (.thermalTripRelease) := fun _ => ⟨nothing, nothing⟩
theorem tileUncorrectableError (slot : Nat) : Statement (.tileUncorrectableError slot) := fun h => ⟨nothing, just (of_decide_eq_true h)⟩
theorem clusterBufferUncorrectable (c : Nat) : Statement (.clusterBufferUncorrectable c) := fun _ => ⟨nothing, nothing⟩
theorem controllerFreeze (ctl addr : Nat) (cmd : Bool) (reader : Option (Nat × Nat)) : Statement (.controllerFreeze ctl addr cmd reader) := fun _ => ⟨nothing, nothing⟩
theorem watchdogExpiry (core : Nat) : Statement (.watchdogExpiry core) := fun _ => ⟨nothing, nothing⟩
theorem referenceLoss (xtal ref : Bool) : Statement (.referenceLoss xtal ref) := fun _ => ⟨nothing, nothing⟩
theorem clockHoldExit : Statement (.clockHoldExit) := fun _ => ⟨nothing, nothing⟩
theorem referenceQualification (ok : Bool) (ppm : Int) (late : Bool) : Statement (.referenceQualification ok ppm late) := fun _ => ⟨nothing, nothing⟩
theorem contextSwitch (slot : Nat) : Statement (.contextSwitch slot) := fun h => ⟨nothing, just (of_decide_eq_true h)⟩
theorem eventTaken (slot : Nat) : Statement (.eventTaken slot) := fun h => ⟨nothing, just (of_decide_eq_true h)⟩
theorem nop (b : Bundle) (f : BitVec 15) : Statement (.nop b f) := fun h => ⟨nothing, just (of_decide_eq_true h)⟩
theorem jmp (b : Bundle) (f : BitVec 15) : Statement (.jmp b f) := fun h => ⟨nothing, just (of_decide_eq_true h)⟩
theorem call (b : Bundle) (f : BitVec 15) : Statement (.call b f) := fun h => ⟨nothing, just (of_decide_eq_true h)⟩
theorem jmpr (b : Bundle) (f : BitVec 15) : Statement (.jmpr b f) := fun h => ⟨nothing, just (of_decide_eq_true h)⟩
theorem branch (b : Bundle) (f : BitVec 15) : Statement (.branch b f) := fun h => ⟨nothing, just (of_decide_eq_true h)⟩
theorem repeatN (b : Bundle) (f : BitVec 15) : Statement (.repeatN b f) := fun h => ⟨nothing, just (of_decide_eq_true h)⟩
theorem repeatA (b : Bundle) (f : BitVec 15) : Statement (.repeatA b f) := fun h => ⟨nothing, just (of_decide_eq_true h)⟩
theorem doLoop (b : Bundle) (f : BitVec 15) : Statement (.doLoop b f) := fun h => ⟨nothing, just (of_decide_eq_true h)⟩
theorem doLoopA (b : Bundle) (f : BitVec 15) : Statement (.doLoopA b f) := fun h => ⟨nothing, just (of_decide_eq_true h)⟩
theorem exitLoop (b : Bundle) (f : BitVec 15) : Statement (.exitLoop b f) := fun h => ⟨nothing, just (of_decide_eq_true h)⟩
theorem passOp (b : Bundle) (f : BitVec 15) : Statement (.passOp b f) := fun h => ⟨nothing, just (of_decide_eq_true h)⟩
theorem waitp (b : Bundle) (f : BitVec 15) : Statement (.waitp b f) := fun h => ⟨nothing, just (of_decide_eq_true h)⟩
theorem yield (b : Bundle) (f : BitVec 15) : Statement (.yield b f) := fun h => ⟨nothing, just (of_decide_eq_true h)⟩
theorem endTask (b : Bundle) (f : BitVec 15) : Statement (.endTask b f) := fun h => ⟨nothing, just (of_decide_eq_true h)⟩
theorem rte (b : Bundle) (f : BitVec 15) : Statement (.rte b f) := fun h => ⟨nothing, just (of_decide_eq_true h)⟩
theorem setal (b : Bundle) (f : BitVec 15) : Statement (.setal b f) := fun h => ⟨nothing, just (of_decide_eq_true h)⟩
theorem setah (b : Bundle) (f : BitVec 15) : Statement (.setah b f) := fun h => ⟨nothing, just (of_decide_eq_true h)⟩
theorem inca (b : Bundle) (f : BitVec 15) : Statement (.inca b f) := fun h => ⟨nothing, just (of_decide_eq_true h)⟩
theorem movr (b : Bundle) (f : BitVec 15) : Statement (.movr b f) := fun h => ⟨nothing, just (of_decide_eq_true h)⟩
theorem ldcr (b : Bundle) (f : BitVec 15) : Statement (.ldcr b f) := fun h => ⟨nothing, just (of_decide_eq_true h)⟩
theorem stcr (b : Bundle) (f : BitVec 15) : Statement (.stcr b f) := fun h => ⟨nothing, just (of_decide_eq_true h)⟩
theorem bxclr (b : Bundle) (f : BitVec 15) : Statement (.bxclr b f) := fun h => ⟨nothing, just (of_decide_eq_true h)⟩
theorem setsat (b : Bundle) (f : BitVec 15) : Statement (.setsat b f) := fun h => ⟨nothing, just (of_decide_eq_true h)⟩
theorem vexpa (b : Bundle) (f : BitVec 15) : Statement (.vexpa b f) := fun h => ⟨nothing, just (of_decide_eq_true h)⟩
theorem vnop (b : Bundle) (f : BitVec 14) : Statement (.vnop b f) := fun h => ⟨nothing, just (of_decide_eq_true h)⟩
theorem prd (b : Bundle) (f : BitVec 14) : Statement (.prd b f) := fun h => ⟨nothing, just (of_decide_eq_true h)⟩
theorem pra (b : Bundle) (f : BitVec 14) : Statement (.pra b f) := fun h => ⟨nothing, just (of_decide_eq_true h)⟩
theorem prs (b : Bundle) (f : BitVec 14) : Statement (.prs b f) := fun h => ⟨nothing, just (of_decide_eq_true h)⟩
theorem acld (b : Bundle) (f : BitVec 14) : Statement (.acld b f) := fun h => ⟨nothing, just (of_decide_eq_true h)⟩
theorem acad (b : Bundle) (f : BitVec 14) : Statement (.acad b f) := fun h => ⟨nothing, just (of_decide_eq_true h)⟩
theorem acsb (b : Bundle) (f : BitVec 14) : Statement (.acsb b f) := fun h => ⟨nothing, just (of_decide_eq_true h)⟩
theorem acsh (b : Bundle) (f : BitVec 14) : Statement (.acsh b f) := fun h => ⟨nothing, just (of_decide_eq_true h)⟩
theorem acrd (b : Bundle) (f : BitVec 14) : Statement (.acrd b f) := fun h => ⟨nothing, just (of_decide_eq_true h)⟩
theorem expo (b : Bundle) (f : BitVec 14) : Statement (.expo b f) := fun h => ⟨nothing, just (of_decide_eq_true h)⟩
theorem norm (b : Bundle) (f : BitVec 14) : Statement (.norm b f) := fun h => ⟨nothing, just (of_decide_eq_true h)⟩
theorem vadd (b : Bundle) (f : BitVec 14) : Statement (.vadd b f) := fun h => ⟨nothing, just (of_decide_eq_true h)⟩
theorem vsub (b : Bundle) (f : BitVec 14) : Statement (.vsub b f) := fun h => ⟨nothing, just (of_decide_eq_true h)⟩
theorem vneg (b : Bundle) (f : BitVec 14) : Statement (.vneg b f) := fun h => ⟨nothing, just (of_decide_eq_true h)⟩
theorem vasr (b : Bundle) (f : BitVec 14) : Statement (.vasr b f) := fun h => ⟨nothing, just (of_decide_eq_true h)⟩
theorem vmov (b : Bundle) (f : BitVec 14) : Statement (.vmov b f) := fun h => ⟨nothing, just (of_decide_eq_true h)⟩
theorem crd (b : Bundle) (f : BitVec 14) : Statement (.crd b f) := fun h => ⟨nothing, just (of_decide_eq_true h)⟩
theorem bfc (b : Bundle) (f : BitVec 14) : Statement (.bfc b f) := fun h => ⟨nothing, just (of_decide_eq_true h)⟩
theorem flt (b : Bundle) (f : BitVec 14) : Statement (.flt b f) := fun h => ⟨nothing, just (of_decide_eq_true h)⟩
theorem cst (b : Bundle) (f : BitVec 14) : Statement (.cst b f) := fun h => ⟨nothing, just (of_decide_eq_true h)⟩
theorem loadX (b : Bundle) (f : BitVec 10) : Statement (.loadX b f) := fun h => ⟨nothing, just (of_decide_eq_true h)⟩
theorem storeX (b : Bundle) (f : BitVec 10) : Statement (.storeX b f) := fun h => ⟨nothing, just (of_decide_eq_true h)⟩
theorem loadOperandStore (b : Bundle) (f : BitVec 10) : Statement (.loadOperandStore b f) := fun h => ⟨nothing, just (of_decide_eq_true h)⟩
theorem loadY (b : Bundle) (f : BitVec 10) : Statement (.loadY b f) := fun h => ⟨nothing, just (of_decide_eq_true h)⟩
theorem storeY (b : Bundle) (f : BitVec 10) : Statement (.storeY b f) := fun h => ⟨nothing, just (of_decide_eq_true h)⟩
theorem storeOperandStore (b : Bundle) (f : BitVec 10) : Statement (.storeOperandStore b f) := fun h => ⟨nothing, just (of_decide_eq_true h)⟩
theorem sheepdogGrant (r cyclesLeft : Nat) : Statement (.sheepdogGrant r cyclesLeft) := fun _ => ⟨nothing, nothing⟩
theorem burstDelivery (r s : Nat) : Statement (.burstDelivery r s) := fun _ => ⟨nothing, nothing⟩
theorem ringComplete (r s : Nat) : Statement (.ringComplete r s) := fun _ => ⟨nothing, nothing⟩
theorem stallWatchdog (r : Nat) (reached : List Nat) : Statement (.stallWatchdog r reached) := fun _ => ⟨nothing, nothing⟩
theorem refresh (unit : Nat) : Statement (.refresh unit) := fun _ => ⟨nothing, nothing⟩
theorem selfRefreshExitComplete (lp : Bool) : Statement (.selfRefreshExitComplete lp) := fun _ => ⟨nothing, nothing⟩
theorem selfRefreshReentry (lp : Bool) : Statement (.selfRefreshReentry lp) := fun _ => ⟨nothing, nothing⟩
theorem hostMemRead (hpa len : Nat) : Statement (.hostMemRead hpa len) := fun _ => ⟨nothing, nothing⟩
theorem hostMemWrite (hpa : Nat) (data : List Byte) : Statement (.hostMemWrite hpa data) := fun _ => ⟨nothing, nothing⟩
theorem pseudoChannelRetirement (stack pc addr : Nat) : Statement (.pseudoChannelRetirement stack pc addr) := fun _ => ⟨nothing, nothing⟩
theorem retirePageCopy (stack pc : Nat) : Statement (.retirePageCopy stack pc) := fun _ => ⟨nothing, nothing⟩
theorem segmentVerify (slot : Nat) : Statement (.segmentVerify slot) := fun _ => ⟨nothing, nothing⟩
theorem recordDispatch (slot : Nat) (intact : Bool) : Statement (.recordDispatch slot intact) := fun _ => ⟨nothing, nothing⟩
theorem startupAction (r : Nat) : Statement (.startupAction r) := fun _ => ⟨nothing, nothing⟩
theorem startupTimeout (r : Nat) : Statement (.startupTimeout r) := fun _ => ⟨nothing, nothing⟩
theorem clearComplete (r : Nat) : Statement (.clearComplete r) := fun _ => ⟨nothing, nothing⟩
theorem treeLoad (r t : Nat) (sel div : BitVec 4) : Statement (.treeLoad r t sel div) := fun _ => ⟨nothing, nothing⟩
theorem dlyLoad (r pin : Nat) (tap : BitVec 9) : Statement (.dlyLoad r pin tap) := fun _ => ⟨nothing, nothing⟩
theorem rxCred (r p : Nat) : Statement (.rxCred r p) := fun _ => ⟨nothing, nothing⟩
theorem txValid (r p : Nat) (beat : List Byte) : Statement (.txValid r p beat) := fun _ => ⟨nothing, nothing⟩
theorem cpReq (r c : Nat) (fab : Bool) (addr : BitVec 12) : Statement (.cpReq r c fab addr) := fun _ => ⟨nothing, nothing⟩
theorem pllLockLoss (r k : Nat) : Statement (.pllLockLoss r k) := fun _ => ⟨nothing, nothing⟩
theorem muxForcedSwitch (domain unit : Nat) : Statement (.muxForcedSwitch domain unit) := fun _ => ⟨nothing, nothing⟩
theorem txCoefLoad (lane : Nat) (pre : BitVec 4) (post : BitVec 5) : Statement (.txCoefLoad lane pre post) := fun _ => ⟨nothing, nothing⟩
theorem rxSlip (lane : Nat) : Statement (.rxSlip lane) := fun _ => ⟨nothing, nothing⟩
theorem txIdle (lane : Nat) (idle : Bool) : Statement (.txIdle lane idle) := fun _ => ⟨nothing, nothing⟩
theorem rxLockLoss (lane : Nat) : Statement (.rxLockLoss lane) := fun _ => ⟨nothing, nothing⟩
theorem straitLaneTraining (lane : Nat) (ok : Bool) (found : LaneTrial) : Statement (.straitLaneTraining lane ok found) := fun _ => ⟨nothing, nothing⟩
theorem equalisationRequest (lane : Nat) (q : EqRequest) : Statement (.equalisationRequest lane q) := fun _ => ⟨nothing, nothing⟩
theorem straitFrame (seq : Nat) (kind : BitVec 8) (body : List Byte) (intact : Bool) : Statement (.straitFrame seq kind body intact) := fun _ => ⟨nothing, nothing⟩
theorem laneRemoval (lane codewords : Nat) : Statement (.laneRemoval lane codewords) := fun _ => ⟨nothing, nothing⟩
theorem linkTraining (rate width : Nat) : Statement (.linkTraining rate width) := fun _ => ⟨nothing, nothing⟩
theorem linkDown : Statement (.linkDown) := fun _ => ⟨nothing, nothing⟩
theorem perst : Statement (.perst) := fun _ => ⟨nothing, nothing⟩
theorem hdmDecoderCommit (dec base size ways : Nat) : Statement (.hdmDecoderCommit dec base size ways) := fun _ => ⟨nothing, nothing⟩
theorem ideFailure (s : Nat) : Statement (.ideFailure s) := fun _ => ⟨nothing, nothing⟩
theorem getVersion : Statement (.getVersion) := fun _ => ⟨nothing, nothing⟩
theorem getCapabilities : Statement (.getCapabilities) := fun _ => ⟨nothing, nothing⟩
theorem negotiateAlgorithms (supported : Bool) : Statement (.negotiateAlgorithms supported) := fun _ => ⟨nothing, nothing⟩
theorem getDigests : Statement (.getDigests) := fun _ => ⟨nothing, nothing⟩
theorem getCertificate (slot off len : Nat) : Statement (.getCertificate slot off len) := fun _ => ⟨nothing, nothing⟩
theorem challenge (slot : Nat) (transcript : List Byte) : Statement (.challenge slot transcript) := fun _ => ⟨nothing, nothing⟩
theorem getMeasurements (index : Nat) (transcript : List Byte) : Statement (.getMeasurements index transcript) := fun _ => ⟨nothing, nothing⟩
theorem keyExchange (transcript : List Byte) : Statement (.keyExchange transcript) := fun _ => ⟨nothing, nothing⟩
theorem finish (sid : Nat) (ok : Bool) : Statement (.finish sid ok) := fun _ => ⟨nothing, nothing⟩
theorem keyUpdate (sid : Nat) : Statement (.keyUpdate sid) := fun _ => ⟨nothing, nothing⟩
theorem endSession (sid : Nat) : Statement (.endSession sid) := fun _ => ⟨nothing, nothing⟩
theorem pairMessage (m : PairMsg) : Statement (.pairMessage m) := fun _ => ⟨nothing, nothing⟩
theorem forwardedInput (f : Forwarded) : Statement (.forwardedInput f) := fun _ => ⟨nothing, nothing⟩
theorem orderMatchTimeout (mb go : Nat) : Statement (.orderMatchTimeout mb go) := fun _ => ⟨nothing, nothing⟩
theorem partnerJudgement (edge message : Bool) : Statement (.partnerJudgement edge message) := fun _ => ⟨nothing, nothing⟩
theorem leaveNotice : Statement (.leaveNotice) := fun _ => ⟨nothing, nothing⟩
theorem rejoinPhase (lost : Bool) : Statement (.rejoinPhase lost) := fun _ => ⟨nothing, nothing⟩
theorem checkpoint (sess : Nat) : Statement (.checkpoint sess) := fun _ => ⟨nothing, nothing⟩
theorem pwrGoodRise (strap : BitVec 3) (board : Option BoardFlash) : Statement (.pwrGoodRise strap board) := fun _ => ⟨nothing, nothing⟩
theorem pwrGoodFall : Statement (.pwrGoodFall) := fun _ => ⟨nothing, nothing⟩
theorem railUndervoltage (rail : BitVec 13) : Statement (.railUndervoltage rail) := fun _ => ⟨nothing, nothing⟩
theorem bootFirmware (e : BootEnv) : Statement (.bootFirmware e) := fun _ => ⟨nothing, nothing⟩
theorem stage1 (e : Stage1Env) : Statement (.stage1 e) := fun _ => ⟨nothing, nothing⟩
theorem stage2 (e : Stage2Env) : Statement (.stage2 e) := fun _ => ⟨nothing, nothing⟩
theorem readHealth : Statement (.readHealth) := fun _ => ⟨nothing, nothing⟩
theorem readStatus : Statement (.readStatus) := fun _ => ⟨nothing, nothing⟩
theorem park (data : Byte) (pec : Bool) : Statement (.park data pec) := fun _ => ⟨nothing, nothing⟩
theorem unpark (data : Byte) (pec : Bool) : Statement (.unpark data pec) := fun _ => ⟨nothing, nothing⟩
theorem smbReset (data : Byte) (pec : Bool) : Statement (.smbReset data pec) := fun _ => ⟨nothing, nothing⟩
theorem settingsStage (off : BitVec 16) (data : List Byte) (pec : Bool) : Statement (.settingsStage off data pec) := fun _ => ⟨nothing, nothing⟩
theorem settingsCommit (data : Byte) (pec flashOk : Bool) : Statement (.settingsCommit data pec flashOk) := fun _ => ⟨nothing, nothing⟩
theorem rbPubkey (key : Option (List Byte)) : Statement (.rbPubkey key) := fun _ => ⟨nothing, nothing⟩
theorem rbRead (a : Option RbAnswer) : Statement (.rbRead a) := fun _ => ⟨nothing, nothing⟩
theorem rbAdvance (a : Option RbAnswer) : Statement (.rbAdvance a) := fun _ => ⟨nothing, nothing⟩
theorem sealWriteSlot (flashOk : Bool) : Statement (.sealWriteSlot flashOk) := fun _ => ⟨nothing, nothing⟩
theorem sealEraseSlot (flashOk : Bool) : Statement (.sealEraseSlot flashOk) := fun _ => ⟨nothing, nothing⟩
theorem sealRemoveEnrolment (flashOk : Bool) : Statement (.sealRemoveEnrolment flashOk) := fun _ => ⟨nothing, nothing⟩
theorem boundaryScanInstruction (k : ScanInstr) : Statement (.boundaryScanInstruction k) := fun _ => ⟨nothing, nothing⟩
theorem powerSample (p : PowerReading) : Statement (.powerSample p) := fun _ => ⟨nothing, nothing⟩
theorem stepReady (r : Nat) : Statement (.stepReady r) := fun _ => ⟨nothing, nothing⟩
theorem stepApply (r : Nat) : Statement (.stepApply r) := fun _ => ⟨nothing, nothing⟩
theorem tickCtrlWrite (w : Word) : Statement (.tickCtrlWrite w) := fun _ => ⟨nothing, nothing⟩
theorem flagSelectWrite (w : Word) : Statement (.flagSelectWrite w) := fun _ => ⟨nothing, nothing⟩
theorem clockGateWrite (isle : Bool) (n : Nat) (w : Word) : Statement (.clockGateWrite isle n w) := fun _ => ⟨nothing, nothing⟩
theorem latchingLowWordRead (span : ReadSpan) : Statement (.latchingLowWordRead span) := fun _ => ⟨nothing, nothing⟩
theorem registerWrite (addr : Nat) (data : List Byte) (hwSet : Word) : Statement (.registerWrite addr data hwSet) := fun _ => ⟨nothing, nothing⟩
theorem rxLockAcquired (lane : Nat) : Statement (.rxLockAcquired lane) := fun _ => ⟨nothing, nothing⟩
theorem rxIdleChange (lane : Nat) (idle : Bool) : Statement (.rxIdleChange lane idle) := fun _ => ⟨nothing, nothing⟩
theorem pllLock (r k : Nat) : Statement (.pllLock r k) := fun _ => ⟨nothing, nothing⟩
theorem goWriteIgnored (mb : Nat) (v : Word) : Statement (.goWriteIgnored mb v) := fun _ => ⟨nothing, nothing⟩
theorem undefinedOpcode (g : Go) (opcode : BitVec 16) : Statement (.undefinedOpcode g opcode) := fun h => ⟨just (goBounds h), nothing⟩
theorem linkRecovery (fromL1 : Bool) (replays : Nat) : Statement (.linkRecovery fromL1 replays) := fun _ => ⟨nothing, nothing⟩
theorem l1Entry : Statement (.l1Entry) := fun _ => ⟨nothing, nothing⟩
theorem dStateChange (d3 : Bool) : Statement (.dStateChange d3) := fun _ => ⟨nothing, nothing⟩
theorem cpAck (r c : Nat) : Statement (.cpAck r c) := fun _ => ⟨nothing, nothing⟩
theorem delayLineMove (r pin : Nat) : Statement (.delayLineMove r pin) := fun _ => ⟨nothing, nothing⟩
theorem muxSwitchComplete (domain unit : Nat) : Statement (.muxSwitchComplete domain unit) := fun _ => ⟨nothing, nothing⟩
theorem ingressDrain : Statement (.ingressDrain) := fun _ => ⟨nothing, nothing⟩
theorem columnResultDelivery (slot : Nat) : Statement (.columnResultDelivery slot) := fun h => ⟨nothing, just (of_decide_eq_true h)⟩
theorem eventPendingClear (mb : Nat) (w hwSet : Word) : Statement (.eventPendingClear mb w hwSet) := fun _ => ⟨nothing, nothing⟩
theorem ideKmRequest (sid s : Nat) : Statement (.ideKmRequest sid s) := fun _ => ⟨nothing, nothing⟩
theorem dieLinkFailure (die : Nat) : Statement (.dieLinkFailure die) := fun _ => ⟨nothing, nothing⟩
theorem regionUnitFailure (r : Nat) : Statement (.regionUnitFailure r) := fun _ => ⟨nothing, nothing⟩
theorem isleMeshOrBridgeFault (isle : Nat) : Statement (.isleMeshOrBridgeFault isle) := fun _ => ⟨nothing, nothing⟩
theorem tickSourceFault : Statement (.tickSourceFault) := fun _ => ⟨nothing, nothing⟩

end Sys2Proof.Laws.Wf
end

