-- ==== Sys2Proof/Laws/State.lean ====
section
/-! SUPPORT. What each named update of the state leaves as it was: one lemma per update and field, all by computation. -/

namespace Sys2Proof.Machine

/-- What each step of a fold keeps, the fold keeps. -/
theorem foldl_keeps {α β γ : Type} (g : β → γ) (f : β → α → β) (h : ∀ s c, g (f s c) = g s) (l : List α) :
    ∀ s, g (l.foldl f s) = g s := by
  induction l with
  | nil => intro s; rfl
  | cons c l ih => intro s; exact (ih _).trans (h s c)

@[simp] theorem State.setMb_pending (s : State) (n : Nat) (f : Mailbox → Mailbox) : (s.setMb n f).pending = s.pending := rfl
@[simp] theorem State.setMb_free (s : State) (n : Nat) (f : Mailbox → Mailbox) : (s.setMb n f).free = s.free := rfl
@[simp] theorem State.setMb_dev (s : State) (n : Nat) (f : Mailbox → Mailbox) : (s.setMb n f).dev = s.dev := rfl
@[simp] theorem State.setMb_flash (s : State) (n : Nat) (f : Mailbox → Mailbox) : (s.setMb n f).flash = s.flash := rfl
@[simp] theorem State.setMb_log (s : State) (n : Nat) (f : Mailbox → Mailbox) : (s.setMb n f).log = s.log := rfl
@[simp] theorem State.setMb_health (s : State) (n : Nat) (f : Mailbox → Mailbox) : (s.setMb n f).health = s.health := rfl
@[simp] theorem State.setMb_sess (s : State) (n : Nat) (f : Mailbox → Mailbox) : (s.setMb n f).sess = s.sess := rfl
@[simp] theorem State.setMb_tick (s : State) (n : Nat) (f : Mailbox → Mailbox) : (s.setMb n f).tick = s.tick := rfl
@[simp] theorem State.setMb_units (s : State) (n : Nat) (f : Mailbox → Mailbox) : (s.setMb n f).units = s.units := rfl
@[simp] theorem State.setMb_regions (s : State) (n : Nat) (f : Mailbox → Mailbox) : (s.setMb n f).regions = s.regions := rfl
@[simp] theorem State.setMb_tiles (s : State) (n : Nat) (f : Mailbox → Mailbox) : (s.setMb n f).tiles = s.tiles := rfl
@[simp] theorem State.setMb_bufs (s : State) (n : Nat) (f : Mailbox → Mailbox) : (s.setMb n f).bufs = s.bufs := rfl
@[simp] theorem State.setMb_eng (s : State) (n : Nat) (f : Mailbox → Mailbox) : (s.setMb n f).eng = s.eng := rfl
@[simp] theorem State.setMb_mem (s : State) (n : Nat) (f : Mailbox → Mailbox) : (s.setMb n f).mem = s.mem := rfl
@[simp] theorem State.setMb_ctl (s : State) (n : Nat) (f : Mailbox → Mailbox) : (s.setMb n f).ctl = s.ctl := rfl
@[simp] theorem State.setMb_mpk (s : State) (n : Nat) (f : Mailbox → Mailbox) : (s.setMb n f).mpk = s.mpk := rfl
@[simp] theorem State.setMb_fab (s : State) (n : Nat) (f : Mailbox → Mailbox) : (s.setMb n f).fab = s.fab := rfl
@[simp] theorem State.setMb_fcfg (s : State) (n : Nat) (f : Mailbox → Mailbox) : (s.setMb n f).fcfg = s.fcfg := rfl
@[simp] theorem State.setMb_loads (s : State) (n : Nat) (f : Mailbox → Mailbox) : (s.setMb n f).loads = s.loads := rfl
@[simp] theorem State.setMb_cxl (s : State) (n : Nat) (f : Mailbox → Mailbox) : (s.setMb n f).cxl = s.cxl := rfl
@[simp] theorem State.setMb_strait (s : State) (n : Nat) (f : Mailbox → Mailbox) : (s.setMb n f).strait = s.strait := rfl
@[simp] theorem State.setMb_ftx (s : State) (n : Nat) (f : Mailbox → Mailbox) : (s.setMb n f).ftx = s.ftx := rfl
@[simp] theorem State.setMb_pair (s : State) (n : Nat) (f : Mailbox → Mailbox) : (s.setMb n f).pair = s.pair := rfl
@[simp] theorem State.setMb_clk (s : State) (n : Nat) (f : Mailbox → Mailbox) : (s.setMb n f).clk = s.clk := rfl
@[simp] theorem State.setMb_pwr (s : State) (n : Nat) (f : Mailbox → Mailbox) : (s.setMb n f).pwr = s.pwr := rfl
@[simp] theorem State.setMb_sec (s : State) (n : Nat) (f : Mailbox → Mailbox) : (s.setMb n f).sec = s.sec := rfl
@[simp] theorem State.setMb_out (s : State) (n : Nat) (f : Mailbox → Mailbox) : (s.setMb n f).out = s.out := rfl
@[simp] theorem State.setMb_flagCnt (s : State) (n : Nat) (f : Mailbox → Mailbox) : (s.setMb n f).flagCnt = s.flagCnt := rfl
@[simp] theorem State.setMb_latch (s : State) (n : Nat) (f : Mailbox → Mailbox) : (s.setMb n f).latch = s.latch := rfl

@[simp] theorem State.setRegion_pending (s : State) (r : Nat) (f : Region → Region) : (s.setRegion r f).pending = s.pending := rfl
@[simp] theorem State.setRegion_free (s : State) (r : Nat) (f : Region → Region) : (s.setRegion r f).free = s.free := rfl
@[simp] theorem State.setRegion_dev (s : State) (r : Nat) (f : Region → Region) : (s.setRegion r f).dev = s.dev := rfl
@[simp] theorem State.setRegion_flash (s : State) (r : Nat) (f : Region → Region) : (s.setRegion r f).flash = s.flash := rfl
@[simp] theorem State.setRegion_log (s : State) (r : Nat) (f : Region → Region) : (s.setRegion r f).log = s.log := rfl
@[simp] theorem State.setRegion_health (s : State) (r : Nat) (f : Region → Region) : (s.setRegion r f).health = s.health := rfl
@[simp] theorem State.setRegion_mbx (s : State) (r : Nat) (f : Region → Region) : (s.setRegion r f).mbx = s.mbx := rfl
@[simp] theorem State.setRegion_sess (s : State) (r : Nat) (f : Region → Region) : (s.setRegion r f).sess = s.sess := rfl
@[simp] theorem State.setRegion_tick (s : State) (r : Nat) (f : Region → Region) : (s.setRegion r f).tick = s.tick := rfl
@[simp] theorem State.setRegion_units (s : State) (r : Nat) (f : Region → Region) : (s.setRegion r f).units = s.units := rfl
@[simp] theorem State.setRegion_tiles (s : State) (r : Nat) (f : Region → Region) : (s.setRegion r f).tiles = s.tiles := rfl
@[simp] theorem State.setRegion_bufs (s : State) (r : Nat) (f : Region → Region) : (s.setRegion r f).bufs = s.bufs := rfl
@[simp] theorem State.setRegion_eng (s : State) (r : Nat) (f : Region → Region) : (s.setRegion r f).eng = s.eng := rfl
@[simp] theorem State.setRegion_mem (s : State) (r : Nat) (f : Region → Region) : (s.setRegion r f).mem = s.mem := rfl
@[simp] theorem State.setRegion_ctl (s : State) (r : Nat) (f : Region → Region) : (s.setRegion r f).ctl = s.ctl := rfl
@[simp] theorem State.setRegion_mpk (s : State) (r : Nat) (f : Region → Region) : (s.setRegion r f).mpk = s.mpk := rfl
@[simp] theorem State.setRegion_fab (s : State) (r : Nat) (f : Region → Region) : (s.setRegion r f).fab = s.fab := rfl
@[simp] theorem State.setRegion_fcfg (s : State) (r : Nat) (f : Region → Region) : (s.setRegion r f).fcfg = s.fcfg := rfl
@[simp] theorem State.setRegion_loads (s : State) (r : Nat) (f : Region → Region) : (s.setRegion r f).loads = s.loads := rfl
@[simp] theorem State.setRegion_cxl (s : State) (r : Nat) (f : Region → Region) : (s.setRegion r f).cxl = s.cxl := rfl
@[simp] theorem State.setRegion_strait (s : State) (r : Nat) (f : Region → Region) : (s.setRegion r f).strait = s.strait := rfl
@[simp] theorem State.setRegion_ftx (s : State) (r : Nat) (f : Region → Region) : (s.setRegion r f).ftx = s.ftx := rfl
@[simp] theorem State.setRegion_pair (s : State) (r : Nat) (f : Region → Region) : (s.setRegion r f).pair = s.pair := rfl
@[simp] theorem State.setRegion_clk (s : State) (r : Nat) (f : Region → Region) : (s.setRegion r f).clk = s.clk := rfl
@[simp] theorem State.setRegion_pwr (s : State) (r : Nat) (f : Region → Region) : (s.setRegion r f).pwr = s.pwr := rfl
@[simp] theorem State.setRegion_sec (s : State) (r : Nat) (f : Region → Region) : (s.setRegion r f).sec = s.sec := rfl
@[simp] theorem State.setRegion_out (s : State) (r : Nat) (f : Region → Region) : (s.setRegion r f).out = s.out := rfl
@[simp] theorem State.setRegion_flagCnt (s : State) (r : Nat) (f : Region → Region) : (s.setRegion r f).flagCnt = s.flagCnt := rfl
@[simp] theorem State.setRegion_latch (s : State) (r : Nat) (f : Region → Region) : (s.setRegion r f).latch = s.latch := rfl

@[simp] theorem State.putTile_pending (s : State) (i : Nat) (t : Tile) : (s.putTile i t).pending = s.pending := rfl
@[simp] theorem State.putTile_free (s : State) (i : Nat) (t : Tile) : (s.putTile i t).free = s.free := rfl
@[simp] theorem State.putTile_dev (s : State) (i : Nat) (t : Tile) : (s.putTile i t).dev = s.dev := rfl
@[simp] theorem State.putTile_flash (s : State) (i : Nat) (t : Tile) : (s.putTile i t).flash = s.flash := rfl
@[simp] theorem State.putTile_log (s : State) (i : Nat) (t : Tile) : (s.putTile i t).log = s.log := rfl
@[simp] theorem State.putTile_health (s : State) (i : Nat) (t : Tile) : (s.putTile i t).health = s.health := rfl
@[simp] theorem State.putTile_mbx (s : State) (i : Nat) (t : Tile) : (s.putTile i t).mbx = s.mbx := rfl
@[simp] theorem State.putTile_sess (s : State) (i : Nat) (t : Tile) : (s.putTile i t).sess = s.sess := rfl
@[simp] theorem State.putTile_tick (s : State) (i : Nat) (t : Tile) : (s.putTile i t).tick = s.tick := rfl
@[simp] theorem State.putTile_units (s : State) (i : Nat) (t : Tile) : (s.putTile i t).units = s.units := rfl
@[simp] theorem State.putTile_regions (s : State) (i : Nat) (t : Tile) : (s.putTile i t).regions = s.regions := rfl
@[simp] theorem State.putTile_bufs (s : State) (i : Nat) (t : Tile) : (s.putTile i t).bufs = s.bufs := rfl
@[simp] theorem State.putTile_eng (s : State) (i : Nat) (t : Tile) : (s.putTile i t).eng = s.eng := rfl
@[simp] theorem State.putTile_mem (s : State) (i : Nat) (t : Tile) : (s.putTile i t).mem = s.mem := rfl
@[simp] theorem State.putTile_ctl (s : State) (i : Nat) (t : Tile) : (s.putTile i t).ctl = s.ctl := rfl
@[simp] theorem State.putTile_mpk (s : State) (i : Nat) (t : Tile) : (s.putTile i t).mpk = s.mpk := rfl
@[simp] theorem State.putTile_fab (s : State) (i : Nat) (t : Tile) : (s.putTile i t).fab = s.fab := rfl
@[simp] theorem State.putTile_fcfg (s : State) (i : Nat) (t : Tile) : (s.putTile i t).fcfg = s.fcfg := rfl
@[simp] theorem State.putTile_loads (s : State) (i : Nat) (t : Tile) : (s.putTile i t).loads = s.loads := rfl
@[simp] theorem State.putTile_cxl (s : State) (i : Nat) (t : Tile) : (s.putTile i t).cxl = s.cxl := rfl
@[simp] theorem State.putTile_strait (s : State) (i : Nat) (t : Tile) : (s.putTile i t).strait = s.strait := rfl
@[simp] theorem State.putTile_ftx (s : State) (i : Nat) (t : Tile) : (s.putTile i t).ftx = s.ftx := rfl
@[simp] theorem State.putTile_pair (s : State) (i : Nat) (t : Tile) : (s.putTile i t).pair = s.pair := rfl
@[simp] theorem State.putTile_clk (s : State) (i : Nat) (t : Tile) : (s.putTile i t).clk = s.clk := rfl
@[simp] theorem State.putTile_pwr (s : State) (i : Nat) (t : Tile) : (s.putTile i t).pwr = s.pwr := rfl
@[simp] theorem State.putTile_sec (s : State) (i : Nat) (t : Tile) : (s.putTile i t).sec = s.sec := rfl
@[simp] theorem State.putTile_out (s : State) (i : Nat) (t : Tile) : (s.putTile i t).out = s.out := rfl
@[simp] theorem State.putTile_flagCnt (s : State) (i : Nat) (t : Tile) : (s.putTile i t).flagCnt = s.flagCnt := rfl
@[simp] theorem State.putTile_latch (s : State) (i : Nat) (t : Tile) : (s.putTile i t).latch = s.latch := rfl

@[simp] theorem State.putBuf_pending (s : State) (c : Nat) (b : ClusterBuf) : (s.putBuf c b).pending = s.pending := rfl
@[simp] theorem State.putBuf_free (s : State) (c : Nat) (b : ClusterBuf) : (s.putBuf c b).free = s.free := rfl
@[simp] theorem State.putBuf_dev (s : State) (c : Nat) (b : ClusterBuf) : (s.putBuf c b).dev = s.dev := rfl
@[simp] theorem State.putBuf_flash (s : State) (c : Nat) (b : ClusterBuf) : (s.putBuf c b).flash = s.flash := rfl
@[simp] theorem State.putBuf_log (s : State) (c : Nat) (b : ClusterBuf) : (s.putBuf c b).log = s.log := rfl
@[simp] theorem State.putBuf_health (s : State) (c : Nat) (b : ClusterBuf) : (s.putBuf c b).health = s.health := rfl
@[simp] theorem State.putBuf_mbx (s : State) (c : Nat) (b : ClusterBuf) : (s.putBuf c b).mbx = s.mbx := rfl
@[simp] theorem State.putBuf_sess (s : State) (c : Nat) (b : ClusterBuf) : (s.putBuf c b).sess = s.sess := rfl
@[simp] theorem State.putBuf_tick (s : State) (c : Nat) (b : ClusterBuf) : (s.putBuf c b).tick = s.tick := rfl
@[simp] theorem State.putBuf_units (s : State) (c : Nat) (b : ClusterBuf) : (s.putBuf c b).units = s.units := rfl
@[simp] theorem State.putBuf_regions (s : State) (c : Nat) (b : ClusterBuf) : (s.putBuf c b).regions = s.regions := rfl
@[simp] theorem State.putBuf_tiles (s : State) (c : Nat) (b : ClusterBuf) : (s.putBuf c b).tiles = s.tiles := rfl
@[simp] theorem State.putBuf_eng (s : State) (c : Nat) (b : ClusterBuf) : (s.putBuf c b).eng = s.eng := rfl
@[simp] theorem State.putBuf_mem (s : State) (c : Nat) (b : ClusterBuf) : (s.putBuf c b).mem = s.mem := rfl
@[simp] theorem State.putBuf_ctl (s : State) (c : Nat) (b : ClusterBuf) : (s.putBuf c b).ctl = s.ctl := rfl
@[simp] theorem State.putBuf_mpk (s : State) (c : Nat) (b : ClusterBuf) : (s.putBuf c b).mpk = s.mpk := rfl
@[simp] theorem State.putBuf_fab (s : State) (c : Nat) (b : ClusterBuf) : (s.putBuf c b).fab = s.fab := rfl
@[simp] theorem State.putBuf_fcfg (s : State) (c : Nat) (b : ClusterBuf) : (s.putBuf c b).fcfg = s.fcfg := rfl
@[simp] theorem State.putBuf_loads (s : State) (c : Nat) (b : ClusterBuf) : (s.putBuf c b).loads = s.loads := rfl
@[simp] theorem State.putBuf_cxl (s : State) (c : Nat) (b : ClusterBuf) : (s.putBuf c b).cxl = s.cxl := rfl
@[simp] theorem State.putBuf_strait (s : State) (c : Nat) (b : ClusterBuf) : (s.putBuf c b).strait = s.strait := rfl
@[simp] theorem State.putBuf_ftx (s : State) (c : Nat) (b : ClusterBuf) : (s.putBuf c b).ftx = s.ftx := rfl
@[simp] theorem State.putBuf_pair (s : State) (c : Nat) (b : ClusterBuf) : (s.putBuf c b).pair = s.pair := rfl
@[simp] theorem State.putBuf_clk (s : State) (c : Nat) (b : ClusterBuf) : (s.putBuf c b).clk = s.clk := rfl
@[simp] theorem State.putBuf_pwr (s : State) (c : Nat) (b : ClusterBuf) : (s.putBuf c b).pwr = s.pwr := rfl
@[simp] theorem State.putBuf_sec (s : State) (c : Nat) (b : ClusterBuf) : (s.putBuf c b).sec = s.sec := rfl
@[simp] theorem State.putBuf_out (s : State) (c : Nat) (b : ClusterBuf) : (s.putBuf c b).out = s.out := rfl
@[simp] theorem State.putBuf_flagCnt (s : State) (c : Nat) (b : ClusterBuf) : (s.putBuf c b).flagCnt = s.flagCnt := rfl
@[simp] theorem State.putBuf_latch (s : State) (c : Nat) (b : ClusterBuf) : (s.putBuf c b).latch = s.latch := rfl

@[simp] theorem State.setStream_pending (s : State) (r n : Nat) (f : Stream → Stream) : (s.setStream r n f).pending = s.pending := rfl
@[simp] theorem State.setStream_free (s : State) (r n : Nat) (f : Stream → Stream) : (s.setStream r n f).free = s.free := rfl
@[simp] theorem State.setStream_dev (s : State) (r n : Nat) (f : Stream → Stream) : (s.setStream r n f).dev = s.dev := rfl
@[simp] theorem State.setStream_flash (s : State) (r n : Nat) (f : Stream → Stream) : (s.setStream r n f).flash = s.flash := rfl
@[simp] theorem State.setStream_log (s : State) (r n : Nat) (f : Stream → Stream) : (s.setStream r n f).log = s.log := rfl
@[simp] theorem State.setStream_health (s : State) (r n : Nat) (f : Stream → Stream) : (s.setStream r n f).health = s.health := rfl
@[simp] theorem State.setStream_mbx (s : State) (r n : Nat) (f : Stream → Stream) : (s.setStream r n f).mbx = s.mbx := rfl
@[simp] theorem State.setStream_sess (s : State) (r n : Nat) (f : Stream → Stream) : (s.setStream r n f).sess = s.sess := rfl
@[simp] theorem State.setStream_tick (s : State) (r n : Nat) (f : Stream → Stream) : (s.setStream r n f).tick = s.tick := rfl
@[simp] theorem State.setStream_units (s : State) (r n : Nat) (f : Stream → Stream) : (s.setStream r n f).units = s.units := rfl
@[simp] theorem State.setStream_regions (s : State) (r n : Nat) (f : Stream → Stream) : (s.setStream r n f).regions = s.regions := rfl
@[simp] theorem State.setStream_tiles (s : State) (r n : Nat) (f : Stream → Stream) : (s.setStream r n f).tiles = s.tiles := rfl
@[simp] theorem State.setStream_bufs (s : State) (r n : Nat) (f : Stream → Stream) : (s.setStream r n f).bufs = s.bufs := rfl
@[simp] theorem State.setStream_mem (s : State) (r n : Nat) (f : Stream → Stream) : (s.setStream r n f).mem = s.mem := rfl
@[simp] theorem State.setStream_ctl (s : State) (r n : Nat) (f : Stream → Stream) : (s.setStream r n f).ctl = s.ctl := rfl
@[simp] theorem State.setStream_mpk (s : State) (r n : Nat) (f : Stream → Stream) : (s.setStream r n f).mpk = s.mpk := rfl
@[simp] theorem State.setStream_fab (s : State) (r n : Nat) (f : Stream → Stream) : (s.setStream r n f).fab = s.fab := rfl
@[simp] theorem State.setStream_fcfg (s : State) (r n : Nat) (f : Stream → Stream) : (s.setStream r n f).fcfg = s.fcfg := rfl
@[simp] theorem State.setStream_loads (s : State) (r n : Nat) (f : Stream → Stream) : (s.setStream r n f).loads = s.loads := rfl
@[simp] theorem State.setStream_cxl (s : State) (r n : Nat) (f : Stream → Stream) : (s.setStream r n f).cxl = s.cxl := rfl
@[simp] theorem State.setStream_strait (s : State) (r n : Nat) (f : Stream → Stream) : (s.setStream r n f).strait = s.strait := rfl
@[simp] theorem State.setStream_ftx (s : State) (r n : Nat) (f : Stream → Stream) : (s.setStream r n f).ftx = s.ftx := rfl
@[simp] theorem State.setStream_pair (s : State) (r n : Nat) (f : Stream → Stream) : (s.setStream r n f).pair = s.pair := rfl
@[simp] theorem State.setStream_clk (s : State) (r n : Nat) (f : Stream → Stream) : (s.setStream r n f).clk = s.clk := rfl
@[simp] theorem State.setStream_pwr (s : State) (r n : Nat) (f : Stream → Stream) : (s.setStream r n f).pwr = s.pwr := rfl
@[simp] theorem State.setStream_sec (s : State) (r n : Nat) (f : Stream → Stream) : (s.setStream r n f).sec = s.sec := rfl
@[simp] theorem State.setStream_out (s : State) (r n : Nat) (f : Stream → Stream) : (s.setStream r n f).out = s.out := rfl
@[simp] theorem State.setStream_flagCnt (s : State) (r n : Nat) (f : Stream → Stream) : (s.setStream r n f).flagCnt = s.flagCnt := rfl
@[simp] theorem State.setStream_latch (s : State) (r n : Nat) (f : Stream → Stream) : (s.setStream r n f).latch = s.latch := rfl

@[simp] theorem State.setCtl_pending (s : State) (n : Nat) (f : MemCtl → MemCtl) : (s.setCtl n f).pending = s.pending := rfl
@[simp] theorem State.setCtl_free (s : State) (n : Nat) (f : MemCtl → MemCtl) : (s.setCtl n f).free = s.free := rfl
@[simp] theorem State.setCtl_dev (s : State) (n : Nat) (f : MemCtl → MemCtl) : (s.setCtl n f).dev = s.dev := rfl
@[simp] theorem State.setCtl_flash (s : State) (n : Nat) (f : MemCtl → MemCtl) : (s.setCtl n f).flash = s.flash := rfl
@[simp] theorem State.setCtl_log (s : State) (n : Nat) (f : MemCtl → MemCtl) : (s.setCtl n f).log = s.log := rfl
@[simp] theorem State.setCtl_health (s : State) (n : Nat) (f : MemCtl → MemCtl) : (s.setCtl n f).health = s.health := rfl
@[simp] theorem State.setCtl_mbx (s : State) (n : Nat) (f : MemCtl → MemCtl) : (s.setCtl n f).mbx = s.mbx := rfl
@[simp] theorem State.setCtl_sess (s : State) (n : Nat) (f : MemCtl → MemCtl) : (s.setCtl n f).sess = s.sess := rfl
@[simp] theorem State.setCtl_tick (s : State) (n : Nat) (f : MemCtl → MemCtl) : (s.setCtl n f).tick = s.tick := rfl
@[simp] theorem State.setCtl_units (s : State) (n : Nat) (f : MemCtl → MemCtl) : (s.setCtl n f).units = s.units := rfl
@[simp] theorem State.setCtl_regions (s : State) (n : Nat) (f : MemCtl → MemCtl) : (s.setCtl n f).regions = s.regions := rfl
@[simp] theorem State.setCtl_tiles (s : State) (n : Nat) (f : MemCtl → MemCtl) : (s.setCtl n f).tiles = s.tiles := rfl
@[simp] theorem State.setCtl_bufs (s : State) (n : Nat) (f : MemCtl → MemCtl) : (s.setCtl n f).bufs = s.bufs := rfl
@[simp] theorem State.setCtl_eng (s : State) (n : Nat) (f : MemCtl → MemCtl) : (s.setCtl n f).eng = s.eng := rfl
@[simp] theorem State.setCtl_mem (s : State) (n : Nat) (f : MemCtl → MemCtl) : (s.setCtl n f).mem = s.mem := rfl
@[simp] theorem State.setCtl_mpk (s : State) (n : Nat) (f : MemCtl → MemCtl) : (s.setCtl n f).mpk = s.mpk := rfl
@[simp] theorem State.setCtl_fab (s : State) (n : Nat) (f : MemCtl → MemCtl) : (s.setCtl n f).fab = s.fab := rfl
@[simp] theorem State.setCtl_fcfg (s : State) (n : Nat) (f : MemCtl → MemCtl) : (s.setCtl n f).fcfg = s.fcfg := rfl
@[simp] theorem State.setCtl_loads (s : State) (n : Nat) (f : MemCtl → MemCtl) : (s.setCtl n f).loads = s.loads := rfl
@[simp] theorem State.setCtl_cxl (s : State) (n : Nat) (f : MemCtl → MemCtl) : (s.setCtl n f).cxl = s.cxl := rfl
@[simp] theorem State.setCtl_strait (s : State) (n : Nat) (f : MemCtl → MemCtl) : (s.setCtl n f).strait = s.strait := rfl
@[simp] theorem State.setCtl_ftx (s : State) (n : Nat) (f : MemCtl → MemCtl) : (s.setCtl n f).ftx = s.ftx := rfl
@[simp] theorem State.setCtl_pair (s : State) (n : Nat) (f : MemCtl → MemCtl) : (s.setCtl n f).pair = s.pair := rfl
@[simp] theorem State.setCtl_clk (s : State) (n : Nat) (f : MemCtl → MemCtl) : (s.setCtl n f).clk = s.clk := rfl
@[simp] theorem State.setCtl_pwr (s : State) (n : Nat) (f : MemCtl → MemCtl) : (s.setCtl n f).pwr = s.pwr := rfl
@[simp] theorem State.setCtl_sec (s : State) (n : Nat) (f : MemCtl → MemCtl) : (s.setCtl n f).sec = s.sec := rfl
@[simp] theorem State.setCtl_out (s : State) (n : Nat) (f : MemCtl → MemCtl) : (s.setCtl n f).out = s.out := rfl
@[simp] theorem State.setCtl_flagCnt (s : State) (n : Nat) (f : MemCtl → MemCtl) : (s.setCtl n f).flagCnt = s.flagCnt := rfl
@[simp] theorem State.setCtl_latch (s : State) (n : Nat) (f : MemCtl → MemCtl) : (s.setCtl n f).latch = s.latch := rfl

@[simp] theorem State.setFab_pending (s : State) (r : Nat) (f : FabRegion → FabRegion) : (s.setFab r f).pending = s.pending := rfl
@[simp] theorem State.setFab_free (s : State) (r : Nat) (f : FabRegion → FabRegion) : (s.setFab r f).free = s.free := rfl
@[simp] theorem State.setFab_dev (s : State) (r : Nat) (f : FabRegion → FabRegion) : (s.setFab r f).dev = s.dev := rfl
@[simp] theorem State.setFab_flash (s : State) (r : Nat) (f : FabRegion → FabRegion) : (s.setFab r f).flash = s.flash := rfl
@[simp] theorem State.setFab_log (s : State) (r : Nat) (f : FabRegion → FabRegion) : (s.setFab r f).log = s.log := rfl
@[simp] theorem State.setFab_health (s : State) (r : Nat) (f : FabRegion → FabRegion) : (s.setFab r f).health = s.health := rfl
@[simp] theorem State.setFab_mbx (s : State) (r : Nat) (f : FabRegion → FabRegion) : (s.setFab r f).mbx = s.mbx := rfl
@[simp] theorem State.setFab_sess (s : State) (r : Nat) (f : FabRegion → FabRegion) : (s.setFab r f).sess = s.sess := rfl
@[simp] theorem State.setFab_tick (s : State) (r : Nat) (f : FabRegion → FabRegion) : (s.setFab r f).tick = s.tick := rfl
@[simp] theorem State.setFab_units (s : State) (r : Nat) (f : FabRegion → FabRegion) : (s.setFab r f).units = s.units := rfl
@[simp] theorem State.setFab_regions (s : State) (r : Nat) (f : FabRegion → FabRegion) : (s.setFab r f).regions = s.regions := rfl
@[simp] theorem State.setFab_tiles (s : State) (r : Nat) (f : FabRegion → FabRegion) : (s.setFab r f).tiles = s.tiles := rfl
@[simp] theorem State.setFab_bufs (s : State) (r : Nat) (f : FabRegion → FabRegion) : (s.setFab r f).bufs = s.bufs := rfl
@[simp] theorem State.setFab_eng (s : State) (r : Nat) (f : FabRegion → FabRegion) : (s.setFab r f).eng = s.eng := rfl
@[simp] theorem State.setFab_mem (s : State) (r : Nat) (f : FabRegion → FabRegion) : (s.setFab r f).mem = s.mem := rfl
@[simp] theorem State.setFab_ctl (s : State) (r : Nat) (f : FabRegion → FabRegion) : (s.setFab r f).ctl = s.ctl := rfl
@[simp] theorem State.setFab_mpk (s : State) (r : Nat) (f : FabRegion → FabRegion) : (s.setFab r f).mpk = s.mpk := rfl
@[simp] theorem State.setFab_fcfg (s : State) (r : Nat) (f : FabRegion → FabRegion) : (s.setFab r f).fcfg = s.fcfg := rfl
@[simp] theorem State.setFab_loads (s : State) (r : Nat) (f : FabRegion → FabRegion) : (s.setFab r f).loads = s.loads := rfl
@[simp] theorem State.setFab_cxl (s : State) (r : Nat) (f : FabRegion → FabRegion) : (s.setFab r f).cxl = s.cxl := rfl
@[simp] theorem State.setFab_strait (s : State) (r : Nat) (f : FabRegion → FabRegion) : (s.setFab r f).strait = s.strait := rfl
@[simp] theorem State.setFab_ftx (s : State) (r : Nat) (f : FabRegion → FabRegion) : (s.setFab r f).ftx = s.ftx := rfl
@[simp] theorem State.setFab_pair (s : State) (r : Nat) (f : FabRegion → FabRegion) : (s.setFab r f).pair = s.pair := rfl
@[simp] theorem State.setFab_clk (s : State) (r : Nat) (f : FabRegion → FabRegion) : (s.setFab r f).clk = s.clk := rfl
@[simp] theorem State.setFab_pwr (s : State) (r : Nat) (f : FabRegion → FabRegion) : (s.setFab r f).pwr = s.pwr := rfl
@[simp] theorem State.setFab_sec (s : State) (r : Nat) (f : FabRegion → FabRegion) : (s.setFab r f).sec = s.sec := rfl
@[simp] theorem State.setFab_out (s : State) (r : Nat) (f : FabRegion → FabRegion) : (s.setFab r f).out = s.out := rfl
@[simp] theorem State.setFab_flagCnt (s : State) (r : Nat) (f : FabRegion → FabRegion) : (s.setFab r f).flagCnt = s.flagCnt := rfl
@[simp] theorem State.setFab_latch (s : State) (r : Nat) (f : FabRegion → FabRegion) : (s.setFab r f).latch = s.latch := rfl

@[simp] theorem State.setPort_pending (s : State) (r p : Nat) (f : Port → Port) : (s.setPort r p f).pending = s.pending := rfl
@[simp] theorem State.setPort_free (s : State) (r p : Nat) (f : Port → Port) : (s.setPort r p f).free = s.free := rfl
@[simp] theorem State.setPort_dev (s : State) (r p : Nat) (f : Port → Port) : (s.setPort r p f).dev = s.dev := rfl
@[simp] theorem State.setPort_flash (s : State) (r p : Nat) (f : Port → Port) : (s.setPort r p f).flash = s.flash := rfl
@[simp] theorem State.setPort_log (s : State) (r p : Nat) (f : Port → Port) : (s.setPort r p f).log = s.log := rfl
@[simp] theorem State.setPort_health (s : State) (r p : Nat) (f : Port → Port) : (s.setPort r p f).health = s.health := rfl
@[simp] theorem State.setPort_mbx (s : State) (r p : Nat) (f : Port → Port) : (s.setPort r p f).mbx = s.mbx := rfl
@[simp] theorem State.setPort_sess (s : State) (r p : Nat) (f : Port → Port) : (s.setPort r p f).sess = s.sess := rfl
@[simp] theorem State.setPort_tick (s : State) (r p : Nat) (f : Port → Port) : (s.setPort r p f).tick = s.tick := rfl
@[simp] theorem State.setPort_units (s : State) (r p : Nat) (f : Port → Port) : (s.setPort r p f).units = s.units := rfl
@[simp] theorem State.setPort_regions (s : State) (r p : Nat) (f : Port → Port) : (s.setPort r p f).regions = s.regions := rfl
@[simp] theorem State.setPort_tiles (s : State) (r p : Nat) (f : Port → Port) : (s.setPort r p f).tiles = s.tiles := rfl
@[simp] theorem State.setPort_bufs (s : State) (r p : Nat) (f : Port → Port) : (s.setPort r p f).bufs = s.bufs := rfl
@[simp] theorem State.setPort_eng (s : State) (r p : Nat) (f : Port → Port) : (s.setPort r p f).eng = s.eng := rfl
@[simp] theorem State.setPort_mem (s : State) (r p : Nat) (f : Port → Port) : (s.setPort r p f).mem = s.mem := rfl
@[simp] theorem State.setPort_ctl (s : State) (r p : Nat) (f : Port → Port) : (s.setPort r p f).ctl = s.ctl := rfl
@[simp] theorem State.setPort_mpk (s : State) (r p : Nat) (f : Port → Port) : (s.setPort r p f).mpk = s.mpk := rfl
@[simp] theorem State.setPort_fcfg (s : State) (r p : Nat) (f : Port → Port) : (s.setPort r p f).fcfg = s.fcfg := rfl
@[simp] theorem State.setPort_loads (s : State) (r p : Nat) (f : Port → Port) : (s.setPort r p f).loads = s.loads := rfl
@[simp] theorem State.setPort_cxl (s : State) (r p : Nat) (f : Port → Port) : (s.setPort r p f).cxl = s.cxl := rfl
@[simp] theorem State.setPort_strait (s : State) (r p : Nat) (f : Port → Port) : (s.setPort r p f).strait = s.strait := rfl
@[simp] theorem State.setPort_ftx (s : State) (r p : Nat) (f : Port → Port) : (s.setPort r p f).ftx = s.ftx := rfl
@[simp] theorem State.setPort_pair (s : State) (r p : Nat) (f : Port → Port) : (s.setPort r p f).pair = s.pair := rfl
@[simp] theorem State.setPort_clk (s : State) (r p : Nat) (f : Port → Port) : (s.setPort r p f).clk = s.clk := rfl
@[simp] theorem State.setPort_pwr (s : State) (r p : Nat) (f : Port → Port) : (s.setPort r p f).pwr = s.pwr := rfl
@[simp] theorem State.setPort_sec (s : State) (r p : Nat) (f : Port → Port) : (s.setPort r p f).sec = s.sec := rfl
@[simp] theorem State.setPort_out (s : State) (r p : Nat) (f : Port → Port) : (s.setPort r p f).out = s.out := rfl
@[simp] theorem State.setPort_flagCnt (s : State) (r p : Nat) (f : Port → Port) : (s.setPort r p f).flagCnt = s.flagCnt := rfl
@[simp] theorem State.setPort_latch (s : State) (r p : Nat) (f : Port → Port) : (s.setPort r p f).latch = s.latch := rfl

@[simp] theorem State.setLane_pending (s : State) (l : Nat) (f : FabLane → FabLane) : (s.setLane l f).pending = s.pending := rfl
@[simp] theorem State.setLane_free (s : State) (l : Nat) (f : FabLane → FabLane) : (s.setLane l f).free = s.free := rfl
@[simp] theorem State.setLane_dev (s : State) (l : Nat) (f : FabLane → FabLane) : (s.setLane l f).dev = s.dev := rfl
@[simp] theorem State.setLane_flash (s : State) (l : Nat) (f : FabLane → FabLane) : (s.setLane l f).flash = s.flash := rfl
@[simp] theorem State.setLane_log (s : State) (l : Nat) (f : FabLane → FabLane) : (s.setLane l f).log = s.log := rfl
@[simp] theorem State.setLane_health (s : State) (l : Nat) (f : FabLane → FabLane) : (s.setLane l f).health = s.health := rfl
@[simp] theorem State.setLane_mbx (s : State) (l : Nat) (f : FabLane → FabLane) : (s.setLane l f).mbx = s.mbx := rfl
@[simp] theorem State.setLane_sess (s : State) (l : Nat) (f : FabLane → FabLane) : (s.setLane l f).sess = s.sess := rfl
@[simp] theorem State.setLane_tick (s : State) (l : Nat) (f : FabLane → FabLane) : (s.setLane l f).tick = s.tick := rfl
@[simp] theorem State.setLane_units (s : State) (l : Nat) (f : FabLane → FabLane) : (s.setLane l f).units = s.units := rfl
@[simp] theorem State.setLane_regions (s : State) (l : Nat) (f : FabLane → FabLane) : (s.setLane l f).regions = s.regions := rfl
@[simp] theorem State.setLane_tiles (s : State) (l : Nat) (f : FabLane → FabLane) : (s.setLane l f).tiles = s.tiles := rfl
@[simp] theorem State.setLane_bufs (s : State) (l : Nat) (f : FabLane → FabLane) : (s.setLane l f).bufs = s.bufs := rfl
@[simp] theorem State.setLane_eng (s : State) (l : Nat) (f : FabLane → FabLane) : (s.setLane l f).eng = s.eng := rfl
@[simp] theorem State.setLane_mem (s : State) (l : Nat) (f : FabLane → FabLane) : (s.setLane l f).mem = s.mem := rfl
@[simp] theorem State.setLane_ctl (s : State) (l : Nat) (f : FabLane → FabLane) : (s.setLane l f).ctl = s.ctl := rfl
@[simp] theorem State.setLane_mpk (s : State) (l : Nat) (f : FabLane → FabLane) : (s.setLane l f).mpk = s.mpk := rfl
@[simp] theorem State.setLane_fab (s : State) (l : Nat) (f : FabLane → FabLane) : (s.setLane l f).fab = s.fab := rfl
@[simp] theorem State.setLane_fcfg (s : State) (l : Nat) (f : FabLane → FabLane) : (s.setLane l f).fcfg = s.fcfg := rfl
@[simp] theorem State.setLane_loads (s : State) (l : Nat) (f : FabLane → FabLane) : (s.setLane l f).loads = s.loads := rfl
@[simp] theorem State.setLane_cxl (s : State) (l : Nat) (f : FabLane → FabLane) : (s.setLane l f).cxl = s.cxl := rfl
@[simp] theorem State.setLane_strait (s : State) (l : Nat) (f : FabLane → FabLane) : (s.setLane l f).strait = s.strait := rfl
@[simp] theorem State.setLane_pair (s : State) (l : Nat) (f : FabLane → FabLane) : (s.setLane l f).pair = s.pair := rfl
@[simp] theorem State.setLane_clk (s : State) (l : Nat) (f : FabLane → FabLane) : (s.setLane l f).clk = s.clk := rfl
@[simp] theorem State.setLane_pwr (s : State) (l : Nat) (f : FabLane → FabLane) : (s.setLane l f).pwr = s.pwr := rfl
@[simp] theorem State.setLane_sec (s : State) (l : Nat) (f : FabLane → FabLane) : (s.setLane l f).sec = s.sec := rfl
@[simp] theorem State.setLane_out (s : State) (l : Nat) (f : FabLane → FabLane) : (s.setLane l f).out = s.out := rfl
@[simp] theorem State.setLane_flagCnt (s : State) (l : Nat) (f : FabLane → FabLane) : (s.setLane l f).flagCnt = s.flagCnt := rfl
@[simp] theorem State.setLane_latch (s : State) (l : Nat) (f : FabLane → FabLane) : (s.setLane l f).latch = s.latch := rfl

@[simp] theorem State.setStrLane_pending (s : State) (l : Nat) (f : StrLane → StrLane) : (s.setStrLane l f).pending = s.pending := rfl
@[simp] theorem State.setStrLane_free (s : State) (l : Nat) (f : StrLane → StrLane) : (s.setStrLane l f).free = s.free := rfl
@[simp] theorem State.setStrLane_dev (s : State) (l : Nat) (f : StrLane → StrLane) : (s.setStrLane l f).dev = s.dev := rfl
@[simp] theorem State.setStrLane_flash (s : State) (l : Nat) (f : StrLane → StrLane) : (s.setStrLane l f).flash = s.flash := rfl
@[simp] theorem State.setStrLane_log (s : State) (l : Nat) (f : StrLane → StrLane) : (s.setStrLane l f).log = s.log := rfl
@[simp] theorem State.setStrLane_health (s : State) (l : Nat) (f : StrLane → StrLane) : (s.setStrLane l f).health = s.health := rfl
@[simp] theorem State.setStrLane_mbx (s : State) (l : Nat) (f : StrLane → StrLane) : (s.setStrLane l f).mbx = s.mbx := rfl
@[simp] theorem State.setStrLane_sess (s : State) (l : Nat) (f : StrLane → StrLane) : (s.setStrLane l f).sess = s.sess := rfl
@[simp] theorem State.setStrLane_tick (s : State) (l : Nat) (f : StrLane → StrLane) : (s.setStrLane l f).tick = s.tick := rfl
@[simp] theorem State.setStrLane_units (s : State) (l : Nat) (f : StrLane → StrLane) : (s.setStrLane l f).units = s.units := rfl
@[simp] theorem State.setStrLane_regions (s : State) (l : Nat) (f : StrLane → StrLane) : (s.setStrLane l f).regions = s.regions := rfl
@[simp] theorem State.setStrLane_tiles (s : State) (l : Nat) (f : StrLane → StrLane) : (s.setStrLane l f).tiles = s.tiles := rfl
@[simp] theorem State.setStrLane_bufs (s : State) (l : Nat) (f : StrLane → StrLane) : (s.setStrLane l f).bufs = s.bufs := rfl
@[simp] theorem State.setStrLane_eng (s : State) (l : Nat) (f : StrLane → StrLane) : (s.setStrLane l f).eng = s.eng := rfl
@[simp] theorem State.setStrLane_mem (s : State) (l : Nat) (f : StrLane → StrLane) : (s.setStrLane l f).mem = s.mem := rfl
@[simp] theorem State.setStrLane_ctl (s : State) (l : Nat) (f : StrLane → StrLane) : (s.setStrLane l f).ctl = s.ctl := rfl
@[simp] theorem State.setStrLane_mpk (s : State) (l : Nat) (f : StrLane → StrLane) : (s.setStrLane l f).mpk = s.mpk := rfl
@[simp] theorem State.setStrLane_fab (s : State) (l : Nat) (f : StrLane → StrLane) : (s.setStrLane l f).fab = s.fab := rfl
@[simp] theorem State.setStrLane_fcfg (s : State) (l : Nat) (f : StrLane → StrLane) : (s.setStrLane l f).fcfg = s.fcfg := rfl
@[simp] theorem State.setStrLane_loads (s : State) (l : Nat) (f : StrLane → StrLane) : (s.setStrLane l f).loads = s.loads := rfl
@[simp] theorem State.setStrLane_cxl (s : State) (l : Nat) (f : StrLane → StrLane) : (s.setStrLane l f).cxl = s.cxl := rfl
@[simp] theorem State.setStrLane_ftx (s : State) (l : Nat) (f : StrLane → StrLane) : (s.setStrLane l f).ftx = s.ftx := rfl
@[simp] theorem State.setStrLane_pair (s : State) (l : Nat) (f : StrLane → StrLane) : (s.setStrLane l f).pair = s.pair := rfl
@[simp] theorem State.setStrLane_clk (s : State) (l : Nat) (f : StrLane → StrLane) : (s.setStrLane l f).clk = s.clk := rfl
@[simp] theorem State.setStrLane_pwr (s : State) (l : Nat) (f : StrLane → StrLane) : (s.setStrLane l f).pwr = s.pwr := rfl
@[simp] theorem State.setStrLane_sec (s : State) (l : Nat) (f : StrLane → StrLane) : (s.setStrLane l f).sec = s.sec := rfl
@[simp] theorem State.setStrLane_out (s : State) (l : Nat) (f : StrLane → StrLane) : (s.setStrLane l f).out = s.out := rfl
@[simp] theorem State.setStrLane_flagCnt (s : State) (l : Nat) (f : StrLane → StrLane) : (s.setStrLane l f).flagCnt = s.flagCnt := rfl
@[simp] theorem State.setStrLane_latch (s : State) (l : Nat) (f : StrLane → StrLane) : (s.setStrLane l f).latch = s.latch := rfl

@[simp] theorem State.setSess_pending (s : State) (id : Nat) (f : Sess → Sess) : (s.setSess id f).pending = s.pending := rfl
@[simp] theorem State.setSess_free (s : State) (id : Nat) (f : Sess → Sess) : (s.setSess id f).free = s.free := rfl
@[simp] theorem State.setSess_dev (s : State) (id : Nat) (f : Sess → Sess) : (s.setSess id f).dev = s.dev := rfl
@[simp] theorem State.setSess_flash (s : State) (id : Nat) (f : Sess → Sess) : (s.setSess id f).flash = s.flash := rfl
@[simp] theorem State.setSess_log (s : State) (id : Nat) (f : Sess → Sess) : (s.setSess id f).log = s.log := rfl
@[simp] theorem State.setSess_health (s : State) (id : Nat) (f : Sess → Sess) : (s.setSess id f).health = s.health := rfl
@[simp] theorem State.setSess_mbx (s : State) (id : Nat) (f : Sess → Sess) : (s.setSess id f).mbx = s.mbx := rfl
@[simp] theorem State.setSess_tick (s : State) (id : Nat) (f : Sess → Sess) : (s.setSess id f).tick = s.tick := rfl
@[simp] theorem State.setSess_units (s : State) (id : Nat) (f : Sess → Sess) : (s.setSess id f).units = s.units := rfl
@[simp] theorem State.setSess_regions (s : State) (id : Nat) (f : Sess → Sess) : (s.setSess id f).regions = s.regions := rfl
@[simp] theorem State.setSess_tiles (s : State) (id : Nat) (f : Sess → Sess) : (s.setSess id f).tiles = s.tiles := rfl
@[simp] theorem State.setSess_bufs (s : State) (id : Nat) (f : Sess → Sess) : (s.setSess id f).bufs = s.bufs := rfl
@[simp] theorem State.setSess_eng (s : State) (id : Nat) (f : Sess → Sess) : (s.setSess id f).eng = s.eng := rfl
@[simp] theorem State.setSess_mem (s : State) (id : Nat) (f : Sess → Sess) : (s.setSess id f).mem = s.mem := rfl
@[simp] theorem State.setSess_ctl (s : State) (id : Nat) (f : Sess → Sess) : (s.setSess id f).ctl = s.ctl := rfl
@[simp] theorem State.setSess_mpk (s : State) (id : Nat) (f : Sess → Sess) : (s.setSess id f).mpk = s.mpk := rfl
@[simp] theorem State.setSess_fab (s : State) (id : Nat) (f : Sess → Sess) : (s.setSess id f).fab = s.fab := rfl
@[simp] theorem State.setSess_fcfg (s : State) (id : Nat) (f : Sess → Sess) : (s.setSess id f).fcfg = s.fcfg := rfl
@[simp] theorem State.setSess_loads (s : State) (id : Nat) (f : Sess → Sess) : (s.setSess id f).loads = s.loads := rfl
@[simp] theorem State.setSess_cxl (s : State) (id : Nat) (f : Sess → Sess) : (s.setSess id f).cxl = s.cxl := rfl
@[simp] theorem State.setSess_strait (s : State) (id : Nat) (f : Sess → Sess) : (s.setSess id f).strait = s.strait := rfl
@[simp] theorem State.setSess_ftx (s : State) (id : Nat) (f : Sess → Sess) : (s.setSess id f).ftx = s.ftx := rfl
@[simp] theorem State.setSess_pair (s : State) (id : Nat) (f : Sess → Sess) : (s.setSess id f).pair = s.pair := rfl
@[simp] theorem State.setSess_clk (s : State) (id : Nat) (f : Sess → Sess) : (s.setSess id f).clk = s.clk := rfl
@[simp] theorem State.setSess_pwr (s : State) (id : Nat) (f : Sess → Sess) : (s.setSess id f).pwr = s.pwr := rfl
@[simp] theorem State.setSess_sec (s : State) (id : Nat) (f : Sess → Sess) : (s.setSess id f).sec = s.sec := rfl
@[simp] theorem State.setSess_out (s : State) (id : Nat) (f : Sess → Sess) : (s.setSess id f).out = s.out := rfl
@[simp] theorem State.setSess_flagCnt (s : State) (id : Nat) (f : Sess → Sess) : (s.setSess id f).flagCnt = s.flagCnt := rfl
@[simp] theorem State.setSess_latch (s : State) (id : Nat) (f : Sess → Sess) : (s.setSess id f).latch = s.latch := rfl

@[simp] theorem State.setTileRegs_pending (s : State) (i : Nat) (f : TileRegs → TileRegs) : (s.setTileRegs i f).pending = s.pending := rfl
@[simp] theorem State.setTileRegs_free (s : State) (i : Nat) (f : TileRegs → TileRegs) : (s.setTileRegs i f).free = s.free := rfl
@[simp] theorem State.setTileRegs_dev (s : State) (i : Nat) (f : TileRegs → TileRegs) : (s.setTileRegs i f).dev = s.dev := rfl
@[simp] theorem State.setTileRegs_flash (s : State) (i : Nat) (f : TileRegs → TileRegs) : (s.setTileRegs i f).flash = s.flash := rfl
@[simp] theorem State.setTileRegs_log (s : State) (i : Nat) (f : TileRegs → TileRegs) : (s.setTileRegs i f).log = s.log := rfl
@[simp] theorem State.setTileRegs_health (s : State) (i : Nat) (f : TileRegs → TileRegs) : (s.setTileRegs i f).health = s.health := rfl
@[simp] theorem State.setTileRegs_mbx (s : State) (i : Nat) (f : TileRegs → TileRegs) : (s.setTileRegs i f).mbx = s.mbx := rfl
@[simp] theorem State.setTileRegs_sess (s : State) (i : Nat) (f : TileRegs → TileRegs) : (s.setTileRegs i f).sess = s.sess := rfl
@[simp] theorem State.setTileRegs_tick (s : State) (i : Nat) (f : TileRegs → TileRegs) : (s.setTileRegs i f).tick = s.tick := rfl
@[simp] theorem State.setTileRegs_units (s : State) (i : Nat) (f : TileRegs → TileRegs) : (s.setTileRegs i f).units = s.units := rfl
@[simp] theorem State.setTileRegs_regions (s : State) (i : Nat) (f : TileRegs → TileRegs) : (s.setTileRegs i f).regions = s.regions := rfl
@[simp] theorem State.setTileRegs_bufs (s : State) (i : Nat) (f : TileRegs → TileRegs) : (s.setTileRegs i f).bufs = s.bufs := rfl
@[simp] theorem State.setTileRegs_eng (s : State) (i : Nat) (f : TileRegs → TileRegs) : (s.setTileRegs i f).eng = s.eng := rfl
@[simp] theorem State.setTileRegs_mem (s : State) (i : Nat) (f : TileRegs → TileRegs) : (s.setTileRegs i f).mem = s.mem := rfl
@[simp] theorem State.setTileRegs_ctl (s : State) (i : Nat) (f : TileRegs → TileRegs) : (s.setTileRegs i f).ctl = s.ctl := rfl
@[simp] theorem State.setTileRegs_mpk (s : State) (i : Nat) (f : TileRegs → TileRegs) : (s.setTileRegs i f).mpk = s.mpk := rfl
@[simp] theorem State.setTileRegs_fab (s : State) (i : Nat) (f : TileRegs → TileRegs) : (s.setTileRegs i f).fab = s.fab := rfl
@[simp] theorem State.setTileRegs_fcfg (s : State) (i : Nat) (f : TileRegs → TileRegs) : (s.setTileRegs i f).fcfg = s.fcfg := rfl
@[simp] theorem State.setTileRegs_loads (s : State) (i : Nat) (f : TileRegs → TileRegs) : (s.setTileRegs i f).loads = s.loads := rfl
@[simp] theorem State.setTileRegs_cxl (s : State) (i : Nat) (f : TileRegs → TileRegs) : (s.setTileRegs i f).cxl = s.cxl := rfl
@[simp] theorem State.setTileRegs_strait (s : State) (i : Nat) (f : TileRegs → TileRegs) : (s.setTileRegs i f).strait = s.strait := rfl
@[simp] theorem State.setTileRegs_ftx (s : State) (i : Nat) (f : TileRegs → TileRegs) : (s.setTileRegs i f).ftx = s.ftx := rfl
@[simp] theorem State.setTileRegs_pair (s : State) (i : Nat) (f : TileRegs → TileRegs) : (s.setTileRegs i f).pair = s.pair := rfl
@[simp] theorem State.setTileRegs_clk (s : State) (i : Nat) (f : TileRegs → TileRegs) : (s.setTileRegs i f).clk = s.clk := rfl
@[simp] theorem State.setTileRegs_pwr (s : State) (i : Nat) (f : TileRegs → TileRegs) : (s.setTileRegs i f).pwr = s.pwr := rfl
@[simp] theorem State.setTileRegs_sec (s : State) (i : Nat) (f : TileRegs → TileRegs) : (s.setTileRegs i f).sec = s.sec := rfl
@[simp] theorem State.setTileRegs_out (s : State) (i : Nat) (f : TileRegs → TileRegs) : (s.setTileRegs i f).out = s.out := rfl
@[simp] theorem State.setTileRegs_flagCnt (s : State) (i : Nat) (f : TileRegs → TileRegs) : (s.setTileRegs i f).flagCnt = s.flagCnt := rfl
@[simp] theorem State.setTileRegs_latch (s : State) (i : Nat) (f : TileRegs → TileRegs) : (s.setTileRegs i f).latch = s.latch := rfl

@[simp] theorem State.runTile_pending (s : State) (i : Nat) (f : Tile → Tile) : (s.runTile i f).pending = s.pending := rfl
@[simp] theorem State.runTile_free (s : State) (i : Nat) (f : Tile → Tile) : (s.runTile i f).free = s.free := rfl
@[simp] theorem State.runTile_dev (s : State) (i : Nat) (f : Tile → Tile) : (s.runTile i f).dev = s.dev := rfl
@[simp] theorem State.runTile_flash (s : State) (i : Nat) (f : Tile → Tile) : (s.runTile i f).flash = s.flash := rfl
@[simp] theorem State.runTile_log (s : State) (i : Nat) (f : Tile → Tile) : (s.runTile i f).log = s.log := rfl
@[simp] theorem State.runTile_health (s : State) (i : Nat) (f : Tile → Tile) : (s.runTile i f).health = s.health := rfl
@[simp] theorem State.runTile_mbx (s : State) (i : Nat) (f : Tile → Tile) : (s.runTile i f).mbx = s.mbx := rfl
@[simp] theorem State.runTile_sess (s : State) (i : Nat) (f : Tile → Tile) : (s.runTile i f).sess = s.sess := rfl
@[simp] theorem State.runTile_tick (s : State) (i : Nat) (f : Tile → Tile) : (s.runTile i f).tick = s.tick := rfl
@[simp] theorem State.runTile_units (s : State) (i : Nat) (f : Tile → Tile) : (s.runTile i f).units = s.units := rfl
@[simp] theorem State.runTile_regions (s : State) (i : Nat) (f : Tile → Tile) : (s.runTile i f).regions = s.regions := rfl
@[simp] theorem State.runTile_bufs (s : State) (i : Nat) (f : Tile → Tile) : (s.runTile i f).bufs = s.bufs := rfl
@[simp] theorem State.runTile_eng (s : State) (i : Nat) (f : Tile → Tile) : (s.runTile i f).eng = s.eng := rfl
@[simp] theorem State.runTile_mem (s : State) (i : Nat) (f : Tile → Tile) : (s.runTile i f).mem = s.mem := rfl
@[simp] theorem State.runTile_ctl (s : State) (i : Nat) (f : Tile → Tile) : (s.runTile i f).ctl = s.ctl := rfl
@[simp] theorem State.runTile_mpk (s : State) (i : Nat) (f : Tile → Tile) : (s.runTile i f).mpk = s.mpk := rfl
@[simp] theorem State.runTile_fab (s : State) (i : Nat) (f : Tile → Tile) : (s.runTile i f).fab = s.fab := rfl
@[simp] theorem State.runTile_fcfg (s : State) (i : Nat) (f : Tile → Tile) : (s.runTile i f).fcfg = s.fcfg := rfl
@[simp] theorem State.runTile_loads (s : State) (i : Nat) (f : Tile → Tile) : (s.runTile i f).loads = s.loads := rfl
@[simp] theorem State.runTile_cxl (s : State) (i : Nat) (f : Tile → Tile) : (s.runTile i f).cxl = s.cxl := rfl
@[simp] theorem State.runTile_strait (s : State) (i : Nat) (f : Tile → Tile) : (s.runTile i f).strait = s.strait := rfl
@[simp] theorem State.runTile_ftx (s : State) (i : Nat) (f : Tile → Tile) : (s.runTile i f).ftx = s.ftx := rfl
@[simp] theorem State.runTile_pair (s : State) (i : Nat) (f : Tile → Tile) : (s.runTile i f).pair = s.pair := rfl
@[simp] theorem State.runTile_clk (s : State) (i : Nat) (f : Tile → Tile) : (s.runTile i f).clk = s.clk := rfl
@[simp] theorem State.runTile_pwr (s : State) (i : Nat) (f : Tile → Tile) : (s.runTile i f).pwr = s.pwr := rfl
@[simp] theorem State.runTile_sec (s : State) (i : Nat) (f : Tile → Tile) : (s.runTile i f).sec = s.sec := rfl
@[simp] theorem State.runTile_out (s : State) (i : Nat) (f : Tile → Tile) : (s.runTile i f).out = s.out := rfl
@[simp] theorem State.runTile_latch (s : State) (i : Nat) (f : Tile → Tile) : (s.runTile i f).latch = s.latch := rfl

@[simp] theorem State.untrack_pending (s : State) (a n : Nat) : (s.untrack a n).pending = s.pending := rfl
@[simp] theorem State.untrack_free (s : State) (a n : Nat) : (s.untrack a n).free = s.free := rfl
@[simp] theorem State.untrack_dev (s : State) (a n : Nat) : (s.untrack a n).dev = s.dev := rfl
@[simp] theorem State.untrack_flash (s : State) (a n : Nat) : (s.untrack a n).flash = s.flash := rfl
@[simp] theorem State.untrack_log (s : State) (a n : Nat) : (s.untrack a n).log = s.log := rfl
@[simp] theorem State.untrack_health (s : State) (a n : Nat) : (s.untrack a n).health = s.health := rfl
@[simp] theorem State.untrack_mbx (s : State) (a n : Nat) : (s.untrack a n).mbx = s.mbx := rfl
@[simp] theorem State.untrack_sess (s : State) (a n : Nat) : (s.untrack a n).sess = s.sess := rfl
@[simp] theorem State.untrack_tick (s : State) (a n : Nat) : (s.untrack a n).tick = s.tick := rfl
@[simp] theorem State.untrack_units (s : State) (a n : Nat) : (s.untrack a n).units = s.units := rfl
@[simp] theorem State.untrack_regions (s : State) (a n : Nat) : (s.untrack a n).regions = s.regions := rfl
@[simp] theorem State.untrack_tiles (s : State) (a n : Nat) : (s.untrack a n).tiles = s.tiles := rfl
@[simp] theorem State.untrack_bufs (s : State) (a n : Nat) : (s.untrack a n).bufs = s.bufs := rfl
@[simp] theorem State.untrack_eng (s : State) (a n : Nat) : (s.untrack a n).eng = s.eng := rfl
@[simp] theorem State.untrack_mem (s : State) (a n : Nat) : (s.untrack a n).mem = s.mem := rfl
@[simp] theorem State.untrack_ctl (s : State) (a n : Nat) : (s.untrack a n).ctl = s.ctl := rfl
@[simp] theorem State.untrack_mpk (s : State) (a n : Nat) : (s.untrack a n).mpk = s.mpk := rfl
@[simp] theorem State.untrack_fab (s : State) (a n : Nat) : (s.untrack a n).fab = s.fab := rfl
@[simp] theorem State.untrack_fcfg (s : State) (a n : Nat) : (s.untrack a n).fcfg = s.fcfg := rfl
@[simp] theorem State.untrack_loads (s : State) (a n : Nat) : (s.untrack a n).loads = s.loads := rfl
@[simp] theorem State.untrack_strait (s : State) (a n : Nat) : (s.untrack a n).strait = s.strait := rfl
@[simp] theorem State.untrack_ftx (s : State) (a n : Nat) : (s.untrack a n).ftx = s.ftx := rfl
@[simp] theorem State.untrack_pair (s : State) (a n : Nat) : (s.untrack a n).pair = s.pair := rfl
@[simp] theorem State.untrack_clk (s : State) (a n : Nat) : (s.untrack a n).clk = s.clk := rfl
@[simp] theorem State.untrack_pwr (s : State) (a n : Nat) : (s.untrack a n).pwr = s.pwr := rfl
@[simp] theorem State.untrack_sec (s : State) (a n : Nat) : (s.untrack a n).sec = s.sec := rfl
@[simp] theorem State.untrack_out (s : State) (a n : Nat) : (s.untrack a n).out = s.out := rfl
@[simp] theorem State.untrack_flagCnt (s : State) (a n : Nat) : (s.untrack a n).flagCnt = s.flagCnt := rfl
@[simp] theorem State.untrack_latch (s : State) (a n : Nat) : (s.untrack a n).latch = s.latch := rfl

@[simp] theorem State.track_pending (s : State) (a n : Nat) : (s.track a n).pending = s.pending := rfl
@[simp] theorem State.track_free (s : State) (a n : Nat) : (s.track a n).free = s.free := rfl
@[simp] theorem State.track_dev (s : State) (a n : Nat) : (s.track a n).dev = s.dev := rfl
@[simp] theorem State.track_flash (s : State) (a n : Nat) : (s.track a n).flash = s.flash := rfl
@[simp] theorem State.track_log (s : State) (a n : Nat) : (s.track a n).log = s.log := rfl
@[simp] theorem State.track_health (s : State) (a n : Nat) : (s.track a n).health = s.health := rfl
@[simp] theorem State.track_mbx (s : State) (a n : Nat) : (s.track a n).mbx = s.mbx := rfl
@[simp] theorem State.track_sess (s : State) (a n : Nat) : (s.track a n).sess = s.sess := rfl
@[simp] theorem State.track_tick (s : State) (a n : Nat) : (s.track a n).tick = s.tick := rfl
@[simp] theorem State.track_units (s : State) (a n : Nat) : (s.track a n).units = s.units := rfl
@[simp] theorem State.track_regions (s : State) (a n : Nat) : (s.track a n).regions = s.regions := rfl
@[simp] theorem State.track_tiles (s : State) (a n : Nat) : (s.track a n).tiles = s.tiles := rfl
@[simp] theorem State.track_bufs (s : State) (a n : Nat) : (s.track a n).bufs = s.bufs := rfl
@[simp] theorem State.track_eng (s : State) (a n : Nat) : (s.track a n).eng = s.eng := rfl
@[simp] theorem State.track_mem (s : State) (a n : Nat) : (s.track a n).mem = s.mem := rfl
@[simp] theorem State.track_ctl (s : State) (a n : Nat) : (s.track a n).ctl = s.ctl := rfl
@[simp] theorem State.track_mpk (s : State) (a n : Nat) : (s.track a n).mpk = s.mpk := rfl
@[simp] theorem State.track_fab (s : State) (a n : Nat) : (s.track a n).fab = s.fab := rfl
@[simp] theorem State.track_fcfg (s : State) (a n : Nat) : (s.track a n).fcfg = s.fcfg := rfl
@[simp] theorem State.track_loads (s : State) (a n : Nat) : (s.track a n).loads = s.loads := rfl
@[simp] theorem State.track_strait (s : State) (a n : Nat) : (s.track a n).strait = s.strait := rfl
@[simp] theorem State.track_ftx (s : State) (a n : Nat) : (s.track a n).ftx = s.ftx := rfl
@[simp] theorem State.track_pair (s : State) (a n : Nat) : (s.track a n).pair = s.pair := rfl
@[simp] theorem State.track_clk (s : State) (a n : Nat) : (s.track a n).clk = s.clk := rfl
@[simp] theorem State.track_pwr (s : State) (a n : Nat) : (s.track a n).pwr = s.pwr := rfl
@[simp] theorem State.track_sec (s : State) (a n : Nat) : (s.track a n).sec = s.sec := rfl
@[simp] theorem State.track_out (s : State) (a n : Nat) : (s.track a n).out = s.out := rfl
@[simp] theorem State.track_flagCnt (s : State) (a n : Nat) : (s.track a n).flagCnt = s.flagCnt := rfl
@[simp] theorem State.track_latch (s : State) (a n : Nat) : (s.track a n).latch = s.latch := rfl

@[simp] theorem State.muxAsk_pending (s : State) (key src : Nat) : (s.muxAsk key src).pending = s.pending := rfl
@[simp] theorem State.muxAsk_free (s : State) (key src : Nat) : (s.muxAsk key src).free = s.free := rfl
@[simp] theorem State.muxAsk_dev (s : State) (key src : Nat) : (s.muxAsk key src).dev = s.dev := rfl
@[simp] theorem State.muxAsk_flash (s : State) (key src : Nat) : (s.muxAsk key src).flash = s.flash := rfl
@[simp] theorem State.muxAsk_log (s : State) (key src : Nat) : (s.muxAsk key src).log = s.log := rfl
@[simp] theorem State.muxAsk_health (s : State) (key src : Nat) : (s.muxAsk key src).health = s.health := rfl
@[simp] theorem State.muxAsk_mbx (s : State) (key src : Nat) : (s.muxAsk key src).mbx = s.mbx := rfl
@[simp] theorem State.muxAsk_sess (s : State) (key src : Nat) : (s.muxAsk key src).sess = s.sess := rfl
@[simp] theorem State.muxAsk_tick (s : State) (key src : Nat) : (s.muxAsk key src).tick = s.tick := rfl
@[simp] theorem State.muxAsk_units (s : State) (key src : Nat) : (s.muxAsk key src).units = s.units := rfl
@[simp] theorem State.muxAsk_regions (s : State) (key src : Nat) : (s.muxAsk key src).regions = s.regions := rfl
@[simp] theorem State.muxAsk_tiles (s : State) (key src : Nat) : (s.muxAsk key src).tiles = s.tiles := rfl
@[simp] theorem State.muxAsk_bufs (s : State) (key src : Nat) : (s.muxAsk key src).bufs = s.bufs := rfl
@[simp] theorem State.muxAsk_eng (s : State) (key src : Nat) : (s.muxAsk key src).eng = s.eng := rfl
@[simp] theorem State.muxAsk_mem (s : State) (key src : Nat) : (s.muxAsk key src).mem = s.mem := rfl
@[simp] theorem State.muxAsk_ctl (s : State) (key src : Nat) : (s.muxAsk key src).ctl = s.ctl := rfl
@[simp] theorem State.muxAsk_mpk (s : State) (key src : Nat) : (s.muxAsk key src).mpk = s.mpk := rfl
@[simp] theorem State.muxAsk_fab (s : State) (key src : Nat) : (s.muxAsk key src).fab = s.fab := rfl
@[simp] theorem State.muxAsk_fcfg (s : State) (key src : Nat) : (s.muxAsk key src).fcfg = s.fcfg := rfl
@[simp] theorem State.muxAsk_loads (s : State) (key src : Nat) : (s.muxAsk key src).loads = s.loads := rfl
@[simp] theorem State.muxAsk_cxl (s : State) (key src : Nat) : (s.muxAsk key src).cxl = s.cxl := rfl
@[simp] theorem State.muxAsk_strait (s : State) (key src : Nat) : (s.muxAsk key src).strait = s.strait := rfl
@[simp] theorem State.muxAsk_ftx (s : State) (key src : Nat) : (s.muxAsk key src).ftx = s.ftx := rfl
@[simp] theorem State.muxAsk_pair (s : State) (key src : Nat) : (s.muxAsk key src).pair = s.pair := rfl
@[simp] theorem State.muxAsk_pwr (s : State) (key src : Nat) : (s.muxAsk key src).pwr = s.pwr := rfl
@[simp] theorem State.muxAsk_sec (s : State) (key src : Nat) : (s.muxAsk key src).sec = s.sec := rfl
@[simp] theorem State.muxAsk_out (s : State) (key src : Nat) : (s.muxAsk key src).out = s.out := rfl
@[simp] theorem State.muxAsk_flagCnt (s : State) (key src : Nat) : (s.muxAsk key src).flagCnt = s.flagCnt := rfl
@[simp] theorem State.muxAsk_latch (s : State) (key src : Nat) : (s.muxAsk key src).latch = s.latch := rfl

@[simp] theorem State.muxEnd_pending (s : State) (key : Nat) : (s.muxEnd key).pending = s.pending := rfl
@[simp] theorem State.muxEnd_free (s : State) (key : Nat) : (s.muxEnd key).free = s.free := rfl
@[simp] theorem State.muxEnd_dev (s : State) (key : Nat) : (s.muxEnd key).dev = s.dev := rfl
@[simp] theorem State.muxEnd_flash (s : State) (key : Nat) : (s.muxEnd key).flash = s.flash := rfl
@[simp] theorem State.muxEnd_log (s : State) (key : Nat) : (s.muxEnd key).log = s.log := rfl
@[simp] theorem State.muxEnd_health (s : State) (key : Nat) : (s.muxEnd key).health = s.health := rfl
@[simp] theorem State.muxEnd_mbx (s : State) (key : Nat) : (s.muxEnd key).mbx = s.mbx := rfl
@[simp] theorem State.muxEnd_sess (s : State) (key : Nat) : (s.muxEnd key).sess = s.sess := rfl
@[simp] theorem State.muxEnd_tick (s : State) (key : Nat) : (s.muxEnd key).tick = s.tick := rfl
@[simp] theorem State.muxEnd_units (s : State) (key : Nat) : (s.muxEnd key).units = s.units := rfl
@[simp] theorem State.muxEnd_regions (s : State) (key : Nat) : (s.muxEnd key).regions = s.regions := rfl
@[simp] theorem State.muxEnd_tiles (s : State) (key : Nat) : (s.muxEnd key).tiles = s.tiles := rfl
@[simp] theorem State.muxEnd_bufs (s : State) (key : Nat) : (s.muxEnd key).bufs = s.bufs := rfl
@[simp] theorem State.muxEnd_eng (s : State) (key : Nat) : (s.muxEnd key).eng = s.eng := rfl
@[simp] theorem State.muxEnd_mem (s : State) (key : Nat) : (s.muxEnd key).mem = s.mem := rfl
@[simp] theorem State.muxEnd_ctl (s : State) (key : Nat) : (s.muxEnd key).ctl = s.ctl := rfl
@[simp] theorem State.muxEnd_mpk (s : State) (key : Nat) : (s.muxEnd key).mpk = s.mpk := rfl
@[simp] theorem State.muxEnd_fab (s : State) (key : Nat) : (s.muxEnd key).fab = s.fab := rfl
@[simp] theorem State.muxEnd_fcfg (s : State) (key : Nat) : (s.muxEnd key).fcfg = s.fcfg := rfl
@[simp] theorem State.muxEnd_loads (s : State) (key : Nat) : (s.muxEnd key).loads = s.loads := rfl
@[simp] theorem State.muxEnd_cxl (s : State) (key : Nat) : (s.muxEnd key).cxl = s.cxl := rfl
@[simp] theorem State.muxEnd_strait (s : State) (key : Nat) : (s.muxEnd key).strait = s.strait := rfl
@[simp] theorem State.muxEnd_ftx (s : State) (key : Nat) : (s.muxEnd key).ftx = s.ftx := rfl
@[simp] theorem State.muxEnd_pair (s : State) (key : Nat) : (s.muxEnd key).pair = s.pair := rfl
@[simp] theorem State.muxEnd_pwr (s : State) (key : Nat) : (s.muxEnd key).pwr = s.pwr := rfl
@[simp] theorem State.muxEnd_sec (s : State) (key : Nat) : (s.muxEnd key).sec = s.sec := rfl
@[simp] theorem State.muxEnd_out (s : State) (key : Nat) : (s.muxEnd key).out = s.out := rfl
@[simp] theorem State.muxEnd_flagCnt (s : State) (key : Nat) : (s.muxEnd key).flagCnt = s.flagCnt := rfl
@[simp] theorem State.muxEnd_latch (s : State) (key : Nat) : (s.muxEnd key).latch = s.latch := rfl

@[simp] theorem State.logEvent_pending (s : State) (code source sess : Nat) (data : List Byte) (dump : Bool) : (s.logEvent code source sess data dump).pending = s.pending := rfl
@[simp] theorem State.logEvent_free (s : State) (code source sess : Nat) (data : List Byte) (dump : Bool) : (s.logEvent code source sess data dump).free = s.free := rfl
@[simp] theorem State.logEvent_dev (s : State) (code source sess : Nat) (data : List Byte) (dump : Bool) : (s.logEvent code source sess data dump).dev = s.dev := rfl
@[simp] theorem State.logEvent_flash (s : State) (code source sess : Nat) (data : List Byte) (dump : Bool) : (s.logEvent code source sess data dump).flash = s.flash := rfl
@[simp] theorem State.logEvent_health (s : State) (code source sess : Nat) (data : List Byte) (dump : Bool) : (s.logEvent code source sess data dump).health = s.health := rfl
@[simp] theorem State.logEvent_mbx (s : State) (code source sess : Nat) (data : List Byte) (dump : Bool) : (s.logEvent code source sess data dump).mbx = s.mbx := rfl
@[simp] theorem State.logEvent_sess (s : State) (code source sess : Nat) (data : List Byte) (dump : Bool) : (s.logEvent code source sess data dump).sess = s.sess := rfl
@[simp] theorem State.logEvent_tick (s : State) (code source sess : Nat) (data : List Byte) (dump : Bool) : (s.logEvent code source sess data dump).tick = s.tick := rfl
@[simp] theorem State.logEvent_units (s : State) (code source sess : Nat) (data : List Byte) (dump : Bool) : (s.logEvent code source sess data dump).units = s.units := rfl
@[simp] theorem State.logEvent_regions (s : State) (code source sess : Nat) (data : List Byte) (dump : Bool) : (s.logEvent code source sess data dump).regions = s.regions := rfl
@[simp] theorem State.logEvent_tiles (s : State) (code source sess : Nat) (data : List Byte) (dump : Bool) : (s.logEvent code source sess data dump).tiles = s.tiles := rfl
@[simp] theorem State.logEvent_bufs (s : State) (code source sess : Nat) (data : List Byte) (dump : Bool) : (s.logEvent code source sess data dump).bufs = s.bufs := rfl
@[simp] theorem State.logEvent_eng (s : State) (code source sess : Nat) (data : List Byte) (dump : Bool) : (s.logEvent code source sess data dump).eng = s.eng := rfl
@[simp] theorem State.logEvent_mem (s : State) (code source sess : Nat) (data : List Byte) (dump : Bool) : (s.logEvent code source sess data dump).mem = s.mem := rfl
@[simp] theorem State.logEvent_ctl (s : State) (code source sess : Nat) (data : List Byte) (dump : Bool) : (s.logEvent code source sess data dump).ctl = s.ctl := rfl
@[simp] theorem State.logEvent_mpk (s : State) (code source sess : Nat) (data : List Byte) (dump : Bool) : (s.logEvent code source sess data dump).mpk = s.mpk := rfl
@[simp] theorem State.logEvent_fab (s : State) (code source sess : Nat) (data : List Byte) (dump : Bool) : (s.logEvent code source sess data dump).fab = s.fab := rfl
@[simp] theorem State.logEvent_fcfg (s : State) (code source sess : Nat) (data : List Byte) (dump : Bool) : (s.logEvent code source sess data dump).fcfg = s.fcfg := rfl
@[simp] theorem State.logEvent_loads (s : State) (code source sess : Nat) (data : List Byte) (dump : Bool) : (s.logEvent code source sess data dump).loads = s.loads := rfl
@[simp] theorem State.logEvent_cxl (s : State) (code source sess : Nat) (data : List Byte) (dump : Bool) : (s.logEvent code source sess data dump).cxl = s.cxl := rfl
@[simp] theorem State.logEvent_strait (s : State) (code source sess : Nat) (data : List Byte) (dump : Bool) : (s.logEvent code source sess data dump).strait = s.strait := rfl
@[simp] theorem State.logEvent_ftx (s : State) (code source sess : Nat) (data : List Byte) (dump : Bool) : (s.logEvent code source sess data dump).ftx = s.ftx := rfl
@[simp] theorem State.logEvent_pair (s : State) (code source sess : Nat) (data : List Byte) (dump : Bool) : (s.logEvent code source sess data dump).pair = s.pair := rfl
@[simp] theorem State.logEvent_clk (s : State) (code source sess : Nat) (data : List Byte) (dump : Bool) : (s.logEvent code source sess data dump).clk = s.clk := rfl
@[simp] theorem State.logEvent_pwr (s : State) (code source sess : Nat) (data : List Byte) (dump : Bool) : (s.logEvent code source sess data dump).pwr = s.pwr := rfl
@[simp] theorem State.logEvent_sec (s : State) (code source sess : Nat) (data : List Byte) (dump : Bool) : (s.logEvent code source sess data dump).sec = s.sec := rfl
@[simp] theorem State.logEvent_out (s : State) (code source sess : Nat) (data : List Byte) (dump : Bool) : (s.logEvent code source sess data dump).out = s.out := rfl
@[simp] theorem State.logEvent_flagCnt (s : State) (code source sess : Nat) (data : List Byte) (dump : Bool) : (s.logEvent code source sess data dump).flagCnt = s.flagCnt := rfl
@[simp] theorem State.logEvent_latch (s : State) (code source sess : Nat) (data : List Byte) (dump : Bool) : (s.logEvent code source sess data dump).latch = s.latch := rfl

@[simp] theorem State.note_pending (s : State) (k : LogKind) (source sess : Nat) (data : List Byte) : (s.note k source sess data).pending = s.pending := rfl
@[simp] theorem State.note_free (s : State) (k : LogKind) (source sess : Nat) (data : List Byte) : (s.note k source sess data).free = s.free := rfl
@[simp] theorem State.note_dev (s : State) (k : LogKind) (source sess : Nat) (data : List Byte) : (s.note k source sess data).dev = s.dev := rfl
@[simp] theorem State.note_flash (s : State) (k : LogKind) (source sess : Nat) (data : List Byte) : (s.note k source sess data).flash = s.flash := rfl
@[simp] theorem State.note_health (s : State) (k : LogKind) (source sess : Nat) (data : List Byte) : (s.note k source sess data).health = s.health := rfl
@[simp] theorem State.note_mbx (s : State) (k : LogKind) (source sess : Nat) (data : List Byte) : (s.note k source sess data).mbx = s.mbx := rfl
@[simp] theorem State.note_sess (s : State) (k : LogKind) (source sess : Nat) (data : List Byte) : (s.note k source sess data).sess = s.sess := rfl
@[simp] theorem State.note_tick (s : State) (k : LogKind) (source sess : Nat) (data : List Byte) : (s.note k source sess data).tick = s.tick := rfl
@[simp] theorem State.note_units (s : State) (k : LogKind) (source sess : Nat) (data : List Byte) : (s.note k source sess data).units = s.units := rfl
@[simp] theorem State.note_regions (s : State) (k : LogKind) (source sess : Nat) (data : List Byte) : (s.note k source sess data).regions = s.regions := rfl
@[simp] theorem State.note_tiles (s : State) (k : LogKind) (source sess : Nat) (data : List Byte) : (s.note k source sess data).tiles = s.tiles := rfl
@[simp] theorem State.note_bufs (s : State) (k : LogKind) (source sess : Nat) (data : List Byte) : (s.note k source sess data).bufs = s.bufs := rfl
@[simp] theorem State.note_eng (s : State) (k : LogKind) (source sess : Nat) (data : List Byte) : (s.note k source sess data).eng = s.eng := rfl
@[simp] theorem State.note_mem (s : State) (k : LogKind) (source sess : Nat) (data : List Byte) : (s.note k source sess data).mem = s.mem := rfl
@[simp] theorem State.note_ctl (s : State) (k : LogKind) (source sess : Nat) (data : List Byte) : (s.note k source sess data).ctl = s.ctl := rfl
@[simp] theorem State.note_mpk (s : State) (k : LogKind) (source sess : Nat) (data : List Byte) : (s.note k source sess data).mpk = s.mpk := rfl
@[simp] theorem State.note_fab (s : State) (k : LogKind) (source sess : Nat) (data : List Byte) : (s.note k source sess data).fab = s.fab := rfl
@[simp] theorem State.note_fcfg (s : State) (k : LogKind) (source sess : Nat) (data : List Byte) : (s.note k source sess data).fcfg = s.fcfg := rfl
@[simp] theorem State.note_loads (s : State) (k : LogKind) (source sess : Nat) (data : List Byte) : (s.note k source sess data).loads = s.loads := rfl
@[simp] theorem State.note_cxl (s : State) (k : LogKind) (source sess : Nat) (data : List Byte) : (s.note k source sess data).cxl = s.cxl := rfl
@[simp] theorem State.note_strait (s : State) (k : LogKind) (source sess : Nat) (data : List Byte) : (s.note k source sess data).strait = s.strait := rfl
@[simp] theorem State.note_ftx (s : State) (k : LogKind) (source sess : Nat) (data : List Byte) : (s.note k source sess data).ftx = s.ftx := rfl
@[simp] theorem State.note_pair (s : State) (k : LogKind) (source sess : Nat) (data : List Byte) : (s.note k source sess data).pair = s.pair := rfl
@[simp] theorem State.note_clk (s : State) (k : LogKind) (source sess : Nat) (data : List Byte) : (s.note k source sess data).clk = s.clk := rfl
@[simp] theorem State.note_pwr (s : State) (k : LogKind) (source sess : Nat) (data : List Byte) : (s.note k source sess data).pwr = s.pwr := rfl
@[simp] theorem State.note_sec (s : State) (k : LogKind) (source sess : Nat) (data : List Byte) : (s.note k source sess data).sec = s.sec := rfl
@[simp] theorem State.note_out (s : State) (k : LogKind) (source sess : Nat) (data : List Byte) : (s.note k source sess data).out = s.out := rfl
@[simp] theorem State.note_flagCnt (s : State) (k : LogKind) (source sess : Nat) (data : List Byte) : (s.note k source sess data).flagCnt = s.flagCnt := rfl
@[simp] theorem State.note_latch (s : State) (k : LogKind) (source sess : Nat) (data : List Byte) : (s.note k source sess data).latch = s.latch := rfl

@[simp] theorem State.setTier_pending (s : State) (lp : Bool) (t : TierSr) : (s.setTier lp t).pending = s.pending := by cases lp <;> rfl
@[simp] theorem State.setTier_free (s : State) (lp : Bool) (t : TierSr) : (s.setTier lp t).free = s.free := by cases lp <;> rfl
@[simp] theorem State.setTier_dev (s : State) (lp : Bool) (t : TierSr) : (s.setTier lp t).dev = s.dev := by cases lp <;> rfl
@[simp] theorem State.setTier_flash (s : State) (lp : Bool) (t : TierSr) : (s.setTier lp t).flash = s.flash := by cases lp <;> rfl
@[simp] theorem State.setTier_log (s : State) (lp : Bool) (t : TierSr) : (s.setTier lp t).log = s.log := by cases lp <;> rfl
@[simp] theorem State.setTier_health (s : State) (lp : Bool) (t : TierSr) : (s.setTier lp t).health = s.health := by cases lp <;> rfl
@[simp] theorem State.setTier_mbx (s : State) (lp : Bool) (t : TierSr) : (s.setTier lp t).mbx = s.mbx := by cases lp <;> rfl
@[simp] theorem State.setTier_sess (s : State) (lp : Bool) (t : TierSr) : (s.setTier lp t).sess = s.sess := by cases lp <;> rfl
@[simp] theorem State.setTier_tick (s : State) (lp : Bool) (t : TierSr) : (s.setTier lp t).tick = s.tick := by cases lp <;> rfl
@[simp] theorem State.setTier_units (s : State) (lp : Bool) (t : TierSr) : (s.setTier lp t).units = s.units := by cases lp <;> rfl
@[simp] theorem State.setTier_regions (s : State) (lp : Bool) (t : TierSr) : (s.setTier lp t).regions = s.regions := by cases lp <;> rfl
@[simp] theorem State.setTier_tiles (s : State) (lp : Bool) (t : TierSr) : (s.setTier lp t).tiles = s.tiles := by cases lp <;> rfl
@[simp] theorem State.setTier_bufs (s : State) (lp : Bool) (t : TierSr) : (s.setTier lp t).bufs = s.bufs := by cases lp <;> rfl
@[simp] theorem State.setTier_eng (s : State) (lp : Bool) (t : TierSr) : (s.setTier lp t).eng = s.eng := by cases lp <;> rfl
@[simp] theorem State.setTier_mem (s : State) (lp : Bool) (t : TierSr) : (s.setTier lp t).mem = s.mem := by cases lp <;> rfl
@[simp] theorem State.setTier_ctl (s : State) (lp : Bool) (t : TierSr) : (s.setTier lp t).ctl = s.ctl := by cases lp <;> rfl
@[simp] theorem State.setTier_fab (s : State) (lp : Bool) (t : TierSr) : (s.setTier lp t).fab = s.fab := by cases lp <;> rfl
@[simp] theorem State.setTier_fcfg (s : State) (lp : Bool) (t : TierSr) : (s.setTier lp t).fcfg = s.fcfg := by cases lp <;> rfl
@[simp] theorem State.setTier_loads (s : State) (lp : Bool) (t : TierSr) : (s.setTier lp t).loads = s.loads := by cases lp <;> rfl
@[simp] theorem State.setTier_cxl (s : State) (lp : Bool) (t : TierSr) : (s.setTier lp t).cxl = s.cxl := by cases lp <;> rfl
@[simp] theorem State.setTier_strait (s : State) (lp : Bool) (t : TierSr) : (s.setTier lp t).strait = s.strait := by cases lp <;> rfl
@[simp] theorem State.setTier_ftx (s : State) (lp : Bool) (t : TierSr) : (s.setTier lp t).ftx = s.ftx := by cases lp <;> rfl
@[simp] theorem State.setTier_pair (s : State) (lp : Bool) (t : TierSr) : (s.setTier lp t).pair = s.pair := by cases lp <;> rfl
@[simp] theorem State.setTier_clk (s : State) (lp : Bool) (t : TierSr) : (s.setTier lp t).clk = s.clk := by cases lp <;> rfl
@[simp] theorem State.setTier_pwr (s : State) (lp : Bool) (t : TierSr) : (s.setTier lp t).pwr = s.pwr := by cases lp <;> rfl
@[simp] theorem State.setTier_sec (s : State) (lp : Bool) (t : TierSr) : (s.setTier lp t).sec = s.sec := by cases lp <;> rfl
@[simp] theorem State.setTier_out (s : State) (lp : Bool) (t : TierSr) : (s.setTier lp t).out = s.out := by cases lp <;> rfl
@[simp] theorem State.setTier_flagCnt (s : State) (lp : Bool) (t : TierSr) : (s.setTier lp t).flagCnt = s.flagCnt := by cases lp <;> rfl
@[simp] theorem State.setTier_latch (s : State) (lp : Bool) (t : TierSr) : (s.setTier lp t).latch = s.latch := by cases lp <;> rfl

@[simp] theorem State.startExit_pending (s : State) (a : Nat) : (s.startExit a).pending = s.pending := by unfold State.startExit; split <;> simp
@[simp] theorem State.startExit_free (s : State) (a : Nat) : (s.startExit a).free = s.free := by unfold State.startExit; split <;> simp
@[simp] theorem State.startExit_dev (s : State) (a : Nat) : (s.startExit a).dev = s.dev := by unfold State.startExit; split <;> simp
@[simp] theorem State.startExit_flash (s : State) (a : Nat) : (s.startExit a).flash = s.flash := by unfold State.startExit; split <;> simp
@[simp] theorem State.startExit_log (s : State) (a : Nat) : (s.startExit a).log = s.log := by unfold State.startExit; split <;> simp
@[simp] theorem State.startExit_health (s : State) (a : Nat) : (s.startExit a).health = s.health := by unfold State.startExit; split <;> simp
@[simp] theorem State.startExit_mbx (s : State) (a : Nat) : (s.startExit a).mbx = s.mbx := by unfold State.startExit; split <;> simp
@[simp] theorem State.startExit_sess (s : State) (a : Nat) : (s.startExit a).sess = s.sess := by unfold State.startExit; split <;> simp
@[simp] theorem State.startExit_tick (s : State) (a : Nat) : (s.startExit a).tick = s.tick := by unfold State.startExit; split <;> simp
@[simp] theorem State.startExit_units (s : State) (a : Nat) : (s.startExit a).units = s.units := by unfold State.startExit; split <;> simp
@[simp] theorem State.startExit_regions (s : State) (a : Nat) : (s.startExit a).regions = s.regions := by unfold State.startExit; split <;> simp
@[simp] theorem State.startExit_tiles (s : State) (a : Nat) : (s.startExit a).tiles = s.tiles := by unfold State.startExit; split <;> simp
@[simp] theorem State.startExit_bufs (s : State) (a : Nat) : (s.startExit a).bufs = s.bufs := by unfold State.startExit; split <;> simp
@[simp] theorem State.startExit_eng (s : State) (a : Nat) : (s.startExit a).eng = s.eng := by unfold State.startExit; split <;> simp
@[simp] theorem State.startExit_mem (s : State) (a : Nat) : (s.startExit a).mem = s.mem := by unfold State.startExit; split <;> simp
@[simp] theorem State.startExit_ctl (s : State) (a : Nat) : (s.startExit a).ctl = s.ctl := by unfold State.startExit; split <;> simp
@[simp] theorem State.startExit_fab (s : State) (a : Nat) : (s.startExit a).fab = s.fab := by unfold State.startExit; split <;> simp
@[simp] theorem State.startExit_fcfg (s : State) (a : Nat) : (s.startExit a).fcfg = s.fcfg := by unfold State.startExit; split <;> simp
@[simp] theorem State.startExit_loads (s : State) (a : Nat) : (s.startExit a).loads = s.loads := by unfold State.startExit; split <;> simp
@[simp] theorem State.startExit_cxl (s : State) (a : Nat) : (s.startExit a).cxl = s.cxl := by unfold State.startExit; split <;> simp
@[simp] theorem State.startExit_strait (s : State) (a : Nat) : (s.startExit a).strait = s.strait := by unfold State.startExit; split <;> simp
@[simp] theorem State.startExit_ftx (s : State) (a : Nat) : (s.startExit a).ftx = s.ftx := by unfold State.startExit; split <;> simp
@[simp] theorem State.startExit_pair (s : State) (a : Nat) : (s.startExit a).pair = s.pair := by unfold State.startExit; split <;> simp
@[simp] theorem State.startExit_clk (s : State) (a : Nat) : (s.startExit a).clk = s.clk := by unfold State.startExit; split <;> simp
@[simp] theorem State.startExit_pwr (s : State) (a : Nat) : (s.startExit a).pwr = s.pwr := by unfold State.startExit; split <;> simp
@[simp] theorem State.startExit_sec (s : State) (a : Nat) : (s.startExit a).sec = s.sec := by unfold State.startExit; split <;> simp
@[simp] theorem State.startExit_out (s : State) (a : Nat) : (s.startExit a).out = s.out := by unfold State.startExit; split <;> simp
@[simp] theorem State.startExit_flagCnt (s : State) (a : Nat) : (s.startExit a).flagCnt = s.flagCnt := by unfold State.startExit; split <;> simp
@[simp] theorem State.startExit_latch (s : State) (a : Nat) : (s.startExit a).latch = s.latch := by unfold State.startExit; split <;> simp

@[simp] theorem State.mark_pending (s : State) (a n : Nat) : (s.mark a n).pending = s.pending := by unfold State.mark; split <;> rfl
@[simp] theorem State.mark_free (s : State) (a n : Nat) : (s.mark a n).free = s.free := by unfold State.mark; split <;> rfl
@[simp] theorem State.mark_dev (s : State) (a n : Nat) : (s.mark a n).dev = s.dev := by unfold State.mark; split <;> rfl
@[simp] theorem State.mark_flash (s : State) (a n : Nat) : (s.mark a n).flash = s.flash := by unfold State.mark; split <;> rfl
@[simp] theorem State.mark_log (s : State) (a n : Nat) : (s.mark a n).log = s.log := by unfold State.mark; split <;> rfl
@[simp] theorem State.mark_health (s : State) (a n : Nat) : (s.mark a n).health = s.health := by unfold State.mark; split <;> rfl
@[simp] theorem State.mark_mbx (s : State) (a n : Nat) : (s.mark a n).mbx = s.mbx := by unfold State.mark; split <;> rfl
@[simp] theorem State.mark_sess (s : State) (a n : Nat) : (s.mark a n).sess = s.sess := by unfold State.mark; split <;> rfl
@[simp] theorem State.mark_tick (s : State) (a n : Nat) : (s.mark a n).tick = s.tick := by unfold State.mark; split <;> rfl
@[simp] theorem State.mark_units (s : State) (a n : Nat) : (s.mark a n).units = s.units := by unfold State.mark; split <;> rfl
@[simp] theorem State.mark_regions (s : State) (a n : Nat) : (s.mark a n).regions = s.regions := by unfold State.mark; split <;> rfl
@[simp] theorem State.mark_tiles (s : State) (a n : Nat) : (s.mark a n).tiles = s.tiles := by unfold State.mark; split <;> rfl
@[simp] theorem State.mark_bufs (s : State) (a n : Nat) : (s.mark a n).bufs = s.bufs := by unfold State.mark; split <;> rfl
@[simp] theorem State.mark_eng (s : State) (a n : Nat) : (s.mark a n).eng = s.eng := by unfold State.mark; split <;> rfl
@[simp] theorem State.mark_mem (s : State) (a n : Nat) : (s.mark a n).mem = s.mem := by unfold State.mark; split <;> rfl
@[simp] theorem State.mark_ctl (s : State) (a n : Nat) : (s.mark a n).ctl = s.ctl := by unfold State.mark; split <;> rfl
@[simp] theorem State.mark_mpk (s : State) (a n : Nat) : (s.mark a n).mpk = s.mpk := by unfold State.mark; split <;> rfl
@[simp] theorem State.mark_fab (s : State) (a n : Nat) : (s.mark a n).fab = s.fab := by unfold State.mark; split <;> rfl
@[simp] theorem State.mark_fcfg (s : State) (a n : Nat) : (s.mark a n).fcfg = s.fcfg := by unfold State.mark; split <;> rfl
@[simp] theorem State.mark_loads (s : State) (a n : Nat) : (s.mark a n).loads = s.loads := by unfold State.mark; split <;> rfl
@[simp] theorem State.mark_cxl (s : State) (a n : Nat) : (s.mark a n).cxl = s.cxl := by unfold State.mark; split <;> rfl
@[simp] theorem State.mark_strait (s : State) (a n : Nat) : (s.mark a n).strait = s.strait := by unfold State.mark; split <;> rfl
@[simp] theorem State.mark_ftx (s : State) (a n : Nat) : (s.mark a n).ftx = s.ftx := by unfold State.mark; split <;> rfl
@[simp] theorem State.mark_clk (s : State) (a n : Nat) : (s.mark a n).clk = s.clk := by unfold State.mark; split <;> rfl
@[simp] theorem State.mark_pwr (s : State) (a n : Nat) : (s.mark a n).pwr = s.pwr := by unfold State.mark; split <;> rfl
@[simp] theorem State.mark_sec (s : State) (a n : Nat) : (s.mark a n).sec = s.sec := by unfold State.mark; split <;> rfl
@[simp] theorem State.mark_out (s : State) (a n : Nat) : (s.mark a n).out = s.out := by unfold State.mark; split <;> rfl
@[simp] theorem State.mark_flagCnt (s : State) (a n : Nat) : (s.mark a n).flagCnt = s.flagCnt := by unfold State.mark; split <;> rfl
@[simp] theorem State.mark_latch (s : State) (a n : Nat) : (s.mark a n).latch = s.latch := by unfold State.mark; split <;> rfl

@[simp] theorem State.wrMem_pending (s : State) (a : Nat) (b : List Byte) : (s.wrMem a b).pending = s.pending := by simp [State.wrMem]
@[simp] theorem State.wrMem_free (s : State) (a : Nat) (b : List Byte) : (s.wrMem a b).free = s.free := by simp [State.wrMem]
@[simp] theorem State.wrMem_dev (s : State) (a : Nat) (b : List Byte) : (s.wrMem a b).dev = s.dev := by simp [State.wrMem]
@[simp] theorem State.wrMem_flash (s : State) (a : Nat) (b : List Byte) : (s.wrMem a b).flash = s.flash := by simp [State.wrMem]
@[simp] theorem State.wrMem_log (s : State) (a : Nat) (b : List Byte) : (s.wrMem a b).log = s.log := by simp [State.wrMem]
@[simp] theorem State.wrMem_health (s : State) (a : Nat) (b : List Byte) : (s.wrMem a b).health = s.health := by simp [State.wrMem]
@[simp] theorem State.wrMem_mbx (s : State) (a : Nat) (b : List Byte) : (s.wrMem a b).mbx = s.mbx := by simp [State.wrMem]
@[simp] theorem State.wrMem_sess (s : State) (a : Nat) (b : List Byte) : (s.wrMem a b).sess = s.sess := by simp [State.wrMem]
@[simp] theorem State.wrMem_tick (s : State) (a : Nat) (b : List Byte) : (s.wrMem a b).tick = s.tick := by simp [State.wrMem]
@[simp] theorem State.wrMem_units (s : State) (a : Nat) (b : List Byte) : (s.wrMem a b).units = s.units := by simp [State.wrMem]
@[simp] theorem State.wrMem_regions (s : State) (a : Nat) (b : List Byte) : (s.wrMem a b).regions = s.regions := by simp [State.wrMem]
@[simp] theorem State.wrMem_tiles (s : State) (a : Nat) (b : List Byte) : (s.wrMem a b).tiles = s.tiles := by simp [State.wrMem]
@[simp] theorem State.wrMem_bufs (s : State) (a : Nat) (b : List Byte) : (s.wrMem a b).bufs = s.bufs := by simp [State.wrMem]
@[simp] theorem State.wrMem_eng (s : State) (a : Nat) (b : List Byte) : (s.wrMem a b).eng = s.eng := by simp [State.wrMem]
@[simp] theorem State.wrMem_ctl (s : State) (a : Nat) (b : List Byte) : (s.wrMem a b).ctl = s.ctl := by simp [State.wrMem]
@[simp] theorem State.wrMem_mpk (s : State) (a : Nat) (b : List Byte) : (s.wrMem a b).mpk = s.mpk := by simp [State.wrMem]
@[simp] theorem State.wrMem_fab (s : State) (a : Nat) (b : List Byte) : (s.wrMem a b).fab = s.fab := by simp [State.wrMem]
@[simp] theorem State.wrMem_fcfg (s : State) (a : Nat) (b : List Byte) : (s.wrMem a b).fcfg = s.fcfg := by simp [State.wrMem]
@[simp] theorem State.wrMem_loads (s : State) (a : Nat) (b : List Byte) : (s.wrMem a b).loads = s.loads := by simp [State.wrMem]
@[simp] theorem State.wrMem_cxl (s : State) (a : Nat) (b : List Byte) : (s.wrMem a b).cxl = s.cxl := by simp [State.wrMem]
@[simp] theorem State.wrMem_strait (s : State) (a : Nat) (b : List Byte) : (s.wrMem a b).strait = s.strait := by simp [State.wrMem]
@[simp] theorem State.wrMem_ftx (s : State) (a : Nat) (b : List Byte) : (s.wrMem a b).ftx = s.ftx := by simp [State.wrMem]
@[simp] theorem State.wrMem_clk (s : State) (a : Nat) (b : List Byte) : (s.wrMem a b).clk = s.clk := by simp [State.wrMem]
@[simp] theorem State.wrMem_pwr (s : State) (a : Nat) (b : List Byte) : (s.wrMem a b).pwr = s.pwr := by simp [State.wrMem]
@[simp] theorem State.wrMem_sec (s : State) (a : Nat) (b : List Byte) : (s.wrMem a b).sec = s.sec := by simp [State.wrMem]
@[simp] theorem State.wrMem_out (s : State) (a : Nat) (b : List Byte) : (s.wrMem a b).out = s.out := by simp [State.wrMem]
@[simp] theorem State.wrMem_flagCnt (s : State) (a : Nat) (b : List Byte) : (s.wrMem a b).flagCnt = s.flagCnt := by simp [State.wrMem]
@[simp] theorem State.wrMem_latch (s : State) (a : Nat) (b : List Byte) : (s.wrMem a b).latch = s.latch := by simp [State.wrMem]

@[simp] theorem State.zeroMem_pending (s : State) (a n : Nat) : (s.zeroMem a n).pending = s.pending := by simp [State.zeroMem]
@[simp] theorem State.zeroMem_free (s : State) (a n : Nat) : (s.zeroMem a n).free = s.free := by simp [State.zeroMem]
@[simp] theorem State.zeroMem_dev (s : State) (a n : Nat) : (s.zeroMem a n).dev = s.dev := by simp [State.zeroMem]
@[simp] theorem State.zeroMem_flash (s : State) (a n : Nat) : (s.zeroMem a n).flash = s.flash := by simp [State.zeroMem]
@[simp] theorem State.zeroMem_log (s : State) (a n : Nat) : (s.zeroMem a n).log = s.log := by simp [State.zeroMem]
@[simp] theorem State.zeroMem_health (s : State) (a n : Nat) : (s.zeroMem a n).health = s.health := by simp [State.zeroMem]
@[simp] theorem State.zeroMem_mbx (s : State) (a n : Nat) : (s.zeroMem a n).mbx = s.mbx := by simp [State.zeroMem]
@[simp] theorem State.zeroMem_sess (s : State) (a n : Nat) : (s.zeroMem a n).sess = s.sess := by simp [State.zeroMem]
@[simp] theorem State.zeroMem_tick (s : State) (a n : Nat) : (s.zeroMem a n).tick = s.tick := by simp [State.zeroMem]
@[simp] theorem State.zeroMem_units (s : State) (a n : Nat) : (s.zeroMem a n).units = s.units := by simp [State.zeroMem]
@[simp] theorem State.zeroMem_regions (s : State) (a n : Nat) : (s.zeroMem a n).regions = s.regions := by simp [State.zeroMem]
@[simp] theorem State.zeroMem_tiles (s : State) (a n : Nat) : (s.zeroMem a n).tiles = s.tiles := by simp [State.zeroMem]
@[simp] theorem State.zeroMem_bufs (s : State) (a n : Nat) : (s.zeroMem a n).bufs = s.bufs := by simp [State.zeroMem]
@[simp] theorem State.zeroMem_eng (s : State) (a n : Nat) : (s.zeroMem a n).eng = s.eng := by simp [State.zeroMem]
@[simp] theorem State.zeroMem_ctl (s : State) (a n : Nat) : (s.zeroMem a n).ctl = s.ctl := by simp [State.zeroMem]
@[simp] theorem State.zeroMem_mpk (s : State) (a n : Nat) : (s.zeroMem a n).mpk = s.mpk := by simp [State.zeroMem]
@[simp] theorem State.zeroMem_fab (s : State) (a n : Nat) : (s.zeroMem a n).fab = s.fab := by simp [State.zeroMem]
@[simp] theorem State.zeroMem_fcfg (s : State) (a n : Nat) : (s.zeroMem a n).fcfg = s.fcfg := by simp [State.zeroMem]
@[simp] theorem State.zeroMem_loads (s : State) (a n : Nat) : (s.zeroMem a n).loads = s.loads := by simp [State.zeroMem]
@[simp] theorem State.zeroMem_cxl (s : State) (a n : Nat) : (s.zeroMem a n).cxl = s.cxl := by simp [State.zeroMem]
@[simp] theorem State.zeroMem_strait (s : State) (a n : Nat) : (s.zeroMem a n).strait = s.strait := by simp [State.zeroMem]
@[simp] theorem State.zeroMem_ftx (s : State) (a n : Nat) : (s.zeroMem a n).ftx = s.ftx := by simp [State.zeroMem]
@[simp] theorem State.zeroMem_clk (s : State) (a n : Nat) : (s.zeroMem a n).clk = s.clk := by simp [State.zeroMem]
@[simp] theorem State.zeroMem_pwr (s : State) (a n : Nat) : (s.zeroMem a n).pwr = s.pwr := by simp [State.zeroMem]
@[simp] theorem State.zeroMem_sec (s : State) (a n : Nat) : (s.zeroMem a n).sec = s.sec := by simp [State.zeroMem]
@[simp] theorem State.zeroMem_out (s : State) (a n : Nat) : (s.zeroMem a n).out = s.out := by simp [State.zeroMem]
@[simp] theorem State.zeroMem_flagCnt (s : State) (a n : Nat) : (s.zeroMem a n).flagCnt = s.flagCnt := by simp [State.zeroMem]
@[simp] theorem State.zeroMem_latch (s : State) (a n : Nat) : (s.zeroMem a n).latch = s.latch := by simp [State.zeroMem]

@[simp] theorem State.touch_pending (s : State) (a n : Nat) (w : Bool) : (s.touch a n w).pending = s.pending := by unfold State.touch; exact foldl_keeps State.pending _ (by intros; rfl) _ _
@[simp] theorem State.touch_free (s : State) (a n : Nat) (w : Bool) : (s.touch a n w).free = s.free := by unfold State.touch; exact foldl_keeps State.free _ (by intros; rfl) _ _
@[simp] theorem State.touch_dev (s : State) (a n : Nat) (w : Bool) : (s.touch a n w).dev = s.dev := by unfold State.touch; exact foldl_keeps State.dev _ (by intros; rfl) _ _
@[simp] theorem State.touch_flash (s : State) (a n : Nat) (w : Bool) : (s.touch a n w).flash = s.flash := by unfold State.touch; exact foldl_keeps State.flash _ (by intros; rfl) _ _
@[simp] theorem State.touch_log (s : State) (a n : Nat) (w : Bool) : (s.touch a n w).log = s.log := by unfold State.touch; exact foldl_keeps State.log _ (by intros; rfl) _ _
@[simp] theorem State.touch_health (s : State) (a n : Nat) (w : Bool) : (s.touch a n w).health = s.health := by unfold State.touch; exact foldl_keeps State.health _ (by intros; rfl) _ _
@[simp] theorem State.touch_mbx (s : State) (a n : Nat) (w : Bool) : (s.touch a n w).mbx = s.mbx := by unfold State.touch; exact foldl_keeps State.mbx _ (by intros; rfl) _ _
@[simp] theorem State.touch_sess (s : State) (a n : Nat) (w : Bool) : (s.touch a n w).sess = s.sess := by unfold State.touch; exact foldl_keeps State.sess _ (by intros; rfl) _ _
@[simp] theorem State.touch_tick (s : State) (a n : Nat) (w : Bool) : (s.touch a n w).tick = s.tick := by unfold State.touch; exact foldl_keeps State.tick _ (by intros; rfl) _ _
@[simp] theorem State.touch_units (s : State) (a n : Nat) (w : Bool) : (s.touch a n w).units = s.units := by unfold State.touch; exact foldl_keeps State.units _ (by intros; rfl) _ _
@[simp] theorem State.touch_regions (s : State) (a n : Nat) (w : Bool) : (s.touch a n w).regions = s.regions := by unfold State.touch; exact foldl_keeps State.regions _ (by intros; rfl) _ _
@[simp] theorem State.touch_tiles (s : State) (a n : Nat) (w : Bool) : (s.touch a n w).tiles = s.tiles := by unfold State.touch; exact foldl_keeps State.tiles _ (by intros; rfl) _ _
@[simp] theorem State.touch_bufs (s : State) (a n : Nat) (w : Bool) : (s.touch a n w).bufs = s.bufs := by unfold State.touch; exact foldl_keeps State.bufs _ (by intros; rfl) _ _
@[simp] theorem State.touch_eng (s : State) (a n : Nat) (w : Bool) : (s.touch a n w).eng = s.eng := by unfold State.touch; exact foldl_keeps State.eng _ (by intros; rfl) _ _
@[simp] theorem State.touch_mem (s : State) (a n : Nat) (w : Bool) : (s.touch a n w).mem = s.mem := by unfold State.touch; exact foldl_keeps State.mem _ (by intros; rfl) _ _
@[simp] theorem State.touch_fab (s : State) (a n : Nat) (w : Bool) : (s.touch a n w).fab = s.fab := by unfold State.touch; exact foldl_keeps State.fab _ (by intros; rfl) _ _
@[simp] theorem State.touch_fcfg (s : State) (a n : Nat) (w : Bool) : (s.touch a n w).fcfg = s.fcfg := by unfold State.touch; exact foldl_keeps State.fcfg _ (by intros; rfl) _ _
@[simp] theorem State.touch_loads (s : State) (a n : Nat) (w : Bool) : (s.touch a n w).loads = s.loads := by unfold State.touch; exact foldl_keeps State.loads _ (by intros; rfl) _ _
@[simp] theorem State.touch_cxl (s : State) (a n : Nat) (w : Bool) : (s.touch a n w).cxl = s.cxl := by unfold State.touch; exact foldl_keeps State.cxl _ (by intros; rfl) _ _
@[simp] theorem State.touch_strait (s : State) (a n : Nat) (w : Bool) : (s.touch a n w).strait = s.strait := by unfold State.touch; exact foldl_keeps State.strait _ (by intros; rfl) _ _
@[simp] theorem State.touch_ftx (s : State) (a n : Nat) (w : Bool) : (s.touch a n w).ftx = s.ftx := by unfold State.touch; exact foldl_keeps State.ftx _ (by intros; rfl) _ _
@[simp] theorem State.touch_pair (s : State) (a n : Nat) (w : Bool) : (s.touch a n w).pair = s.pair := by unfold State.touch; exact foldl_keeps State.pair _ (by intros; rfl) _ _
@[simp] theorem State.touch_clk (s : State) (a n : Nat) (w : Bool) : (s.touch a n w).clk = s.clk := by unfold State.touch; exact foldl_keeps State.clk _ (by intros; rfl) _ _
@[simp] theorem State.touch_pwr (s : State) (a n : Nat) (w : Bool) : (s.touch a n w).pwr = s.pwr := by unfold State.touch; exact foldl_keeps State.pwr _ (by intros; rfl) _ _
@[simp] theorem State.touch_sec (s : State) (a n : Nat) (w : Bool) : (s.touch a n w).sec = s.sec := by unfold State.touch; exact foldl_keeps State.sec _ (by intros; rfl) _ _
@[simp] theorem State.touch_out (s : State) (a n : Nat) (w : Bool) : (s.touch a n w).out = s.out := by unfold State.touch; exact foldl_keeps State.out _ (by intros; rfl) _ _
@[simp] theorem State.touch_flagCnt (s : State) (a n : Nat) (w : Bool) : (s.touch a n w).flagCnt = s.flagCnt := by unfold State.touch; exact foldl_keeps State.flagCnt _ (by intros; rfl) _ _
@[simp] theorem State.touch_latch (s : State) (a n : Nat) (w : Bool) : (s.touch a n w).latch = s.latch := by unfold State.touch; exact foldl_keeps State.latch _ (by intros; rfl) _ _

@[simp] theorem State.hostStore_pending (s : State) (a : Nat) (b : List Byte) : (s.hostStore a b).pending = s.pending := by unfold State.hostStore; split <;> simp
@[simp] theorem State.hostStore_free (s : State) (a : Nat) (b : List Byte) : (s.hostStore a b).free = s.free := by unfold State.hostStore; split <;> simp
@[simp] theorem State.hostStore_dev (s : State) (a : Nat) (b : List Byte) : (s.hostStore a b).dev = s.dev := by unfold State.hostStore; split <;> simp
@[simp] theorem State.hostStore_flash (s : State) (a : Nat) (b : List Byte) : (s.hostStore a b).flash = s.flash := by unfold State.hostStore; split <;> simp
@[simp] theorem State.hostStore_log (s : State) (a : Nat) (b : List Byte) : (s.hostStore a b).log = s.log := by unfold State.hostStore; split <;> simp
@[simp] theorem State.hostStore_health (s : State) (a : Nat) (b : List Byte) : (s.hostStore a b).health = s.health := by unfold State.hostStore; split <;> simp
@[simp] theorem State.hostStore_mbx (s : State) (a : Nat) (b : List Byte) : (s.hostStore a b).mbx = s.mbx := by unfold State.hostStore; split <;> simp
@[simp] theorem State.hostStore_sess (s : State) (a : Nat) (b : List Byte) : (s.hostStore a b).sess = s.sess := by unfold State.hostStore; split <;> simp
@[simp] theorem State.hostStore_tick (s : State) (a : Nat) (b : List Byte) : (s.hostStore a b).tick = s.tick := by unfold State.hostStore; split <;> simp
@[simp] theorem State.hostStore_units (s : State) (a : Nat) (b : List Byte) : (s.hostStore a b).units = s.units := by unfold State.hostStore; split <;> simp
@[simp] theorem State.hostStore_regions (s : State) (a : Nat) (b : List Byte) : (s.hostStore a b).regions = s.regions := by unfold State.hostStore; split <;> simp
@[simp] theorem State.hostStore_tiles (s : State) (a : Nat) (b : List Byte) : (s.hostStore a b).tiles = s.tiles := by unfold State.hostStore; split <;> simp
@[simp] theorem State.hostStore_bufs (s : State) (a : Nat) (b : List Byte) : (s.hostStore a b).bufs = s.bufs := by unfold State.hostStore; split <;> simp
@[simp] theorem State.hostStore_eng (s : State) (a : Nat) (b : List Byte) : (s.hostStore a b).eng = s.eng := by unfold State.hostStore; split <;> simp
@[simp] theorem State.hostStore_fab (s : State) (a : Nat) (b : List Byte) : (s.hostStore a b).fab = s.fab := by unfold State.hostStore; split <;> simp
@[simp] theorem State.hostStore_fcfg (s : State) (a : Nat) (b : List Byte) : (s.hostStore a b).fcfg = s.fcfg := by unfold State.hostStore; split <;> simp
@[simp] theorem State.hostStore_loads (s : State) (a : Nat) (b : List Byte) : (s.hostStore a b).loads = s.loads := by unfold State.hostStore; split <;> simp
@[simp] theorem State.hostStore_strait (s : State) (a : Nat) (b : List Byte) : (s.hostStore a b).strait = s.strait := by unfold State.hostStore; split <;> simp
@[simp] theorem State.hostStore_ftx (s : State) (a : Nat) (b : List Byte) : (s.hostStore a b).ftx = s.ftx := by unfold State.hostStore; split <;> simp
@[simp] theorem State.hostStore_clk (s : State) (a : Nat) (b : List Byte) : (s.hostStore a b).clk = s.clk := by unfold State.hostStore; split <;> simp
@[simp] theorem State.hostStore_pwr (s : State) (a : Nat) (b : List Byte) : (s.hostStore a b).pwr = s.pwr := by unfold State.hostStore; split <;> simp
@[simp] theorem State.hostStore_sec (s : State) (a : Nat) (b : List Byte) : (s.hostStore a b).sec = s.sec := by unfold State.hostStore; split <;> simp
@[simp] theorem State.hostStore_out (s : State) (a : Nat) (b : List Byte) : (s.hostStore a b).out = s.out := by unfold State.hostStore; split <;> simp
@[simp] theorem State.hostStore_flagCnt (s : State) (a : Nat) (b : List Byte) : (s.hostStore a b).flagCnt = s.flagCnt := by unfold State.hostStore; split <;> simp
@[simp] theorem State.hostStore_latch (s : State) (a : Nat) (b : List Byte) : (s.hostStore a b).latch = s.latch := by unfold State.hostStore; split <;> simp

@[simp] theorem State.holdAccess_pending (s : State) (h : HeldAccess) : (s.holdAccess h).pending = s.pending := by unfold State.holdAccess; simp only []; split <;> simp
@[simp] theorem State.holdAccess_free (s : State) (h : HeldAccess) : (s.holdAccess h).free = s.free := by unfold State.holdAccess; simp only []; split <;> simp
@[simp] theorem State.holdAccess_dev (s : State) (h : HeldAccess) : (s.holdAccess h).dev = s.dev := by unfold State.holdAccess; simp only []; split <;> simp
@[simp] theorem State.holdAccess_flash (s : State) (h : HeldAccess) : (s.holdAccess h).flash = s.flash := by unfold State.holdAccess; simp only []; split <;> simp
@[simp] theorem State.holdAccess_log (s : State) (h : HeldAccess) : (s.holdAccess h).log = s.log := by unfold State.holdAccess; simp only []; split <;> simp
@[simp] theorem State.holdAccess_health (s : State) (h : HeldAccess) : (s.holdAccess h).health = s.health := by unfold State.holdAccess; simp only []; split <;> simp
@[simp] theorem State.holdAccess_mbx (s : State) (h : HeldAccess) : (s.holdAccess h).mbx = s.mbx := by unfold State.holdAccess; simp only []; split <;> simp
@[simp] theorem State.holdAccess_sess (s : State) (h : HeldAccess) : (s.holdAccess h).sess = s.sess := by unfold State.holdAccess; simp only []; split <;> simp
@[simp] theorem State.holdAccess_tick (s : State) (h : HeldAccess) : (s.holdAccess h).tick = s.tick := by unfold State.holdAccess; simp only []; split <;> simp
@[simp] theorem State.holdAccess_units (s : State) (h : HeldAccess) : (s.holdAccess h).units = s.units := by unfold State.holdAccess; simp only []; split <;> simp
@[simp] theorem State.holdAccess_regions (s : State) (h : HeldAccess) : (s.holdAccess h).regions = s.regions := by unfold State.holdAccess; simp only []; split <;> simp
@[simp] theorem State.holdAccess_tiles (s : State) (h : HeldAccess) : (s.holdAccess h).tiles = s.tiles := by unfold State.holdAccess; simp only []; split <;> simp
@[simp] theorem State.holdAccess_bufs (s : State) (h : HeldAccess) : (s.holdAccess h).bufs = s.bufs := by unfold State.holdAccess; simp only []; split <;> simp
@[simp] theorem State.holdAccess_eng (s : State) (h : HeldAccess) : (s.holdAccess h).eng = s.eng := by unfold State.holdAccess; simp only []; split <;> simp
@[simp] theorem State.holdAccess_mem (s : State) (h : HeldAccess) : (s.holdAccess h).mem = s.mem := by unfold State.holdAccess; simp only []; split <;> simp
@[simp] theorem State.holdAccess_ctl (s : State) (h : HeldAccess) : (s.holdAccess h).ctl = s.ctl := by unfold State.holdAccess; simp only []; split <;> simp
@[simp] theorem State.holdAccess_fab (s : State) (h : HeldAccess) : (s.holdAccess h).fab = s.fab := by unfold State.holdAccess; simp only []; split <;> simp
@[simp] theorem State.holdAccess_fcfg (s : State) (h : HeldAccess) : (s.holdAccess h).fcfg = s.fcfg := by unfold State.holdAccess; simp only []; split <;> simp
@[simp] theorem State.holdAccess_loads (s : State) (h : HeldAccess) : (s.holdAccess h).loads = s.loads := by unfold State.holdAccess; simp only []; split <;> simp
@[simp] theorem State.holdAccess_cxl (s : State) (h : HeldAccess) : (s.holdAccess h).cxl = s.cxl := by unfold State.holdAccess; simp only []; split <;> simp
@[simp] theorem State.holdAccess_strait (s : State) (h : HeldAccess) : (s.holdAccess h).strait = s.strait := by unfold State.holdAccess; simp only []; split <;> simp
@[simp] theorem State.holdAccess_ftx (s : State) (h : HeldAccess) : (s.holdAccess h).ftx = s.ftx := by unfold State.holdAccess; simp only []; split <;> simp
@[simp] theorem State.holdAccess_pair (s : State) (h : HeldAccess) : (s.holdAccess h).pair = s.pair := by unfold State.holdAccess; simp only []; split <;> simp
@[simp] theorem State.holdAccess_clk (s : State) (h : HeldAccess) : (s.holdAccess h).clk = s.clk := by unfold State.holdAccess; simp only []; split <;> simp
@[simp] theorem State.holdAccess_pwr (s : State) (h : HeldAccess) : (s.holdAccess h).pwr = s.pwr := by unfold State.holdAccess; simp only []; split <;> simp
@[simp] theorem State.holdAccess_sec (s : State) (h : HeldAccess) : (s.holdAccess h).sec = s.sec := by unfold State.holdAccess; simp only []; split <;> simp
@[simp] theorem State.holdAccess_out (s : State) (h : HeldAccess) : (s.holdAccess h).out = s.out := by unfold State.holdAccess; simp only []; split <;> simp
@[simp] theorem State.holdAccess_flagCnt (s : State) (h : HeldAccess) : (s.holdAccess h).flagCnt = s.flagCnt := by unfold State.holdAccess; simp only []; split <;> simp
@[simp] theorem State.holdAccess_latch (s : State) (h : HeldAccess) : (s.holdAccess h).latch = s.latch := by unfold State.holdAccess; simp only []; split <;> simp

@[simp] theorem State.devStore_pending (s : State) (a : Nat) (b : List Byte) (mb : Option Nat) : (s.devStore a b mb).pending = s.pending := by unfold State.devStore; split <;> simp
@[simp] theorem State.devStore_free (s : State) (a : Nat) (b : List Byte) (mb : Option Nat) : (s.devStore a b mb).free = s.free := by unfold State.devStore; split <;> simp
@[simp] theorem State.devStore_dev (s : State) (a : Nat) (b : List Byte) (mb : Option Nat) : (s.devStore a b mb).dev = s.dev := by unfold State.devStore; split <;> simp
@[simp] theorem State.devStore_flash (s : State) (a : Nat) (b : List Byte) (mb : Option Nat) : (s.devStore a b mb).flash = s.flash := by unfold State.devStore; split <;> simp
@[simp] theorem State.devStore_log (s : State) (a : Nat) (b : List Byte) (mb : Option Nat) : (s.devStore a b mb).log = s.log := by unfold State.devStore; split <;> simp
@[simp] theorem State.devStore_health (s : State) (a : Nat) (b : List Byte) (mb : Option Nat) : (s.devStore a b mb).health = s.health := by unfold State.devStore; split <;> simp
@[simp] theorem State.devStore_mbx (s : State) (a : Nat) (b : List Byte) (mb : Option Nat) : (s.devStore a b mb).mbx = s.mbx := by unfold State.devStore; split <;> simp
@[simp] theorem State.devStore_sess (s : State) (a : Nat) (b : List Byte) (mb : Option Nat) : (s.devStore a b mb).sess = s.sess := by unfold State.devStore; split <;> simp
@[simp] theorem State.devStore_tick (s : State) (a : Nat) (b : List Byte) (mb : Option Nat) : (s.devStore a b mb).tick = s.tick := by unfold State.devStore; split <;> simp
@[simp] theorem State.devStore_units (s : State) (a : Nat) (b : List Byte) (mb : Option Nat) : (s.devStore a b mb).units = s.units := by unfold State.devStore; split <;> simp
@[simp] theorem State.devStore_regions (s : State) (a : Nat) (b : List Byte) (mb : Option Nat) : (s.devStore a b mb).regions = s.regions := by unfold State.devStore; split <;> simp
@[simp] theorem State.devStore_tiles (s : State) (a : Nat) (b : List Byte) (mb : Option Nat) : (s.devStore a b mb).tiles = s.tiles := by unfold State.devStore; split <;> simp
@[simp] theorem State.devStore_bufs (s : State) (a : Nat) (b : List Byte) (mb : Option Nat) : (s.devStore a b mb).bufs = s.bufs := by unfold State.devStore; split <;> simp
@[simp] theorem State.devStore_eng (s : State) (a : Nat) (b : List Byte) (mb : Option Nat) : (s.devStore a b mb).eng = s.eng := by unfold State.devStore; split <;> simp
@[simp] theorem State.devStore_fab (s : State) (a : Nat) (b : List Byte) (mb : Option Nat) : (s.devStore a b mb).fab = s.fab := by unfold State.devStore; split <;> simp
@[simp] theorem State.devStore_fcfg (s : State) (a : Nat) (b : List Byte) (mb : Option Nat) : (s.devStore a b mb).fcfg = s.fcfg := by unfold State.devStore; split <;> simp
@[simp] theorem State.devStore_loads (s : State) (a : Nat) (b : List Byte) (mb : Option Nat) : (s.devStore a b mb).loads = s.loads := by unfold State.devStore; split <;> simp
@[simp] theorem State.devStore_strait (s : State) (a : Nat) (b : List Byte) (mb : Option Nat) : (s.devStore a b mb).strait = s.strait := by unfold State.devStore; split <;> simp
@[simp] theorem State.devStore_ftx (s : State) (a : Nat) (b : List Byte) (mb : Option Nat) : (s.devStore a b mb).ftx = s.ftx := by unfold State.devStore; split <;> simp
@[simp] theorem State.devStore_clk (s : State) (a : Nat) (b : List Byte) (mb : Option Nat) : (s.devStore a b mb).clk = s.clk := by unfold State.devStore; split <;> simp
@[simp] theorem State.devStore_pwr (s : State) (a : Nat) (b : List Byte) (mb : Option Nat) : (s.devStore a b mb).pwr = s.pwr := by unfold State.devStore; split <;> simp
@[simp] theorem State.devStore_sec (s : State) (a : Nat) (b : List Byte) (mb : Option Nat) : (s.devStore a b mb).sec = s.sec := by unfold State.devStore; split <;> simp
@[simp] theorem State.devStore_out (s : State) (a : Nat) (b : List Byte) (mb : Option Nat) : (s.devStore a b mb).out = s.out := by unfold State.devStore; split <;> simp
@[simp] theorem State.devStore_flagCnt (s : State) (a : Nat) (b : List Byte) (mb : Option Nat) : (s.devStore a b mb).flagCnt = s.flagCnt := by unfold State.devStore; split <;> simp
@[simp] theorem State.devStore_latch (s : State) (a : Nat) (b : List Byte) (mb : Option Nat) : (s.devStore a b mb).latch = s.latch := by unfold State.devStore; split <;> simp

@[simp] theorem State.devZero_pending (s : State) (a n : Nat) (mb : Option Nat) : (s.devZero a n mb).pending = s.pending := by unfold State.devZero; split <;> simp
@[simp] theorem State.devZero_free (s : State) (a n : Nat) (mb : Option Nat) : (s.devZero a n mb).free = s.free := by unfold State.devZero; split <;> simp
@[simp] theorem State.devZero_dev (s : State) (a n : Nat) (mb : Option Nat) : (s.devZero a n mb).dev = s.dev := by unfold State.devZero; split <;> simp
@[simp] theorem State.devZero_flash (s : State) (a n : Nat) (mb : Option Nat) : (s.devZero a n mb).flash = s.flash := by unfold State.devZero; split <;> simp
@[simp] theorem State.devZero_log (s : State) (a n : Nat) (mb : Option Nat) : (s.devZero a n mb).log = s.log := by unfold State.devZero; split <;> simp
@[simp] theorem State.devZero_health (s : State) (a n : Nat) (mb : Option Nat) : (s.devZero a n mb).health = s.health := by unfold State.devZero; split <;> simp
@[simp] theorem State.devZero_mbx (s : State) (a n : Nat) (mb : Option Nat) : (s.devZero a n mb).mbx = s.mbx := by unfold State.devZero; split <;> simp
@[simp] theorem State.devZero_sess (s : State) (a n : Nat) (mb : Option Nat) : (s.devZero a n mb).sess = s.sess := by unfold State.devZero; split <;> simp
@[simp] theorem State.devZero_tick (s : State) (a n : Nat) (mb : Option Nat) : (s.devZero a n mb).tick = s.tick := by unfold State.devZero; split <;> simp
@[simp] theorem State.devZero_units (s : State) (a n : Nat) (mb : Option Nat) : (s.devZero a n mb).units = s.units := by unfold State.devZero; split <;> simp
@[simp] theorem State.devZero_regions (s : State) (a n : Nat) (mb : Option Nat) : (s.devZero a n mb).regions = s.regions := by unfold State.devZero; split <;> simp
@[simp] theorem State.devZero_tiles (s : State) (a n : Nat) (mb : Option Nat) : (s.devZero a n mb).tiles = s.tiles := by unfold State.devZero; split <;> simp
@[simp] theorem State.devZero_bufs (s : State) (a n : Nat) (mb : Option Nat) : (s.devZero a n mb).bufs = s.bufs := by unfold State.devZero; split <;> simp
@[simp] theorem State.devZero_eng (s : State) (a n : Nat) (mb : Option Nat) : (s.devZero a n mb).eng = s.eng := by unfold State.devZero; split <;> simp
@[simp] theorem State.devZero_ctl (s : State) (a n : Nat) (mb : Option Nat) : (s.devZero a n mb).ctl = s.ctl := by unfold State.devZero; split <;> simp
@[simp] theorem State.devZero_fab (s : State) (a n : Nat) (mb : Option Nat) : (s.devZero a n mb).fab = s.fab := by unfold State.devZero; split <;> simp
@[simp] theorem State.devZero_fcfg (s : State) (a n : Nat) (mb : Option Nat) : (s.devZero a n mb).fcfg = s.fcfg := by unfold State.devZero; split <;> simp
@[simp] theorem State.devZero_loads (s : State) (a n : Nat) (mb : Option Nat) : (s.devZero a n mb).loads = s.loads := by unfold State.devZero; split <;> simp
@[simp] theorem State.devZero_cxl (s : State) (a n : Nat) (mb : Option Nat) : (s.devZero a n mb).cxl = s.cxl := by unfold State.devZero; split <;> simp
@[simp] theorem State.devZero_strait (s : State) (a n : Nat) (mb : Option Nat) : (s.devZero a n mb).strait = s.strait := by unfold State.devZero; split <;> simp
@[simp] theorem State.devZero_ftx (s : State) (a n : Nat) (mb : Option Nat) : (s.devZero a n mb).ftx = s.ftx := by unfold State.devZero; split <;> simp
@[simp] theorem State.devZero_clk (s : State) (a n : Nat) (mb : Option Nat) : (s.devZero a n mb).clk = s.clk := by unfold State.devZero; split <;> simp
@[simp] theorem State.devZero_pwr (s : State) (a n : Nat) (mb : Option Nat) : (s.devZero a n mb).pwr = s.pwr := by unfold State.devZero; split <;> simp
@[simp] theorem State.devZero_sec (s : State) (a n : Nat) (mb : Option Nat) : (s.devZero a n mb).sec = s.sec := by unfold State.devZero; split <;> simp
@[simp] theorem State.devZero_out (s : State) (a n : Nat) (mb : Option Nat) : (s.devZero a n mb).out = s.out := by unfold State.devZero; split <;> simp
@[simp] theorem State.devZero_flagCnt (s : State) (a n : Nat) (mb : Option Nat) : (s.devZero a n mb).flagCnt = s.flagCnt := by unfold State.devZero; split <;> simp
@[simp] theorem State.devZero_latch (s : State) (a n : Nat) (mb : Option Nat) : (s.devZero a n mb).latch = s.latch := by unfold State.devZero; split <;> simp

@[simp] theorem State.forward_pending (s : State) (i : Input) : (s.forward i).pending = s.pending := by unfold State.forward; split <;> rfl
@[simp] theorem State.forward_free (s : State) (i : Input) : (s.forward i).free = s.free := by unfold State.forward; split <;> rfl
@[simp] theorem State.forward_dev (s : State) (i : Input) : (s.forward i).dev = s.dev := by unfold State.forward; split <;> rfl
@[simp] theorem State.forward_flash (s : State) (i : Input) : (s.forward i).flash = s.flash := by unfold State.forward; split <;> rfl
@[simp] theorem State.forward_log (s : State) (i : Input) : (s.forward i).log = s.log := by unfold State.forward; split <;> rfl
@[simp] theorem State.forward_health (s : State) (i : Input) : (s.forward i).health = s.health := by unfold State.forward; split <;> rfl
@[simp] theorem State.forward_mbx (s : State) (i : Input) : (s.forward i).mbx = s.mbx := by unfold State.forward; split <;> rfl
@[simp] theorem State.forward_sess (s : State) (i : Input) : (s.forward i).sess = s.sess := by unfold State.forward; split <;> rfl
@[simp] theorem State.forward_tick (s : State) (i : Input) : (s.forward i).tick = s.tick := by unfold State.forward; split <;> rfl
@[simp] theorem State.forward_units (s : State) (i : Input) : (s.forward i).units = s.units := by unfold State.forward; split <;> rfl
@[simp] theorem State.forward_regions (s : State) (i : Input) : (s.forward i).regions = s.regions := by unfold State.forward; split <;> rfl
@[simp] theorem State.forward_tiles (s : State) (i : Input) : (s.forward i).tiles = s.tiles := by unfold State.forward; split <;> rfl
@[simp] theorem State.forward_bufs (s : State) (i : Input) : (s.forward i).bufs = s.bufs := by unfold State.forward; split <;> rfl
@[simp] theorem State.forward_eng (s : State) (i : Input) : (s.forward i).eng = s.eng := by unfold State.forward; split <;> rfl
@[simp] theorem State.forward_mem (s : State) (i : Input) : (s.forward i).mem = s.mem := by unfold State.forward; split <;> rfl
@[simp] theorem State.forward_ctl (s : State) (i : Input) : (s.forward i).ctl = s.ctl := by unfold State.forward; split <;> rfl
@[simp] theorem State.forward_mpk (s : State) (i : Input) : (s.forward i).mpk = s.mpk := by unfold State.forward; split <;> rfl
@[simp] theorem State.forward_fab (s : State) (i : Input) : (s.forward i).fab = s.fab := by unfold State.forward; split <;> rfl
@[simp] theorem State.forward_fcfg (s : State) (i : Input) : (s.forward i).fcfg = s.fcfg := by unfold State.forward; split <;> rfl
@[simp] theorem State.forward_loads (s : State) (i : Input) : (s.forward i).loads = s.loads := by unfold State.forward; split <;> rfl
@[simp] theorem State.forward_cxl (s : State) (i : Input) : (s.forward i).cxl = s.cxl := by unfold State.forward; split <;> rfl
@[simp] theorem State.forward_strait (s : State) (i : Input) : (s.forward i).strait = s.strait := by unfold State.forward; split <;> rfl
@[simp] theorem State.forward_ftx (s : State) (i : Input) : (s.forward i).ftx = s.ftx := by unfold State.forward; split <;> rfl
@[simp] theorem State.forward_clk (s : State) (i : Input) : (s.forward i).clk = s.clk := by unfold State.forward; split <;> rfl
@[simp] theorem State.forward_pwr (s : State) (i : Input) : (s.forward i).pwr = s.pwr := by unfold State.forward; split <;> rfl
@[simp] theorem State.forward_sec (s : State) (i : Input) : (s.forward i).sec = s.sec := by unfold State.forward; split <;> rfl
@[simp] theorem State.forward_out (s : State) (i : Input) : (s.forward i).out = s.out := by unfold State.forward; split <;> rfl
@[simp] theorem State.forward_flagCnt (s : State) (i : Input) : (s.forward i).flagCnt = s.flagCnt := by unfold State.forward; split <;> rfl
@[simp] theorem State.forward_latch (s : State) (i : Input) : (s.forward i).latch = s.latch := by unfold State.forward; split <;> rfl

@[simp] theorem State.sendPair_pending (s : State)  : (s.sendPair).pending = s.pending := by unfold State.sendPair; split <;> rfl
@[simp] theorem State.sendPair_free (s : State)  : (s.sendPair).free = s.free := by unfold State.sendPair; split <;> rfl
@[simp] theorem State.sendPair_dev (s : State)  : (s.sendPair).dev = s.dev := by unfold State.sendPair; split <;> rfl
@[simp] theorem State.sendPair_flash (s : State)  : (s.sendPair).flash = s.flash := by unfold State.sendPair; split <;> rfl
@[simp] theorem State.sendPair_log (s : State)  : (s.sendPair).log = s.log := by unfold State.sendPair; split <;> rfl
@[simp] theorem State.sendPair_health (s : State)  : (s.sendPair).health = s.health := by unfold State.sendPair; split <;> rfl
@[simp] theorem State.sendPair_mbx (s : State)  : (s.sendPair).mbx = s.mbx := by unfold State.sendPair; split <;> rfl
@[simp] theorem State.sendPair_sess (s : State)  : (s.sendPair).sess = s.sess := by unfold State.sendPair; split <;> rfl
@[simp] theorem State.sendPair_tick (s : State)  : (s.sendPair).tick = s.tick := by unfold State.sendPair; split <;> rfl
@[simp] theorem State.sendPair_units (s : State)  : (s.sendPair).units = s.units := by unfold State.sendPair; split <;> rfl
@[simp] theorem State.sendPair_regions (s : State)  : (s.sendPair).regions = s.regions := by unfold State.sendPair; split <;> rfl
@[simp] theorem State.sendPair_tiles (s : State)  : (s.sendPair).tiles = s.tiles := by unfold State.sendPair; split <;> rfl
@[simp] theorem State.sendPair_bufs (s : State)  : (s.sendPair).bufs = s.bufs := by unfold State.sendPair; split <;> rfl
@[simp] theorem State.sendPair_eng (s : State)  : (s.sendPair).eng = s.eng := by unfold State.sendPair; split <;> rfl
@[simp] theorem State.sendPair_mem (s : State)  : (s.sendPair).mem = s.mem := by unfold State.sendPair; split <;> rfl
@[simp] theorem State.sendPair_ctl (s : State)  : (s.sendPair).ctl = s.ctl := by unfold State.sendPair; split <;> rfl
@[simp] theorem State.sendPair_mpk (s : State)  : (s.sendPair).mpk = s.mpk := by unfold State.sendPair; split <;> rfl
@[simp] theorem State.sendPair_fab (s : State)  : (s.sendPair).fab = s.fab := by unfold State.sendPair; split <;> rfl
@[simp] theorem State.sendPair_fcfg (s : State)  : (s.sendPair).fcfg = s.fcfg := by unfold State.sendPair; split <;> rfl
@[simp] theorem State.sendPair_loads (s : State)  : (s.sendPair).loads = s.loads := by unfold State.sendPair; split <;> rfl
@[simp] theorem State.sendPair_cxl (s : State)  : (s.sendPair).cxl = s.cxl := by unfold State.sendPair; split <;> rfl
@[simp] theorem State.sendPair_strait (s : State)  : (s.sendPair).strait = s.strait := by unfold State.sendPair; split <;> rfl
@[simp] theorem State.sendPair_ftx (s : State)  : (s.sendPair).ftx = s.ftx := by unfold State.sendPair; split <;> rfl
@[simp] theorem State.sendPair_clk (s : State)  : (s.sendPair).clk = s.clk := by unfold State.sendPair; split <;> rfl
@[simp] theorem State.sendPair_pwr (s : State)  : (s.sendPair).pwr = s.pwr := by unfold State.sendPair; split <;> rfl
@[simp] theorem State.sendPair_sec (s : State)  : (s.sendPair).sec = s.sec := by unfold State.sendPair; split <;> rfl
@[simp] theorem State.sendPair_flagCnt (s : State)  : (s.sendPair).flagCnt = s.flagCnt := by unfold State.sendPair; split <;> rfl
@[simp] theorem State.sendPair_latch (s : State)  : (s.sendPair).latch = s.latch := by unfold State.sendPair; split <;> rfl

@[simp] theorem State.tellDone_pending (s : State)  : (s.tellDone).pending = s.pending := by unfold State.tellDone; simp only []; split <;> simp
@[simp] theorem State.tellDone_free (s : State)  : (s.tellDone).free = s.free := by unfold State.tellDone; simp only []; split <;> simp
@[simp] theorem State.tellDone_dev (s : State)  : (s.tellDone).dev = s.dev := by unfold State.tellDone; simp only []; split <;> simp
@[simp] theorem State.tellDone_flash (s : State)  : (s.tellDone).flash = s.flash := by unfold State.tellDone; simp only []; split <;> simp
@[simp] theorem State.tellDone_log (s : State)  : (s.tellDone).log = s.log := by unfold State.tellDone; simp only []; split <;> simp
@[simp] theorem State.tellDone_health (s : State)  : (s.tellDone).health = s.health := by unfold State.tellDone; simp only []; split <;> simp
@[simp] theorem State.tellDone_mbx (s : State)  : (s.tellDone).mbx = s.mbx := by unfold State.tellDone; simp only []; split <;> simp
@[simp] theorem State.tellDone_sess (s : State)  : (s.tellDone).sess = s.sess := by unfold State.tellDone; simp only []; split <;> simp
@[simp] theorem State.tellDone_tick (s : State)  : (s.tellDone).tick = s.tick := by unfold State.tellDone; simp only []; split <;> simp
@[simp] theorem State.tellDone_units (s : State)  : (s.tellDone).units = s.units := by unfold State.tellDone; simp only []; split <;> simp
@[simp] theorem State.tellDone_regions (s : State)  : (s.tellDone).regions = s.regions := by unfold State.tellDone; simp only []; split <;> simp
@[simp] theorem State.tellDone_tiles (s : State)  : (s.tellDone).tiles = s.tiles := by unfold State.tellDone; simp only []; split <;> simp
@[simp] theorem State.tellDone_bufs (s : State)  : (s.tellDone).bufs = s.bufs := by unfold State.tellDone; simp only []; split <;> simp
@[simp] theorem State.tellDone_eng (s : State)  : (s.tellDone).eng = s.eng := by unfold State.tellDone; simp only []; split <;> simp
@[simp] theorem State.tellDone_mem (s : State)  : (s.tellDone).mem = s.mem := by unfold State.tellDone; simp only []; split <;> simp
@[simp] theorem State.tellDone_ctl (s : State)  : (s.tellDone).ctl = s.ctl := by unfold State.tellDone; simp only []; split <;> simp
@[simp] theorem State.tellDone_mpk (s : State)  : (s.tellDone).mpk = s.mpk := by unfold State.tellDone; simp only []; split <;> simp
@[simp] theorem State.tellDone_fab (s : State)  : (s.tellDone).fab = s.fab := by unfold State.tellDone; simp only []; split <;> simp
@[simp] theorem State.tellDone_fcfg (s : State)  : (s.tellDone).fcfg = s.fcfg := by unfold State.tellDone; simp only []; split <;> simp
@[simp] theorem State.tellDone_loads (s : State)  : (s.tellDone).loads = s.loads := by unfold State.tellDone; simp only []; split <;> simp
@[simp] theorem State.tellDone_cxl (s : State)  : (s.tellDone).cxl = s.cxl := by unfold State.tellDone; simp only []; split <;> simp
@[simp] theorem State.tellDone_strait (s : State)  : (s.tellDone).strait = s.strait := by unfold State.tellDone; simp only []; split <;> simp
@[simp] theorem State.tellDone_ftx (s : State)  : (s.tellDone).ftx = s.ftx := by unfold State.tellDone; simp only []; split <;> simp
@[simp] theorem State.tellDone_clk (s : State)  : (s.tellDone).clk = s.clk := by unfold State.tellDone; simp only []; split <;> simp
@[simp] theorem State.tellDone_pwr (s : State)  : (s.tellDone).pwr = s.pwr := by unfold State.tellDone; simp only []; split <;> simp
@[simp] theorem State.tellDone_sec (s : State)  : (s.tellDone).sec = s.sec := by unfold State.tellDone; simp only []; split <;> simp
@[simp] theorem State.tellDone_flagCnt (s : State)  : (s.tellDone).flagCnt = s.flagCnt := by unfold State.tellDone; simp only []; split <;> simp
@[simp] theorem State.tellDone_latch (s : State)  : (s.tellDone).latch = s.latch := by unfold State.tellDone; simp only []; split <;> simp

@[simp] theorem State.leavePanic_pending (s : State)  : (s.leavePanic).pending = s.pending := rfl
@[simp] theorem State.leavePanic_free (s : State)  : (s.leavePanic).free = s.free := rfl
@[simp] theorem State.leavePanic_dev (s : State)  : (s.leavePanic).dev = s.dev := rfl
@[simp] theorem State.leavePanic_flash (s : State)  : (s.leavePanic).flash = s.flash := rfl
@[simp] theorem State.leavePanic_log (s : State)  : (s.leavePanic).log = s.log := rfl
@[simp] theorem State.leavePanic_health (s : State)  : (s.leavePanic).health = s.health := rfl
@[simp] theorem State.leavePanic_mbx (s : State)  : (s.leavePanic).mbx = s.mbx := rfl
@[simp] theorem State.leavePanic_sess (s : State)  : (s.leavePanic).sess = s.sess := rfl
@[simp] theorem State.leavePanic_tick (s : State)  : (s.leavePanic).tick = s.tick := rfl
@[simp] theorem State.leavePanic_units (s : State)  : (s.leavePanic).units = s.units := rfl
@[simp] theorem State.leavePanic_regions (s : State)  : (s.leavePanic).regions = s.regions := rfl
@[simp] theorem State.leavePanic_tiles (s : State)  : (s.leavePanic).tiles = s.tiles := rfl
@[simp] theorem State.leavePanic_bufs (s : State)  : (s.leavePanic).bufs = s.bufs := rfl
@[simp] theorem State.leavePanic_eng (s : State)  : (s.leavePanic).eng = s.eng := rfl
@[simp] theorem State.leavePanic_mem (s : State)  : (s.leavePanic).mem = s.mem := rfl
@[simp] theorem State.leavePanic_ctl (s : State)  : (s.leavePanic).ctl = s.ctl := rfl
@[simp] theorem State.leavePanic_fab (s : State)  : (s.leavePanic).fab = s.fab := rfl
@[simp] theorem State.leavePanic_fcfg (s : State)  : (s.leavePanic).fcfg = s.fcfg := rfl
@[simp] theorem State.leavePanic_loads (s : State)  : (s.leavePanic).loads = s.loads := rfl
@[simp] theorem State.leavePanic_cxl (s : State)  : (s.leavePanic).cxl = s.cxl := rfl
@[simp] theorem State.leavePanic_strait (s : State)  : (s.leavePanic).strait = s.strait := rfl
@[simp] theorem State.leavePanic_ftx (s : State)  : (s.leavePanic).ftx = s.ftx := rfl
@[simp] theorem State.leavePanic_pair (s : State)  : (s.leavePanic).pair = s.pair := rfl
@[simp] theorem State.leavePanic_clk (s : State)  : (s.leavePanic).clk = s.clk := rfl
@[simp] theorem State.leavePanic_pwr (s : State)  : (s.leavePanic).pwr = s.pwr := rfl
@[simp] theorem State.leavePanic_sec (s : State)  : (s.leavePanic).sec = s.sec := rfl
@[simp] theorem State.leavePanic_out (s : State)  : (s.leavePanic).out = s.out := rfl
@[simp] theorem State.leavePanic_flagCnt (s : State)  : (s.leavePanic).flagCnt = s.flagCnt := rfl
@[simp] theorem State.leavePanic_latch (s : State)  : (s.leavePanic).latch = s.latch := rfl

@[simp] theorem State.raiseVector_pending (s : State) (n : Nat) : (s.raiseVector n).pending = s.pending := by unfold State.raiseVector; split <;> rfl
@[simp] theorem State.raiseVector_free (s : State) (n : Nat) : (s.raiseVector n).free = s.free := by unfold State.raiseVector; split <;> rfl
@[simp] theorem State.raiseVector_dev (s : State) (n : Nat) : (s.raiseVector n).dev = s.dev := by unfold State.raiseVector; split <;> rfl
@[simp] theorem State.raiseVector_flash (s : State) (n : Nat) : (s.raiseVector n).flash = s.flash := by unfold State.raiseVector; split <;> rfl
@[simp] theorem State.raiseVector_log (s : State) (n : Nat) : (s.raiseVector n).log = s.log := by unfold State.raiseVector; split <;> rfl
@[simp] theorem State.raiseVector_health (s : State) (n : Nat) : (s.raiseVector n).health = s.health := by unfold State.raiseVector; split <;> rfl
@[simp] theorem State.raiseVector_mbx (s : State) (n : Nat) : (s.raiseVector n).mbx = s.mbx := by unfold State.raiseVector; split <;> rfl
@[simp] theorem State.raiseVector_sess (s : State) (n : Nat) : (s.raiseVector n).sess = s.sess := by unfold State.raiseVector; split <;> rfl
@[simp] theorem State.raiseVector_tick (s : State) (n : Nat) : (s.raiseVector n).tick = s.tick := by unfold State.raiseVector; split <;> rfl
@[simp] theorem State.raiseVector_units (s : State) (n : Nat) : (s.raiseVector n).units = s.units := by unfold State.raiseVector; split <;> rfl
@[simp] theorem State.raiseVector_regions (s : State) (n : Nat) : (s.raiseVector n).regions = s.regions := by unfold State.raiseVector; split <;> rfl
@[simp] theorem State.raiseVector_tiles (s : State) (n : Nat) : (s.raiseVector n).tiles = s.tiles := by unfold State.raiseVector; split <;> rfl
@[simp] theorem State.raiseVector_bufs (s : State) (n : Nat) : (s.raiseVector n).bufs = s.bufs := by unfold State.raiseVector; split <;> rfl
@[simp] theorem State.raiseVector_eng (s : State) (n : Nat) : (s.raiseVector n).eng = s.eng := by unfold State.raiseVector; split <;> rfl
@[simp] theorem State.raiseVector_mem (s : State) (n : Nat) : (s.raiseVector n).mem = s.mem := by unfold State.raiseVector; split <;> rfl
@[simp] theorem State.raiseVector_ctl (s : State) (n : Nat) : (s.raiseVector n).ctl = s.ctl := by unfold State.raiseVector; split <;> rfl
@[simp] theorem State.raiseVector_mpk (s : State) (n : Nat) : (s.raiseVector n).mpk = s.mpk := by unfold State.raiseVector; split <;> rfl
@[simp] theorem State.raiseVector_fab (s : State) (n : Nat) : (s.raiseVector n).fab = s.fab := by unfold State.raiseVector; split <;> rfl
@[simp] theorem State.raiseVector_fcfg (s : State) (n : Nat) : (s.raiseVector n).fcfg = s.fcfg := by unfold State.raiseVector; split <;> rfl
@[simp] theorem State.raiseVector_loads (s : State) (n : Nat) : (s.raiseVector n).loads = s.loads := by unfold State.raiseVector; split <;> rfl
@[simp] theorem State.raiseVector_cxl (s : State) (n : Nat) : (s.raiseVector n).cxl = s.cxl := by unfold State.raiseVector; split <;> rfl
@[simp] theorem State.raiseVector_strait (s : State) (n : Nat) : (s.raiseVector n).strait = s.strait := by unfold State.raiseVector; split <;> rfl
@[simp] theorem State.raiseVector_ftx (s : State) (n : Nat) : (s.raiseVector n).ftx = s.ftx := by unfold State.raiseVector; split <;> rfl
@[simp] theorem State.raiseVector_pair (s : State) (n : Nat) : (s.raiseVector n).pair = s.pair := by unfold State.raiseVector; split <;> rfl
@[simp] theorem State.raiseVector_clk (s : State) (n : Nat) : (s.raiseVector n).clk = s.clk := by unfold State.raiseVector; split <;> rfl
@[simp] theorem State.raiseVector_pwr (s : State) (n : Nat) : (s.raiseVector n).pwr = s.pwr := by unfold State.raiseVector; split <;> rfl
@[simp] theorem State.raiseVector_sec (s : State) (n : Nat) : (s.raiseVector n).sec = s.sec := by unfold State.raiseVector; split <;> rfl
@[simp] theorem State.raiseVector_flagCnt (s : State) (n : Nat) : (s.raiseVector n).flagCnt = s.flagCnt := by unfold State.raiseVector; split <;> rfl
@[simp] theorem State.raiseVector_latch (s : State) (n : Nat) : (s.raiseVector n).latch = s.latch := by unfold State.raiseVector; split <;> rfl

@[simp] theorem State.putFlags_pending (s : State) (g : Reg) (w : Word) : (s.putFlags g w).pending = s.pending := by cases g <;> rfl
@[simp] theorem State.putFlags_free (s : State) (g : Reg) (w : Word) : (s.putFlags g w).free = s.free := by cases g <;> rfl
@[simp] theorem State.putFlags_flash (s : State) (g : Reg) (w : Word) : (s.putFlags g w).flash = s.flash := by cases g <;> rfl
@[simp] theorem State.putFlags_log (s : State) (g : Reg) (w : Word) : (s.putFlags g w).log = s.log := by cases g <;> rfl
@[simp] theorem State.putFlags_health (s : State) (g : Reg) (w : Word) : (s.putFlags g w).health = s.health := by cases g <;> rfl
@[simp] theorem State.putFlags_sess (s : State) (g : Reg) (w : Word) : (s.putFlags g w).sess = s.sess := by cases g <;> rfl
@[simp] theorem State.putFlags_units (s : State) (g : Reg) (w : Word) : (s.putFlags g w).units = s.units := by cases g <;> rfl
@[simp] theorem State.putFlags_regions (s : State) (g : Reg) (w : Word) : (s.putFlags g w).regions = s.regions := by cases g <;> rfl
@[simp] theorem State.putFlags_bufs (s : State) (g : Reg) (w : Word) : (s.putFlags g w).bufs = s.bufs := by cases g <;> rfl
@[simp] theorem State.putFlags_mem (s : State) (g : Reg) (w : Word) : (s.putFlags g w).mem = s.mem := by cases g <;> rfl
@[simp] theorem State.putFlags_loads (s : State) (g : Reg) (w : Word) : (s.putFlags g w).loads = s.loads := by cases g <;> rfl
@[simp] theorem State.putFlags_out (s : State) (g : Reg) (w : Word) : (s.putFlags g w).out = s.out := by cases g <;> rfl
@[simp] theorem State.putFlags_flagCnt (s : State) (g : Reg) (w : Word) : (s.putFlags g w).flagCnt = s.flagCnt := by cases g <;> rfl
@[simp] theorem State.putFlags_latch (s : State) (g : Reg) (w : Word) : (s.putFlags g w).latch = s.latch := by cases g <;> rfl

@[simp] theorem State.raise_pending (s : State) (g : Reg) (m : Word) : (s.raise g m).pending = s.pending := by simp [State.raise]
@[simp] theorem State.raise_free (s : State) (g : Reg) (m : Word) : (s.raise g m).free = s.free := by simp [State.raise]
@[simp] theorem State.raise_flash (s : State) (g : Reg) (m : Word) : (s.raise g m).flash = s.flash := by simp [State.raise]
@[simp] theorem State.raise_log (s : State) (g : Reg) (m : Word) : (s.raise g m).log = s.log := by simp [State.raise]
@[simp] theorem State.raise_health (s : State) (g : Reg) (m : Word) : (s.raise g m).health = s.health := by simp [State.raise]
@[simp] theorem State.raise_sess (s : State) (g : Reg) (m : Word) : (s.raise g m).sess = s.sess := by simp [State.raise]
@[simp] theorem State.raise_units (s : State) (g : Reg) (m : Word) : (s.raise g m).units = s.units := by simp [State.raise]
@[simp] theorem State.raise_regions (s : State) (g : Reg) (m : Word) : (s.raise g m).regions = s.regions := by simp [State.raise]
@[simp] theorem State.raise_bufs (s : State) (g : Reg) (m : Word) : (s.raise g m).bufs = s.bufs := by simp [State.raise]
@[simp] theorem State.raise_mem (s : State) (g : Reg) (m : Word) : (s.raise g m).mem = s.mem := by simp [State.raise]
@[simp] theorem State.raise_loads (s : State) (g : Reg) (m : Word) : (s.raise g m).loads = s.loads := by simp [State.raise]
@[simp] theorem State.raise_out (s : State) (g : Reg) (m : Word) : (s.raise g m).out = s.out := by simp [State.raise]
@[simp] theorem State.raise_latch (s : State) (g : Reg) (m : Word) : (s.raise g m).latch = s.latch := by simp [State.raise]

@[simp] theorem State.w1c_pending (s : State) (g : Reg) (w h : Word) : (s.w1c g w h).pending = s.pending := by simp [State.w1c]
@[simp] theorem State.w1c_free (s : State) (g : Reg) (w h : Word) : (s.w1c g w h).free = s.free := by simp [State.w1c]
@[simp] theorem State.w1c_flash (s : State) (g : Reg) (w h : Word) : (s.w1c g w h).flash = s.flash := by simp [State.w1c]
@[simp] theorem State.w1c_log (s : State) (g : Reg) (w h : Word) : (s.w1c g w h).log = s.log := by simp [State.w1c]
@[simp] theorem State.w1c_health (s : State) (g : Reg) (w h : Word) : (s.w1c g w h).health = s.health := by simp [State.w1c]
@[simp] theorem State.w1c_sess (s : State) (g : Reg) (w h : Word) : (s.w1c g w h).sess = s.sess := by simp [State.w1c]
@[simp] theorem State.w1c_units (s : State) (g : Reg) (w h : Word) : (s.w1c g w h).units = s.units := by simp [State.w1c]
@[simp] theorem State.w1c_regions (s : State) (g : Reg) (w h : Word) : (s.w1c g w h).regions = s.regions := by simp [State.w1c]
@[simp] theorem State.w1c_bufs (s : State) (g : Reg) (w h : Word) : (s.w1c g w h).bufs = s.bufs := by simp [State.w1c]
@[simp] theorem State.w1c_mem (s : State) (g : Reg) (w h : Word) : (s.w1c g w h).mem = s.mem := by simp [State.w1c]
@[simp] theorem State.w1c_loads (s : State) (g : Reg) (w h : Word) : (s.w1c g w h).loads = s.loads := by simp [State.w1c]
@[simp] theorem State.w1c_out (s : State) (g : Reg) (w h : Word) : (s.w1c g w h).out = s.out := by simp [State.w1c]
@[simp] theorem State.w1c_latch (s : State) (g : Reg) (w h : Word) : (s.w1c g w h).latch = s.latch := by simp [State.w1c]

@[simp] theorem State.enterPanic_pending (s : State)  : (s.enterPanic).pending = s.pending := by unfold State.enterPanic; split <;> simp
@[simp] theorem State.enterPanic_free (s : State)  : (s.enterPanic).free = s.free := by unfold State.enterPanic; split <;> simp
@[simp] theorem State.enterPanic_flash (s : State)  : (s.enterPanic).flash = s.flash := by unfold State.enterPanic; split <;> simp
@[simp] theorem State.enterPanic_log (s : State)  : (s.enterPanic).log = s.log := by unfold State.enterPanic; split <;> simp
@[simp] theorem State.enterPanic_health (s : State)  : (s.enterPanic).health = s.health := by unfold State.enterPanic; split <;> simp
@[simp] theorem State.enterPanic_sess (s : State)  : (s.enterPanic).sess = s.sess := by unfold State.enterPanic; split <;> simp
@[simp] theorem State.enterPanic_units (s : State)  : (s.enterPanic).units = s.units := by unfold State.enterPanic; split <;> simp
@[simp] theorem State.enterPanic_regions (s : State)  : (s.enterPanic).regions = s.regions := by unfold State.enterPanic; split <;> simp
@[simp] theorem State.enterPanic_bufs (s : State)  : (s.enterPanic).bufs = s.bufs := by unfold State.enterPanic; split <;> simp
@[simp] theorem State.enterPanic_mem (s : State)  : (s.enterPanic).mem = s.mem := by unfold State.enterPanic; split <;> simp
@[simp] theorem State.enterPanic_loads (s : State)  : (s.enterPanic).loads = s.loads := by unfold State.enterPanic; split <;> simp
@[simp] theorem State.enterPanic_out (s : State)  : (s.enterPanic).out = s.out := by unfold State.enterPanic; split <;> simp
@[simp] theorem State.enterPanic_latch (s : State)  : (s.enterPanic).latch = s.latch := by unfold State.enterPanic; split <;> simp

@[simp] theorem State.setEvent_pending (s : State) (n bit : Nat) : (s.setEvent n bit).pending = s.pending := by unfold State.setEvent; simp only []; split <;> simp
@[simp] theorem State.setEvent_free (s : State) (n bit : Nat) : (s.setEvent n bit).free = s.free := by unfold State.setEvent; simp only []; split <;> simp
@[simp] theorem State.setEvent_flash (s : State) (n bit : Nat) : (s.setEvent n bit).flash = s.flash := by unfold State.setEvent; simp only []; split <;> simp
@[simp] theorem State.setEvent_log (s : State) (n bit : Nat) : (s.setEvent n bit).log = s.log := by unfold State.setEvent; simp only []; split <;> simp
@[simp] theorem State.setEvent_health (s : State) (n bit : Nat) : (s.setEvent n bit).health = s.health := by unfold State.setEvent; simp only []; split <;> simp
@[simp] theorem State.setEvent_sess (s : State) (n bit : Nat) : (s.setEvent n bit).sess = s.sess := by unfold State.setEvent; simp only []; split <;> simp
@[simp] theorem State.setEvent_units (s : State) (n bit : Nat) : (s.setEvent n bit).units = s.units := by unfold State.setEvent; simp only []; split <;> simp
@[simp] theorem State.setEvent_regions (s : State) (n bit : Nat) : (s.setEvent n bit).regions = s.regions := by unfold State.setEvent; simp only []; split <;> simp
@[simp] theorem State.setEvent_bufs (s : State) (n bit : Nat) : (s.setEvent n bit).bufs = s.bufs := by unfold State.setEvent; simp only []; split <;> simp
@[simp] theorem State.setEvent_mem (s : State) (n bit : Nat) : (s.setEvent n bit).mem = s.mem := by unfold State.setEvent; simp only []; split <;> simp
@[simp] theorem State.setEvent_loads (s : State) (n bit : Nat) : (s.setEvent n bit).loads = s.loads := by unfold State.setEvent; simp only []; split <;> simp
@[simp] theorem State.setEvent_latch (s : State) (n bit : Nat) : (s.setEvent n bit).latch = s.latch := by unfold State.setEvent; simp only []; split <;> simp

end Sys2Proof.Machine
end

