-- ==== Sys2Proof/Laws/Tab.lean ====
section
/-! SUPPORT. What the sparse tables of the state give back after an update, and that every operation on a memory keeps
its canonical form. -/

namespace Sys2Proof.Machine

/-- Reading at the key just written gives what was written. -/
theorem look_put_same {α : Type} [DecidableEq α] (d : α) (t : Tab α) (i : Nat) (v : α) :
    look d (put d t i v) i = v ∨ ¬ tabWfFrom d 0 t = true := by
  by_cases h : tabWfFrom d 0 t = true
  · left
    suffices g : ∀ (t : Tab α) (lo : Nat), tabWfFrom d lo t = true → look d (put d t i v) i = v from g t 0 h
    have low : ∀ (t : Tab α) (lo : Nat), tabWfFrom d lo t = true → i < lo → look d t i = d := by
      intro t
      induction t with
      | nil => intros; rfl
      | cons c r ih =>
        obtain ⟨k, w⟩ := c
        intro lo h hi
        simp only [tabWfFrom, Bool.and_eq_true, decide_eq_true_eq] at h
        simp only [look]
        rw [if_neg (by omega)]
        exact ih _ h.2 (by omega)
    intro t
    induction t with
    | nil =>
      intro lo _
      simp only [put]
      split
      · rename_i hv; simp [look, hv]
      · simp [look]
    | cons c r ih =>
      obtain ⟨k, w⟩ := c
      intro lo h
      have h' := h
      simp only [tabWfFrom, Bool.and_eq_true, decide_eq_true_eq] at h
      simp only [put]
      split
      · rename_i hk
        split
        · rename_i hv
          rw [hv]
          simp only [look]
          rw [if_neg (by omega)]
          exact low r (k + 1) h.2 (by omega)
        · simp [look]
      · split
        · rename_i hk
          split
          · rename_i hv
            rw [hv]
            exact low r (k + 1) h.2 (by omega)
          · simp [look]
        · rename_i hk hne
          simp only [look]
          rw [if_neg hne]
          exact ih _ h.2
  · exact Or.inr h

/-- Reading at the key just written, in a table in canonical form. -/
theorem look_put_self {α : Type} [DecidableEq α] (d : α) (t : Tab α) (i : Nat) (v : α) (h : tabWf d t = true) :
    look d (put d t i v) i = v := (look_put_same d t i v).resolve_right (fun n => n h)

/-- Writing at one key leaves every other key as it reads. -/
theorem look_put_ne {α : Type} [DecidableEq α] (d : α) (t : Tab α) (i j : Nat) (v : α) (hij : j ≠ i) :
    look d (put d t i v) j = look d t j := by
  induction t with
  | nil =>
    simp only [put]
    split <;> simp [look, hij]
  | cons c r ih =>
    obtain ⟨k, w⟩ := c
    simp only [put]
    split
    · split <;> simp [look, hij]
    · split
      · rename_i h; subst h
        split <;> simp [look, hij]
      · simp only [look]
        split
        · rfl
        · exact ih

/-- A table from a lower bound is one from any smaller bound. -/
theorem tabWfFrom_mono {α : Type} [DecidableEq α] (d : α) {lo lo' : Nat} (hl : lo' ≤ lo) (t : Tab α)
    (h : tabWfFrom d lo t = true) : tabWfFrom d lo' t = true := by
  cases t with
  | nil => rfl
  | cons c r =>
    obtain ⟨k, v⟩ := c
    simp only [tabWfFrom, Bool.and_eq_true, decide_eq_true_eq] at h ⊢
    exact ⟨⟨by omega, h.1.2⟩, h.2⟩

/-- A write keeps the canonical form from a bound. -/
theorem tabWfFrom_put {α : Type} [DecidableEq α] (d : α) (i : Nat) (v : α) (t : Tab α) :
    ∀ lo, lo ≤ i → tabWfFrom d lo t = true → tabWfFrom d lo (put d t i v) = true := by
  induction t with
  | nil =>
    intro lo hi _
    simp only [put]
    split
    · rfl
    · rename_i hv; simp [tabWfFrom, hi, hv]
  | cons c r ih =>
    obtain ⟨k, w⟩ := c
    intro lo hi h
    have h' := h
    simp only [tabWfFrom, Bool.and_eq_true, decide_eq_true_eq] at h
    simp only [put]
    split
    · split
      · exact h'
      · rename_i hk hv
        simp only [tabWfFrom, Bool.and_eq_true, decide_eq_true_eq]
        exact ⟨⟨hi, hv⟩, ⟨by omega, h.1.2⟩, h.2⟩
    · split
      · rename_i hk
        split
        · exact tabWfFrom_mono d (by omega) r h.2
        · rename_i hv
          simp only [tabWfFrom, Bool.and_eq_true, decide_eq_true_eq]
          exact ⟨⟨hi, hv⟩, by rw [hk]; exact h.2⟩
      · simp only [tabWfFrom, Bool.and_eq_true, decide_eq_true_eq]
        exact ⟨h.1, ih _ (by omega) h.2⟩

/-- A write keeps the canonical form. -/
theorem tabWf_put {α : Type} [DecidableEq α] (d : α) (t : Tab α) (i : Nat) (v : α) (h : tabWf d t = true) :
    tabWf d (put d t i v) = true := tabWfFrom_put d i v t 0 (by omega) h

/-- A change at one key keeps the canonical form. -/
theorem tabWf_modify {α : Type} [DecidableEq α] (d : α) (t : Tab α) (i : Nat) (f : α → α) (h : tabWf d t = true) :
    tabWf d (modify d t i f) = true := tabWf_put d t i _ h

/-- Dropping entries keeps the canonical form. -/
theorem tabWf_filter {α : Type} [DecidableEq α] (d : α) (p : Nat × α → Bool) (t : Tab α) (h : tabWf d t = true) :
    tabWf d (t.filter p) = true := by
  have g : ∀ (t : Tab α) (lo : Nat), tabWfFrom d lo t = true → tabWfFrom d lo (t.filter p) = true := by
    intro t
    induction t with
    | nil => intros; rfl
    | cons c r ih =>
      obtain ⟨k, v⟩ := c
      intro lo h
      simp only [tabWfFrom, Bool.and_eq_true, decide_eq_true_eq] at h
      simp only [List.filter_cons]
      split
      · simp only [tabWfFrom, Bool.and_eq_true, decide_eq_true_eq]
        exact ⟨h.1, ih _ h.2⟩
      · exact ih _ (tabWfFrom_mono d (by omega) r h.2)
  exact g t 0 h

/-- A change of every entry keeps the canonical form. -/
theorem tabWf_mapTab {α : Type} [DecidableEq α] (d : α) (f : Nat → α → α) (t : Tab α) (h : tabWf d t = true) :
    tabWf d (mapTab d f t) = true := by
  have g : ∀ (t : Tab α) (lo : Nat), tabWfFrom d lo t = true → tabWfFrom d lo (mapTab d f t) = true := by
    intro t
    induction t with
    | nil => intros; rfl
    | cons c r ih =>
      obtain ⟨k, v⟩ := c
      intro lo h
      simp only [tabWfFrom, Bool.and_eq_true, decide_eq_true_eq] at h
      simp only [mapTab]
      split
      · exact ih _ (tabWfFrom_mono d (by omega) r h.2)
      · rename_i hv
        simp only [tabWfFrom, Bool.and_eq_true, decide_eq_true_eq]
        exact ⟨⟨h.1.1, hv⟩, ih _ h.2⟩
  exact g t 0 h

/-- One byte written keeps a memory's canonical form. -/
theorem memWf_wrByte (m : Mem) (a : Nat) (b : Byte) (h : memWf m = true) : memWf (wrByte m a b) = true :=
  tabWf_put 0 m a b h

/-- Bytes written keep a memory's canonical form. -/
theorem memWf_wrBytes (l : List Byte) : ∀ (m : Mem) (a : Nat), memWf m = true → memWf (wrBytes m a l) = true := by
  induction l with
  | nil => intro m a h; exact h
  | cons b r ih => intro m a h; exact ih _ _ (memWf_wrByte m a b h)

/-- A cleared range keeps a memory's canonical form. -/
theorem memWf_clearRange (m : Mem) (a n : Nat) (h : memWf m = true) : memWf (clearRange m a n) = true :=
  tabWf_filter 0 _ m h

/-- Moved bytes keep the canonical form of the memory they are written to. -/
theorem memWf_pourFrom (a b : Nat) (l : Mem) : ∀ m, memWf m = true → memWf (pourFrom a b l m) = true := by
  induction l with
  | nil => intro m h; exact h
  | cons c r ih =>
    obtain ⟨k, v⟩ := c
    intro m h
    exact ih _ (memWf_wrByte _ _ _ h)

/-- A copied range keeps the canonical form of the memory it is written to. -/
theorem memWf_copyRange (src : Mem) (a : Nat) (dst : Mem) (b n : Nat) (h : memWf dst = true) :
    memWf (copyRange src a dst b n) = true := memWf_pourFrom a b _ _ (memWf_clearRange dst b n h)

/-- A byte outside the bytes written reads as before. -/
theorem rdByte_wrBytes_out (l : List Byte) : ∀ (m : Mem) (a x : Nat), (x < a ∨ a + l.length ≤ x) →
    rdByte (wrBytes m a l) x = rdByte m x := by
  induction l with
  | nil => intros; rfl
  | cons b r ih =>
    intro m a x h
    simp only [List.length_cons] at h
    simp only [wrBytes]
    rw [ih _ _ _ (by omega)]
    exact look_put_ne 0 m a x b (by omega)

/-- Bytes written are read back. -/
theorem rdBytes_wrBytes (l : List Byte) : ∀ (m : Mem) (a : Nat), memWf m = true →
    rdBytes (wrBytes m a l) a l.length = l := by
  induction l with
  | nil => intros; rfl
  | cons b r ih =>
    intro m a h
    simp only [wrBytes, List.length_cons, rdBytes, List.cons.injEq]
    refine ⟨?_, ih _ _ (memWf_wrByte m a b h)⟩
    rw [rdByte_wrBytes_out r _ _ _ (by omega)]
    exact look_put_self 0 m a b h

end Sys2Proof.Machine
end

