-- ==== Sys2Proof/Machine/Pins.lean ====
section
/-! DEFINITION. What stands on pins that the part only drives, computed from the state (18: R448, R449). -/

namespace Sys2Proof.Machine

/-- `ALERT_N` is low (R448, R449): a boot error, clock hold, a thermal trip, a frozen controller. -/
def State.alertLow (s : State) : Bool :=
  s.dev.pwrGood && (s.dev.bootErr != 0 || s.clk.hold || s.pwr.inTrip || s.anyFrozen)

/-- `THERM_TRIP_N` is low (R395, R448). -/
def State.thermTripLow (s : State) : Bool := s.dev.pwrGood && s.pwr.inTrip

/-- The level of `PAIR_HB_OUT` (R449). -/
def State.hbOut (s : State) : Bool := s.dev.hbLevel

/-- `PAIR_HB_IN` is watched (R449). -/
def State.hbWatched (s : State) : Bool := s.dev.hbOn && (s.dev.stage == 1 || s.dev.stage == 2)

/-- The states of a pin group (R449). -/
inductive PinState where
  | hiZ
  | off
  | idle
  | slow
  | full
  | design
  | trained
  | driven
  | deselected
  | silent
  | serving
  deriving DecidableEq, Repr

/-- The user I/O pins of a fabric region (R244, R449): the design drives them in stage 2 while the region is not isolated. -/
def State.userPins (s : State) (r : Nat) : PinState :=
  if s.dev.pwrGood && s.dev.stage == 2 && !(s.fabric r).isolated then .design else .hiZ

/-- The transmitter of a fabric lane (R414, R449). -/
def State.fabricPins (s : State) (l : Nat) : PinState :=
  if !s.dev.pwrGood then .off else if s.dev.stage == 2 && !(s.lane l).txIdle then .design else .idle

/-- A Strait lane (R406, R449). -/
def State.straitPins (s : State) (l : Nat) : PinState :=
  if !s.dev.pwrGood then .off else if s.dev.stage == 2 && (s.strLane l).up then .trained else .idle

/-- The CXL lanes (R398, R449). -/
def State.cxlPins (s : State) : PinState :=
  if !s.dev.pwrGood then .off else if !s.cxl.up then .idle else if s.cxl.rate == 0 then .slow else .full

/-- The flash pins (R449): deselected while parked or in clock hold. -/
def State.flashPins (s : State) : PinState :=
  if !s.dev.pwrGood then .hiZ else if 3 ≤ s.dev.stage then .deselected else .driven

/-- The SMBus slave (R449). -/
def State.smbPins (s : State) : PinState := if s.dev.pwrGood then .serving else .silent

end Sys2Proof.Machine
end

