-- ==== Sys2Proof/Tests/Slice0.lean ====
section
/-! SUPPORT. Small tests of the model. First ill-formed commands, one for each check of WellFormed; then published check
values of the standards that the manual names; then the states and operands used below; then, for each statement of the
certificates that has hypotheses, a theorem `test_<statement>` whose conjuncts are the hypotheses of its clauses, met
together by concrete states and operands. -/

namespace Sys2Proof.Tests
open Sys2Proof Sys2Proof.Machine

set_option Elab.async false

/-- A mailbox claimed once and bound to session 0x105. -/
def at5 : Mailbox := { claims := 1, claimed := true, tag := 0x105, sess := 0x105, opened := true }

/-- That session: region 0, a ring of 16 entries in host memory. -/
def ses : Sess := { id := 0x105, mbs := [5], regions := 1, ring := { addr := 0x10000 } }

/-- The same, privileged. -/
def sesP : Sess := { ses with priv := true }

def devUp : Dev := { pwrGood := true, stage := 2, phase := .full }

def clkUp : Clk := { gateIsle := [(0, 0x070FFFFF), (1, 0x010FFFFF), (2, 0x000FFFFF), (3, 0x000FFFFF)], gateRegion := [(0, 0x1EF)] }

/-- A part in service: the port up, mailbox 5 with its session, mailbox 6 claimed, isles and region 0 clocked, the tick
source on. -/
def base : State := {
  dev := devUp
  cxl := { up := true, dec0 := { base := 0x10000000, committed := true } }
  mbx := [(5, at5), (6, { claims := 1, claimed := true, tag := 0x106 })]
  sess := [ses]
  clk := clkUp
  tick := { on := true, count := 7, active := true } }

/-- The part with a privileged session. -/
def baseP : State := { base with sess := [sesP] }

/-- 224 parameter bytes with fields by offset. -/
def pars (l : List (Nat × List Byte)) : List Byte := l.foldl (fun b f => overlay b (f.1 - 0x20) f.2) (zeroBytes 224)

/-- A go write on mailbox 5 for its session. -/
def go0 : Go := { mb := 5, go := 1, session := 0x105, params := zeroBytes 224 }
/-- A go write on mailbox 6, which has no session. -/
def go6 : Go := { mb := 6, go := 1, params := zeroBytes 224 }

/-- The session's ring with five records, two consumed. -/
def sesR : Sess := { ses with ring := { addr := 0x10000, prod := 5, cons := 2 } }
def baseR : State := { base with sess := [sesR] }
/-- Two claim reads waiting. -/
def claim77 : State := { base with pending := [.claimRead 7, .claimRead 7] }
def lapse9 : State := { base with pending := [.claimLapse 9] }
/-- Mailbox 8 claimed and never used. -/
def baseC : State := { base with mbx := [(5, at5), (8, { claims := 1, claimed := true, tag := 0x108 })] }
/-- The count before the one that would make mailbox 255's tag all-ones. -/
def claim255 : State := { base with mbx := [(255, { claims := 2 ^ 24 - 2 })] }
/-- The session with a lease of 10 ms. -/
def sesL : Sess := { ses with lease := 10 }
def baseL : State := { base with sess := [sesL] }
/-- A part that has left a pair. -/
def baseLeft : State := { base with pair := { left := true } }
/-- A go write with a flag bit that does not exist. -/
def goBad : Go := { go0 with flags := 4 }
/-- A busy close, its answer ready. -/
def busyAlloc : BusyCmd := { opcode := 0xB0, go := go0, wait := .unit, done := true }
def busyClose : BusyCmd := { opcode := 0x11, go := go0, wait := .close 0x105, done := true }
def busyFw : BusyCmd := { opcode := 0x71, go := go0, wait := .restart }
def waits (b : BusyCmd) : State := { base with mbx := [(5, { at5 with seq := 1, state := 1, busy := some b })] }

/-! The commands of 11. -/

/-- The session with an image under handle 0 and a step of it running. -/
def run0 : Run := { item := { image := 0, counter := 3, cookie := 9, replay := none }, tick := 2, begun := true, live := [0] }

/-- A schedule image of one cluster and one tick with nothing in it, one tensor of 64 bytes of kind 2 (02: R34 to R36;
06: R158), built field by field. -/
def imgHead : List Byte := overlay (overlay (overlay (overlay (overlay (overlay (zeroBytes 256)
  0 (leBytes 4 0x4953514C ++ leBytes 2 1 ++ leBytes 2 256 ++ leBytes 2 1 ++ leBytes 2 0x3216))
  0x10 (leBytes 8 640)) 0x20 (leBytes 4 8000 ++ [0, 1] ++ leBytes 2 8 ++ leBytes 4 1))
  0x40 (leBytes 8 0x100 ++ leBytes 8 32)) 0x80 (leBytes 8 0x120 ++ leBytes 8 352))
  0xA0 [52, 214, 92, 13, 6, 194, 102, 203, 144, 151, 17, 141, 115, 85, 219, 137, 121, 240, 146, 99, 211, 187, 32, 184,
    25, 52, 48, 48, 150, 192, 149, 32]
def imgBody : List Byte := zeroBytes 32 ++ (leBytes 4 64 ++ leBytes 4 1 ++ leBytes 4 96 ++ leBytes 4 32 ++ zeroBytes 48) ++
  (leBytes 8 64 ++ [2] ++ zeroBytes 23) ++ zeroBytes 256
def img : Image := { bytes := imgHead ++ imgBody, fold := 1 }
def sesI : Sess := { ses with images := [(0, img)] }
def sesRun : Sess := { sesI with running := some run0 }
def baseI : State := { base with sess := [sesI] }
def baseRun : State := { base with sess := [sesRun] }
def goLoad : Go := { go0 with payLen := 640, payload := imgHead ++ imgBody }
def goShort : Go := { go0 with payLen := 8, payload := [] }
/-- The part with HBM stack 3 frozen. -/
def frozen : State := { base with ctl := [(3, { frozen := true })] }

/-- `OPEN_SESSION` of region 2 with a ring of 16 entries at 0x20000. -/
def goOpen : Go := { go6 with params := pars [(0x30, [4]), (0x38, leBytes 8 0x20000), (0x40, [16])] }
/-- The same with a ring in device memory. -/
def goOpenDev : Go := { go6 with params := pars [(0x20, [4]), (0x40, [16])] }
/-- A privileged open. -/
def goOpenPriv : Go := { go6 with params := pars [(0x20, [2]), (0x40, [16])] }
/-- `ATTACH` to session 0x105 by its owner tag. -/
def goAttach : Go := { go6 with params := pars [(0x20, [1]), (0x44, leBytes 4 0x105), (0x48, leBytes 4 0x105)] }
def goLimits : Go := { go0 with params := pars [(0x20, [1]), (0x28, [2])] }
def goAlloc : Go := { go0 with params := pars [(0x20, leBytes 8 65537)] }
def goSubmit : Go := { go0 with payLen := 32, payload := zeroBytes 32, params := pars [(0x24, [1])] }
def goCancel : Go := { go0 with params := pars [(0x20, [4])] }
def goReplay : Go := { go0 with params := pars [(0x38, [1])] }

/-- A partner configured for this part, without sessions; the same named 9. -/
def fitAll : PartnerFit := { reachable := true, mode := 1, id := [], names := zeroBytes 16, period := 32, noSession := true }
def fit9 : PartnerFit := { fitAll with id := 9 :: zeroBytes 15 }
def goPair9 : Go := { go0 with params := pars [(0x20, [1]), (0x28, [9])] }
/-- A secondary in shadow service with a privileged session. -/
def shadow2 : State := { baseP with pair := { formed := true, mode := 1, role := 2 } }
/-- A primary that has lost its secondary. -/
def alone : State := { baseP with pair := { mode := 1, role := 1 } }
def goKind0 : Go := { go0 with params := pars [(0x20, [0]), (0x24, [8])] }

/-! Ticks (02). -/

/-- Every region but region 0 has reported done. -/
def lastOut : State := { base with tick := { base.tick with done := 0xFFFFFFFFFFFFFFFE } }
/-- The tick has ended and the next one is due. -/
def atEnd : State := { base with tick := { base.tick with
  active := false, due := true, closed := true, settled := true,
                                                          done := 0xFFFFFFFFFFFFFFFF } }
/-- The tick runs, the next not yet due, and everything is done. -/
def early : State := { atEnd with tick := { atEnd.tick with due := false } }
def copying (n : Nat) : State := { atEnd with tick := { atEnd.tick with copying := n } }
def changing : State := { atEnd with regions := [(1, { owner := 0x105, change := 1 })] }
def beating : State := { base with dev := { devUp with hbOn := true } }

/-- A GEMM pass descriptor of one BF16 row and one column, to the accumulators (03: R80). -/
def gemm (dest : Byte) : List Byte := overlay (zeroBytes 64) 0 [8, 3, 3, 3, 0, dest, 1, 0, 1, 1]
def work (dest : Byte) : PassWork := { desc := gemm dest, released := true }
/-- A tile at work with one task in context 0. -/
def job0 : TileJob := { sess := 0x105 }
def ctxTask : Ctx := { task := true, budget := 100 }
def tile0 : Tile := { job := some job0, ctx0 := ctxTask, passes := [work 0] }
def withTile (t : Tile) : State := { base with tiles := [(0, t)] }
/-- A tile whose pass wants its streaming rows from an empty queue. -/
def tileDry : Tile := { tile0 with passes := [work 8] }
def tileHeld : Tile := { tile0 with
  passes := [{ work 8 with started := true }], array := [{ held := true }],
                                    sq := [zeroBytes 64] }
def tileIn : Tile := { tile0 with passes := [{ work 0 with started := true }], array := [{}] }
def tileRow : Tile := { tile0 with passes := [{ work 3 with started := true }], array := [{}] }
/-- A tile with a task that has ended and another that is ready. -/
def tileTwo : Tile := { tile0 with ctx0 := { ctxTask with ended := true }, ctx2 := ctxTask }
/-- A task with event 2 pending and enabled. -/
def tileEv : Tile := { tile0 with ctx0 := { ctxTask with r := { emask := 4, es := 4 } } }

/-! Steps (11). -/
def q0 : QItem := { image := 0, counter := 3, cookie := 9, replay := none }
def sesQ : Sess := { sesI with queue := [q0] }
def startable : State := { atEnd with sess := [sesQ] }
def runEnd : Run := { run0 with finish := some 0, digests := [5], ovf := 2, startTick := 3, lastTick := 4 }
def sesEnd : Sess := { sesI with running := some runEnd }
def ended : State := { base with sess := [sesEnd] }
def rep0 : ReplayReq := { mb := 5, target := 0, unit := 0, tick := 0, offset := 0, length := 1, dest := 0, devDest := true }
def runRep : Run := { runEnd with item := { q0 with replay := some rep0 } }
def sesRep : Sess := { sesI with running := some runRep }
def replayed : State := { base with sess := [sesRep] }
def rec0 : Record := recordOf 0 0 0 3 9 0 0 1 3 3
def sesW : Sess := { ses with ring := { addr := 0x10000, waiting := [rec0] } }
def waitingRec : State := { base with sess := [sesW] }
def sesD : Sess := { ses with ring := { addr := 0x10000, dev := true, prod := 17, cons := 10 } }
def devRing : State := { base with sess := [sesD] }

/-! The sequencer (05). -/

/-- Registers with something in each. -/
def regs1 : CtxRegs := {
  d := [(0, (List.range 32).map (fun i => BitVec.ofNat 16 (1000 * i + 7))), (3, List.replicate 32 0xFFF0),
        (5, List.replicate 32 12)]
  accA := (List.range 32).map (fun i => BitVec.ofNat 40 (123456789 * i)), accB := List.replicate 32 0xFFFFFFF000
  w := (List.range 32).map (fun i => encode48 (decide (i % 2 = 1)) (3 * i) (i : Nat))
  a := [(0, 0x40), (1, 0x80), (2, 0x00100), (3, 7), (4, 0xFFFFF)], b := [(1, 0x80), (2, 0x40)], c := [(2, 5)]
  m := [(1, 0x40300040), (2, 0x80400001), (5, 0xC0400001), (6, 0x00000080)]
  vexp := 0xFFFB, bexp := 9, srTid := 7, srEidx := 0x123456789A, srStep := 32, evb := 0x100, emask := 1, es := 6, cstat := 1
  accPrevA := List.replicate 32 77, accPrevB := (List.range 32).map (fun (i : Nat) => BitVec.ofInt 40 (-(1234567 * (i : Int))))
  aPrev := [(0, 0x44), (1, 0)] }
def ctx1 : Ctx := { r := regs1, task := true, pc := 100, budget := 500 }
/-- A tile whose context 1 stands at bundle 100, with rows queued for it and memory in every part. -/
def tileS : Tile := { tile0 with
  ctx1 := ctx1, cur := 1, passes := [work 0, { work 3 with ctx := 1, released := false }, { work 0 with ctx := 1, released := false }]
  crq := [⟨2, wide0⟩, ⟨1, regs1.w⟩], loc := [(5, 1), (0x40, 9), (0x80001, 3), (0x90040, 0x34), (0x90041, 0x12), (0x90100, 7),
    (0xA0041, 5), (0xB0000, 1)] }
/-- The same with the context not enabled for the error event. -/
def tileQ : Tile := { tileS with ctx1 := { ctx1 with r := { regs1 with emask := 0 } }, crq := [] }

/-- A context in an event handler; in a delay slot; at the last and before the last bundle of a loop; in a repeat. -/
def with1 (x : Ctx) : Tile := { tileS with ctx1 := x }
def tileInh : Tile := with1 { ctx1 with r := { regs1 with es := 0x200, er := 0x55 } }
def tileSlot : Tile := with1 { ctx1 with branch := some ⟨some 8191, true⟩ }
def loopA : LoopEnt := ⟨98, 100, 3⟩
def tileLoop : Tile := with1 { ctx1 with loops := [loopA] }
def tileLoopEnd : Tile := with1 { ctx1 with loops := [{ loopA with left := 1 }] }
def tileLoopIn : Tile := with1 { ctx1 with loops := [{ loopA with last := 200 }] }
def tileRep (n : Nat) : Tile := with1 { ctx1 with rep := n }

/-! Streams (06). -/

/-- A stream descriptor (06: R150): kind, flags, source and destination places, tensors 0 and 1, row bytes, rows, both
strides 256. -/
def sdesc (kind flags src dst : Byte) (rowBytes rows : Nat) (idx : Nat) : List Byte :=
  overlay (overlay (overlay (overlay (overlay (zeroBytes 64) 0 [kind, flags, src, dst]) 0xA [1]) 0xC (leBytes 4 rowBytes))
    0x20 (leBytes 4 rows ++ leBytes 4 256 ++ leBytes 4 256)) 0x2C (leBytes 2 idx)
/-- An image with the descriptors given at 0x100 and tensors 0 and 1 at 0x10000 and 0x20000. -/
def imgS (ds : List (List Byte)) : Image := {
  bytes := overlay (zeroBytes 256) 0x80 (leBytes 8 0x100) ++ ds.flatten, place := [(0, 0x10000), (1, 0x20000)], fold := 1 }
def copy2 : List Byte := sdesc 0 0 0 0 64 2 0xFFFF
def gather2 : List Byte := sdesc 2 0 0 0 64 2 0
def fromPort : List Byte := sdesc 0 0 3 0 64 2 0xFFFF
def ringS (k n : Nat) : Ring := { off := 64 * k, count := n, tick := 7, seq := k, sess := 0x105, image := 0, imgCluster := 0 }
def sesS : Sess := { ses with images := [(0, imgS [copy2, fromPort, copy2])], running := some run0 }
def withStreams (l : List (Nat × Stream)) : State := { base with sess := [sesS], eng := [(0, { streams := l })] }
def strm (k : Nat) : Stream := { ring := some (ringS k 1), fetched := 1, reserve := 4, rate := 16 }
def bytes64 : List Byte := (List.range 64).map (fun i => BitVec.ofNat 8 (3 * i + 1))
/-- Two copies ready for a burst. -/
def copies : State := withStreams [(0, strm 0), (3, strm 2)]
/-- A burst of the copy's first row in staging. -/
def staged1 : State := withStreams [(0, { strm 0 with gBurst := 1, staged := [{ data := bytes64 }, { data := bytes64, start := 64, num := 1 }] })]
def stagedBad : State := withStreams [(0, { strm 0 with staged := [{ badIdx := true, idx := some 99 }] })]
def ringEnd : State := withStreams [(0, { strm 0 with dDesc := 1, gDesc := 1, shadow := some (ringS 2 1) })]
/-- Two streams that wait on port 0 of a configured region. -/
def stallTwo : State := { withStreams [(1, { strm 1 with
  ring := some { ringS 1 1 with seq := 4 } }), (2, strm 1)] with
  fab := [(0, { isolated := false })] }

/-! Memory (07). -/

def mem0 : State := { base with
  cxl := { base.cxl with cxlMode := true }
  ctl := (List.range 40).map (fun i => (i, { populated := true, trained := true }))
  mem := [(0x1000, 1), (0x1001, 2)] }
def memFrozen : State := { mem0 with ctl := [(2, { populated := true, frozen := true })] }
def memSr : State := { mem0 with mpk := { mem0.mpk with hbm := { inSr := true } } }
def memLeaving : State := { mem0 with
  mpk := { mem0.mpk with
  hbm := { inSr := true, leaving := true }, held := [{ kind := .write, addr := 0x1000, len := 2, data := [7, 8] }] } }
def memShadow (role : Nat) : State := { mem0 with pair := { formed := true, mode := 1, role := role } }
def parked : State := { mem0 with dev := { devUp with stage := 3 } }
def draining : State := { mem0 with mpk := { mem0.mpk with ingress := [(0x1000, [5, 6]), (0x2000, [1])] } }
def asleep : State := { draining with mpk := { draining.mpk with hbm := { inSr := true } } }
def wearing : State := { mem0 with mpk := { mem0.mpk with retireThresh := 1 } }
def retiring (page n : Nat) : State := { mem0 with
  mpk := { mem0.mpk with
  retireThresh := 1, retiring := [{ stack := 1, pc := 3, page := page, seed := 2, mb := none }], retired := n } }
def memRun : State := { mem0 with sess := [{ sesS with running := some run0 }], eng := [(0, { streams := [(0, strm 0)] })] }

/-! Failing units (13). -/

def shadowP : State := { baseP with pair := { formed := true, mode := 2, role := 1 } }
def unitBase : State := { base with
  sess := [sesS], tiles := [(0, tile0), (2, tile0)], eng := [(0, { streams := [(0, strm 0)] })],
  regions := [(0, { owner := 0x105 })] }
def noMule : State := { unitBase with units := { retiredSlots := [8] } }

/-! Clocks and power (14). -/

def clkUp1 : State := { base with
  tiles := [(0, { tileS with array := [{ }] })], regions := [(1, { step := 2, op := 1, target := 2 })] }
def inHold : State := { base with
  clk := { clkUp with hold := true }, dev := { devUp with stage := 4, held := 2, qualified := true },
  mpk := { base.mpk with hbm := { inSr := true }, lp := { inSr := true } } }
def inHoldPair : State := { inHold with pair := { formed := true, mode := 1, role := 1 } }
def qualifying : State := { base with dev := { devUp with phase := .qualify, stage := 0 } }
def pllUp : State := { base with
  fab := [(2, {
    isolated := false, pllLock := 3, control := [0, 3, 3, 0],
    trees := [(0, { sel := 1, runtime := true }), (1, { sel := 5 })] })], clk := { clkUp with gateRegion := [(2, 0x1FF)] } }
def pllDown : State := { base with dev := { devUp with qualified := true }, fab := [(2, { control := [0, 3, 3, 0] })] }
def treeBusy : State := { base with fab := [(2, { trees := [(1, { sel := 5, switching := some (15, 0), queued := some (2, 1) })] })] }
def muxBusy1 : State := { base with
  clk := { clkUp with muxNext := [(muxKey 1 0, 1), (muxKey 3 0, 6)], mux := [(muxKey 3 0, 1)] },
  tiles := [(0, { tile0 with array := [{}] })] }
def tripped : State := { base with pwr := { inTrip := true, dieHold := 5 }, regions := [(1, { op := 2, target := 2 })] }
def stepping1 : State := { base with
 regions := [(1, { step := 1, op := 2, target := 1 }), (2, { step := 1, op := 0, target := 1 }), (3, { step := 2, op := 2, target := 1 }),
  (4, { step := 2, op := 1, target := 2 })] }
def reading (energy elapsed : Nat) (dies : List (Nat × Nat)) : PowerReading := { energy := energy, elapsed := elapsed, dies := dies }

/-! Fabric loads (10) and running designs (09). -/

def loadKey : List Byte := (List.range 32).map (fun i => BitVec.ofNat 8 (i + 1))
def loadHead : List Byte := (List.range 256).map (fun i => BitVec.ofNat 8 (5 * i))
def load1 : Load := { slot := 1, covered := 0xC, plainLen := 44, key := loadKey, begun := true, imageId := 0x1234 }
/-- An end record, and a segment that holds it under the key above. -/
def endRec (records : Nat) : List Byte :=
  let b := [0xF, 0xFF, 0, 0, 16, 0, 0, 0] ++ leBytes 4 records ++ leBytes 4 1 ++ leBytes 8 0x1234
  b ++ leBytes 4 (crc32c b)
def startRec (bad : Nat) : List Byte :=
  let b := [4, 2, 0, 0, 16, 0, 0, 0] ++ [0xE4, 0, 0, 0] ++ zeroBytes 12
  b ++ leBytes 4 (crc32c b + bad)
def segText : List Byte := zeroBytes 16 ++ endRec 1
/-- `segText` sealed under `loadKey` as segment 0 of a load with the header `loadHead` (10: R258). -/
def sealedSeg : List Byte :=
  [198, 121, 219, 25, 189, 85, 21, 229, 31, 42, 228, 12, 119, 48, 170, 250, 196, 136, 137, 6, 47, 180, 140, 35, 108, 106,
   70, 181, 134, 199, 247, 87, 71, 155, 25, 110, 34, 38, 107, 13, 195, 115, 86, 134, 132, 101, 119, 210, 206, 26, 233, 12,
   224, 80, 150, 195, 77, 69, 49, 10]
def loadOk : Load := { load1 with stream := loadHead ++ sealedSeg }
def loadBad : Load := { load1 with stream := loadHead ++ zeroBytes 60 }
def loadShort : Load := { load1 with stream := loadHead ++ zeroBytes 10 }
def withLoad (l : Load) : State := { base with loads := [l], fab := [(2, { loading := true }), (3, { loading := true })] }
def part2 : RegionLoad := { region := 2, ctl := true }
/-- A load whose next record is the start-up record of region 2. -/
def loadStart (bad : Nat) (again : Bool) : Load := { load1 with
  stream := loadHead, plainLen := 56, seg := 1, plain := startRec bad ++ endRec 2, parts := [part2], resent := again }
def loadEnd : Load := { load1 with
  stream := loadHead, plainLen := 56, seg := 1, used := 28, records := 1, plain := endRec 2, parts := [{ part2 with trailer := [0xE4, 0, 0, 0] ++ zeroBytes 12 }] }
def loadNoRec : Load := { load1 with stream := loadHead, plainLen := 56, seg := 1, plain := [9, 2, 0, 0, 0, 0, 0, 0] }
def colRec : List Byte :=
  let b := [2, 2, 7, 0, 0, 0x40, 0, 0] ++ List.replicate 16384 5
  b ++ leBytes 4 (crc32c b)
def ramRec : List Byte :=
  let b := [3, 2, 7, 0, 0x10, 0x12, 0, 0] ++ List.replicate 4624 5
  b ++ leBytes 4 (crc32c b)
def loadCol : Load := { load1 with stream := loadHead, plainLen := 40000, seg := 1, plain := colRec, parts := [part2] }
def loadRam : Load := { load1 with stream := loadHead, plainLen := 40000, seg := 1, plain := ramRec, parts := [part2] }
/-- A region in its start-up order; the action of its step `k` is `a` when the order is the one given. -/
def starting (order k : Nat) : State := { base with
  fab := [(2, {
    startup := { order := order, running := true, steps := k, delays := [0, 0, 0, 0] },
    loading := true, ports := [(0, { rxDepth := 9 })] })] }
def clearing2 : State := { base with fab := [(2, { clearing := true, columns := [(1, [3])], imageId := 4 })] }
def design : State := { base with
  clk := { clkUp with gateRegion := [(2, 0x1FF)] },
  fab := [(2, {
    isolated := false, trees := [(0, { sel := 8, runtime := true })], delays := [(1, { tap := 5, target := 9 })],
    ports := [(0, { rxDepth := 9, rxCred := 8, txCred := 1 }), (1, { rxDepth := 9, rxCred := 9 })],
    cps := [(1, some (true, 0)), (2, some (true, 0xFFC))] })] }

/-! Lanes and links (15). -/

def lanesOn : State := { base with
  clk := { clkUp with gateRegion := [(2, 0x1FF)] }
  fab := [(2, { isolated := false })]
  ftx := [(1, { runtime := true, rxLock := true, slipPos := 127, pre := 3, post := 4 })] }
def lanesStopped : State := { lanesOn with pwr := { inTrip := true } }
def up16 : Tab StrLane := (List.range 16).map (fun i => (i, { up := true, idle := false }))
def strait16 : State := { base with strait := {
  lanes := up16 ++ [(20, { training := true, step := 3, idle := false }),
    (21, { training := true, step := 4, idle := false }), (22, { training := true, step := 4, idle := false, back := true })],
  wasUp := true, rxSeq := 5 } }
def trainable : State := { base with cxl := {}, dev := { devUp with qualified := true } }
def linkUp : State := { base with cxl := { base.cxl with l1 := true, ideKeyed := 2 }, mpk := { base.mpk with lpN := 24, lpCap := 1 } }

/-! Pairs (12). -/

def hearing : State := { baseP with strait := strait16.strait }
def pairAs (role : Nat) : State := { hearing with pair := { formed := true, mode := 1, role := role } }
def pairDone : State := { pairAs 1 with tick := { base.tick with active := false, due := true, closed := true, settled := false, done := 0xFFFFFFFFFFFFFFFF } }
def unformed : State := { hearing with pair := { mode := 1 }, sess := [] }
def lostAs2 : State := { pairAs 1 with pair := { mode := 1, role := 1, lostRole := 2 } }
def busyOrder : BusyCmd := { opcode := 0xB0, go := go0, wait := .pairOrder }
def ord1 : OrderRec := { mb := 5, go := 1, digest := [], verdict := 0 }
def orderMine : State := { pairAs 1 with
  pair := { formed := true, mode := 1, role := 1, mine := [ord1] }
  mbx := [(5, { at5 with seq := 1, state := 1, busy := some busyOrder })] }
def orderTheirs : State := { pairAs 1 with pair := { formed := true, mode := 1, role := 1, theirs := [ord1] } }
def window (role : Nat) (e m : Bool) : State := { pairAs role with pair := { formed := true, mode := 1, role := role, lastWindow := some (e, m) } }
def joining (role phase : Nat) : State := { hearing with pair := { mode := 1, role := role, phase := phase, marked := [2], toSend := [0, 1] } }
def joinBig : State := { baseP with pair := { mode := 1, role := 1, phase := 2, marked := [2], toSend := [0, 1] } }
def ckpt : State := { hearing with
  pair := { formed := true, mode := 2, role := 1, marked := [0, 5] }, sess := [{ ses with allocs := [{ addr := 0, size := 65536 }] }] }

/-! Identity and keys (16). -/

def keyByte (k n : Nat) : List Byte := (List.range n).map (fun i => BitVec.ofNat 8 (k * i + 1))
def identified : State := { base with
  dev := { devUp with stage := 1 }
  clk := { clkUp with gateIsle := [(0, 0x07FFFFFF)] }
  sec := { idKey := some 7, kSeal := keyByte 3 32, certOk := true, spdm := 3 }
  flash := { chain := keyByte 5 40, seals := [(2, { gen := 4 })] } }
def noIdentity : State := { identified with sec := { spdm := 3 } }
def withSpdm (l : List SpdmSess) : State := { identified with sec := { identified.sec with spdmSess := l } }
/-- The base point of P-256 as a public key (16: R422). -/
def pubG : List Byte := beBytes 32 p256G.1 ++ beBytes 32 p256G.2
def enrolling (k : List Byte) : State := { identified with sec := { identified.sec with rbKey := k } }
def enrolled : State := { identified with flash := { identified.flash with enrolment := some pubG } }
def booting : State := { enrolled with dev := { devUp with phase := .boot, stage := 0 } }
def advancing : State := { enrolled with sec := { identified.sec with rbOn := true, rbRetry := true } }
def words (b : List Byte) : Tab Word := (List.range 32).foldl (fun t i => put 0 t i (BitVec.ofNat 32 (fld b (4 * i) 4))) []
def sealBusy (b : List Byte) : State := { identified with sec := { identified.sec with busy := true, sealBuf := words b } }
/-- Envelopes (16: R426): an erasure of slot 2's next generation, a removal of the enrolment, a key write. -/
def envErase : List Byte := [2, 2, 0, 0] ++ leBytes 4 5 ++ zeroBytes 120
def envRemove : List Byte := [3, 0, 0, 0] ++ zeroBytes 124
def envBadKey : List Byte := [1, 2, 0, 0] ++ leBytes 4 5 ++ zeroBytes 120
def envKey : List Byte := [1, 2, 0, 0] ++ leBytes 4 5 ++ zeroBytes 8 ++ pubG ++
  [70, 174, 254, 64, 236, 138, 47, 139, 191, 105, 158, 147, 198, 82, 158, 20, 192, 200, 71, 56, 70, 176, 141, 239, 143,
   83, 213, 186, 45, 148, 252, 155, 181, 83, 95, 165, 196, 92, 112, 24, 83, 193, 127, 16, 50, 198, 70, 190]

/-! Start-up (13). -/

def off0 : State := { State.reset with flash := { setA := [1], enrolment := some pubG } }
def fwHead (len : Nat) : List Byte := overlay (overlay (zeroBytes 512) 0
  (leBytes 4 0x5746514C ++ leBytes 2 1 ++ leBytes 2 1 ++ leBytes 2 0x3216 ++ leBytes 2 3 ++ leBytes 4 9)) 0x20 (leBytes 8 len ++ leBytes 4 100)
def fwGood : FwImage := { header := fwHead 1000, authOk := true }
def bootRom (a b : Option FwImage) : State := { off0 with
  dev := { pwrGood := true, phase := .boot, qualified := true }, flash := { fwA := a, fwB := b } }
def atStage1 : State := { bootRom (some fwGood) none with dev := { pwrGood := true, phase := .stage1, stage := 1, qualified := true } }
def atStage2 : State := { base with dev := { devUp with stage := 1, phase := .open1 }, mem := [(5, 1), (0x20000000005, 2)] }
def atStage2Flash : State := { atStage2 with dev := { atStage2.dev with atStart := overlay (zeroBytes 8192) 0x80 (leBytes 4 0x10000 ++ leBytes 4 512) } }
def idle2 : State := { base with sess := [], fab := [(2, { isolated := false, gsr := false })], strait := { lanes := up16 } }
def parked1 : State := { idle2 with dev := { devUp with stage := 3 }, fab := [(2, { configured := true })] }

/-- What an outcome that may fail holds, by evaluation. -/
theorem ok_of {α ε : Type} [DecidableEq α] (e : Except ε α) (a : α)
    (h : (match e with | .ok b => decide (b = a) | .error _ => false) = true) : e = .ok a := by
  cases e with
  | ok b => exact congrArg _ (of_decide_eq_true h)
  | error b => cases h

/-! Operands of the witnesses below. -/

def goRegR : Go := { go0 with params := pars [(0x20, leBytes 8 0x1F0000000100), (0x28, [4])] }
def goRegW : Go := { go0 with params := pars [(0x20, leBytes 8 0x1F0000000100), (0x28, [2]), (0x30, leBytes 4 0x20100008)] }
def tileArr : Tile := { tile0 with array := [{}] }
/-- A shadow primary's boundary that retires a cluster, which the secondary has not acknowledged. -/
def deciding : State := { atEnd with pair := { formed := true, mode := 1, role := 1 }, units := { pend := [.cluster 5] } }
def atEndSlot : State := { atEnd with units := { pend := [.slot 0 0] } }
def arr0 : ArrJob := {}
def work0s : PassWork := { work 0 with started := true }
def work3s : PassWork := { work 3 with started := true }
def loopA1 : LoopEnt := { loopA with left := 1 }
def loopA200 : LoopEnt := { loopA with last := 200 }
def burst0 : Burst := { data := bytes64 }
def burst1 : Burst := { data := bytes64, start := 64, num := 1 }
def burstBad : Burst := { badIdx := true, idx := some 99 }
def homeS : Home := ⟨imgS [copy2, fromPort, copy2], [], 0, 0⟩
def ringLate : Ring := { ringS 1 1 with seq := 4 }
def retire5 : RetireJob := { stack := 1, pc := 3, page := 5, seed := 2, mb := none }
def pairMsg3 : PairMsg := { done := 3, digest := 9, seqHeld := 4, live := [(0, 3)], reports := [⟨6, 1, [], 0⟩] }
def pairMsg7 : PairMsg := { done := 7, digest := pairDone.tickDigest }
def sesAlloc : Sess := { ses with allocs := [{ addr := 0, size := 65536 }] }
def fails1 : Stage1Env := { dieFail := [3], regionFail := [9], slotFail := [(0, 3), (0, 8), (100, 2), (12, 1), (36, 4)] }
def lane3Fails : Stage2Env := { laneFail := [3] }
def runFirst : SelfTest := {}
def failShort : Fail := { code := 0xB }
def failRsv : Fail := { code := 2, detail := detailOf 1 2 }
def fwdWrite : Forwarded := ⟨1, 3, .write 64 [1, 2]⟩
def eqDone : EqRequest := { done := true }
def branch8191 : DelayedBranch := ⟨some 8191, true⟩

/-- The other stream that stalls was armed first. -/
theorem stallTwo_others : ∀ (m : Nat) (h : Ring), m ∈ stallTwo.stalled 0 [1, 2] → m ≠ 1 →
    (stallTwo.stream 0 m).ring = some h → h.tick < ringLate.tick ∨ h.tick = ringLate.tick ∧ h.seq < ringLate.seq := by
  have a : stallTwo.stalled 0 [1, 2] = [1, 2] := by decide +kernel
  have b : (stallTwo.stream 0 2).ring = some (ringS 1 1) := by decide +kernel
  intro m h hm hne hr
  rw [a] at hm
  cases hm with
  | head => exact absurd rfl hne
  | tail _ hm => cases hm with
    | head => rw [b] at hr; cases hr; decide
    | tail _ hm => cases hm

/-! Well-formed commands: one ill-formed term for each check. -/

theorem test_wf_mailbox : (Instr.health { go0 with mb := 256 }).wf = false ∧ (Instr.health { go0 with mb := 255 }).wf = true := by
  decide +kernel
theorem test_wf_parameters : (Instr.health { go0 with params := zeroBytes 223 }).wf = false := by decide +kernel
theorem test_wf_mailbox_events : (Instr.claimRead 256).wf = false ∧ (Instr.claimRead 255).wf = true := by decide
theorem test_wf_region : (Instr.stepReady 64).wf = false ∧ (Instr.stepReady 63).wf = true := by decide
theorem test_wf_slot : (Instr.passStart 2304).wf = false ∧ (Instr.passStart 2303).wf = true := by decide
theorem test_wf_bundle : (Instr.nop { slot := 2304, ctl := 0, vec := 0, x := 0, y := 0 } 0).wf = false := by decide
theorem test_wf_die : (Instr.dieLinkFailure 32).wf = false ∧ (Instr.dieLinkFailure 31).wf = true := by decide
theorem test_wf_cluster : (Instr.clusterBufferUncorrectable 256).wf = false := by decide
theorem test_wf_controller : (Instr.refresh 40).wf = false ∧ (Instr.refresh 39).wf = true := by decide
theorem test_wf_core : (Instr.watchdogExpiry 8).wf = false ∧ (Instr.isleMeshOrBridgeFault 4).wf = false := by decide
theorem test_wf_stream : (Instr.ringComplete 0 32).wf = false ∧ (Instr.ringComplete 63 31).wf = true := by decide
theorem test_wf_channel : (Instr.retirePageCopy 16 0).wf = false ∧ (Instr.retirePageCopy 0 32).wf = false := by decide
theorem test_wf_tree : (Instr.treeLoad 0 8 0 0).wf = false ∧ (Instr.dlyLoad 0 3 0).wf = false := by decide
theorem test_wf_port : (Instr.rxCred 0 8).wf = false ∧ (Instr.txValid 0 0 (zeroBytes 63)).wf = false := by decide
theorem test_wf_control_port : (Instr.cpAck 0 4).wf = false ∧ (Instr.pllLock 0 2).wf = false := by decide
theorem test_wf_lane : (Instr.rxSlip 32).wf = false ∧ (Instr.rxSlip 31).wf = true := by decide
theorem test_wf_frame : (Instr.straitFrame 0 0 (zeroBytes 247) true).wf = false := by decide +kernel
theorem test_wf_link : (Instr.linkTraining 7 16).wf = false ∧ (Instr.linkTraining 4 2).wf = false := by decide
theorem test_wf_decoder : (Instr.hdmDecoderCommit 2 0 0 1).wf = false ∧ (Instr.ideFailure 3).wf = false := by decide
theorem test_wf_certificate : (Instr.getCertificate 8 0 0).wf = false ∧ (Instr.ideKmRequest 1 3).wf = false := by decide
theorem test_wf_settings : (Instr.settingsStage 0 (zeroBytes 31) true).wf = false := by decide +kernel
theorem test_wf_gate : (Instr.clockGateWrite true 4 0).wf = false ∧ (Instr.clockGateWrite false 63 0).wf = true := by decide

/-! Published check values of the standards that the manual names (log entry 8). -/

/-- CRC-32C of the nine digits: the catalogue's check value. -/
theorem test_crc32c : crc32c (ascii "123456789") = 0xE3069283 := by decide +kernel
/-- CRC-64/ECMA-182 of the nine digits: the catalogue's check value. -/
theorem test_crc64 : crc64 (ascii "123456789") = 0x6C40DF5F0B497347 := by decide +kernel
/-- SHA-256 of "abc": FIPS 180-4's example. -/
theorem test_sha256 : ofBe (sha256 (ascii "abc")) = 0xBA7816BF8F01CFEA414140DE5DAE2223B00361A396177A9CB410FF61F20015AD := by
  decide +kernel
/-- AES-256-GCM of nothing under a zero key and nonce: test case 13 of the GCM specification. -/
theorem test_gcm : ofBe (gcmSeal (zeroBytes 32) (zeroBytes 12) [] []).2 = 0x530F8AFBC74536B9A963B4F1C4CB738B := by
  decide +kernel
/-- Twice the base point of P-256: the published point. -/
theorem test_p256 : (toAffine (pointMul 2 p256G)).map (fun q => q.1) =
    some 0x7CF27B188D034F7E8A52380304B51AC3C08969E277F21B35A60B48FC47669978 := by decide +kernel

/-! Single commands against the manual's own numbers. -/

/-- 02: R36's default period is 32 units, and `TICK_CTRL`'s reset value is 0x20100020. -/
theorem test_tickCtrl_reset : State.reset.regValue .tickCtrl = 0x20100020 := by decide +kernel
/-- 03: R93: 1 + 1 = 2 in WA48 (biased exponents 0x3FF and 0x400). -/
theorem test_wa48_add : waAdd 0x3FF000000000 0x3FF000000000 = 0x400000000000 := by decide +kernel
/-- 05: R138: the bundle after a jump runs, and then the jump is taken. -/
theorem test_jmp_slot : (runBundle (runBundle tile0 0 (0x01 * 2 ^ 59 + 77 * 2 ^ 44)) 0 0).ctx0.pc = 77 := by decide +kernel
/-- 15: R407: preset P3 is pre2 2, pre1 8, post1 8. -/
theorem test_preset3 : presetOf 3 = some (2, 8, 8) := by decide

/-! The hypotheses of the statements. -/

theorem test_StepRunsTheFrontCommand :
    lapse9.pending = [Instr.claimLapse 9] :=
  by decide +kernel

theorem test_EmptyQueueIdles :
    base.pending = [] :=
  by decide +kernel

theorem test_StepTakesOnlyTheFront :
    lapse9.pending = [Instr.claimLapse 9] ∧ step lapse9 = Host.Outcome.next base :=
  ⟨by decide +kernel, rfl⟩

theorem test_TablesStayCanonical :
    lapse9.canon ∧ step lapse9 = Host.Outcome.next base :=
  ⟨by unfold State.canon; decide +kernel, rfl⟩

theorem test_HardwareSetsFlags :
    base.canon :=
  by and_intros <;> decide +kernel

theorem test_SoftwareClearsFlags :
    base.canon :=
  by and_intros <;> decide +kernel

theorem test_LowWordReads :
    (regOf 34084860461320 = some Reg.tickLo ∧ isLowWord Reg.tickLo = true ∧ base.dev.pwrGood = true ∧ base.blockOn
     Reg.tickLo = true) ∧
    (base.reachable = true ∧ 5 < 256 ∧ 0 < 16 ∧ 512 + 16 ≤ 4096 ∧ 512 ≤ 512 ∧ 512 + 16 ≤ 3840) ∧
    (base.reachable = true ∧ 5 < 256 ∧ 0 < 3 ∧ 508 + 3 ≤ 4096 ∧ (¬(512 ≤ 508 ∧ 508 + 3 ≤ 3840)) ∧ (¬((3 = 4 ∨ 3 = 8) ∧
     508 % 3 = 0))) ∧
    (base.reachable = true ∧ 5 < 256 ∧ 0 < 4 ∧ 3840 + 4 ≤ 4096 ∧ 3840 = 3840 ∧ 4 = 4) := by
  and_intros <;> decide +kernel

theorem test_RegisterWrites :
    (base.dev.pwrGood = true ∧ BitVec.getLsbD (base.gateIsle 0) 26 = true) ∧
    (base.dev.pwrGood = true) ∧
    (base.dev.pwrGood = true ∧ 63 < 64) ∧
    (base.dev.pwrGood = true ∧ 3 < 4) ∧
    (regOf 34084860461316 = some Reg.tickStatus ∧ base.dev.pwrGood = true ∧ base.blockOn Reg.tickStatus = true ∧
     Reg.tickStatus.flagMask ≠ 0) := by
  and_intros <;> decide +kernel

theorem test_Claims :
    (base.reachable = true ∧ base.serving = true ∧ 1 ≤ 7 ∧ 7 < 256 ∧ (base.mb 7).claimed = false) ∧
    (claim77.canon ∧ claim77.reachable = true ∧ claim77.serving = true ∧ 1 ≤ 7 ∧ 7 < 256 ∧ (claim77.mb 7).claimed =
     false ∧ claim77.pending = [Instr.claimRead 7, Instr.claimRead 7]) ∧
    (base.reachable = true ∧ (base.serving = false ∨ 5 = 0 ∨ (base.mb 5).claimed = true)) ∧
    (base.reachable = true ∧ base.serving = true ∧ (base.mb 6).claimed = true ∧ (base.mb 6).sess = 0 ∧ (base.mb
     6).busy = none) ∧
    (((base.mb 5).sess ≠ 0 ∨ (base.mb 5).busy ≠ none)) ∧
    ((baseC.mb 8).claimed = true ∧ (baseC.mb 8).sess = 0 ∧ (baseC.mb 8).busy = none) := by
  and_intros <;> decide +kernel

theorem test_ConsumerIndex :
    baseR.reachable = true ∧ baseR.serving = true ∧ baseR.session (baseR.mb 5).sess = some sesR :=
  by decide +kernel

theorem test_MailboxEvents :
    (base.reachable = true ∧ 5 < 256) ∧
    (base.dev.pwrGood = true ∧ base.dev.uvHold = false) ∧
    (baseL.session 261 = some sesL ∧ sesL.lease ≠ 0 ∧ sesL.closing = false) := by
  and_intros <;> decide +kernel

theorem test_GoWrites :
    (base.reachable = true ∧ 5 < 256 ∧ (5 = 0 ∨ base.serving = false ∨ (base.mb 5).claimed = false ∨ (base.mb 5).busy
     ≠ none ∨ (7 : BitVec 32).toNat ≠ if (base.mb 5).seq + 1 = 2 ^ 32 then 1 else (base.mb 5).seq + 1)) ∧
    (base.taken go0 ∧ base.mbHeld go0.mb = false ∧ opcodes.contains ((65535 : BitVec 16).toNat) = false) := by
  and_intros <;> decide +kernel

theorem test_FailedChecksChangeNothing :
    (base.taken goBad ∧ base.mbHeld goBad.mb = false ∧ (base.accept cmdHealth.opcode goBad).preCheck cmdHealth goBad =
     some failRsv) ∧
    (go6.wf = true ∧ baseLeft.accepts go6.mb (BitVec.toNat go6.go) = true ∧ baseLeft.pair.left = true ∧ (baseLeft.mb
     go6.mb).sess = 0 ∧ (cmdHealth.opcode ≠ 16 ∨ bitAt (par go6 32 4) 1 = false)) := by
  and_intros <;> decide +kernel

theorem test_CommandCompletion :
    (((waits busyAlloc).mb 5).busy = some busyAlloc ∧ (waits busyAlloc).mbHeld 5 = false ∧ busyAlloc.done = true ∧ (∀
     (id : Nat), busyAlloc.wait ≠ WaitFor.close id) ∧ busyAlloc.wait ≠ WaitFor.restart) ∧
    (((waits busyAlloc).mb 5).busy = some busyAlloc ∧ (waits busyAlloc).mbHeld 5 = false ∧ busyAlloc.done = true ∧ (∀
     (id : Nat), busyAlloc.wait ≠ WaitFor.close id) ∧ busyAlloc.wait ≠ WaitFor.restart ∧ busyAlloc.go.mb = 5 ∧
     busyAlloc.acc.out = []) ∧
    (((waits busyClose).mb 5).busy = some busyClose ∧ (waits busyClose).mbHeld 5 = false ∧ busyClose.done = true ∧
     busyClose.wait = WaitFor.close 261) ∧
    (((waits busyFw).mb 5).busy = some busyFw ∧ (waits busyFw).mbHeld 5 = false ∧ busyFw.wait = WaitFor.restart) := by
  and_intros <;> first | decide +kernel | (intro _ h; cases h)

theorem test_ReportingCommands :
    (base.passes cmdInfo go0) ∧
    (base.passes cmdHealth go0) ∧
    (base.passes cmdQuery go0 ∧ (base.accept 66 go0).session ((base.accept 66 go0).mb go0.mb).sess = some ses ∧
     ses.running = none ∧ ses.image 0 = none) ∧
    (baseRun.passes cmdQuery go0 ∧ (baseRun.accept 66 go0).session ((baseRun.accept 66 go0).mb go0.mb).sess = some
     sesRun ∧ sesRun.running = some run0 ∧ run0.item.replay = none) ∧
    (base.passes cmdFabStatus go0) ∧
    (base.passes cmdTelemetry go0 ∧ (base.accept 160 go0).session ((base.accept 160 go0).mb go0.mb).sess = some ses) ∧
    (base.passes cmdLogRead go0 ∧ (base.accept 161 go0).session ((base.accept 161 go0).mb go0.mb).sess = some ses) ∧
    (base.passes cmdPairStatus go0) := by
  and_intros <;> decide +kernel

theorem test_ReadingCommands :
    (baseP.passes cmdSettingsRead go0) ∧
    (base.passes cmdCertificates go0) ∧
    (base.passes cmdAttest
     { mb := go0.mb, go := go0.go, flags := go0.flags, session := go0.session, tag := go0.tag, payLen := 304, rsv := go0.rsv, payAddr := go0.payAddr, params := go0.params, payload := go0.payload, payBad := go0.payBad }) ∧
    (baseP.passes cmdRegRead goRegR) ∧
    (baseP.passes cmdRegWrite goRegW) := by
  and_intros <;> decide +kernel

theorem test_SessionCommands :
    (base.passes cmdOpen goOpen ∧ par goOpen 32 4 < 8 ∧ bitAt (par goOpen 32 4) 0 = false ∧ ((base.accept 16
     goOpen).dev.pkgFault = false ∨ bitAt (par goOpen 32 4) 1 = true) ∧ ((base.accept 16 goOpen).mb goOpen.mb).sess =
     0 ∧ leaseOk (par goOpen 36 4) = true ∧ (if bitAt (par goOpen 32 4) 2 = true then par goOpen 56 8 = 0 else par
     goOpen 56 8 % 4096 = 0) ∧ ringOk (par goOpen 64 4) = true ∧ (bitAt (par goOpen 32 4) 1 = true → ∃ k, (base.accept
     16 goOpen).operKey = some k ∧ ecdsaVerify k (sha256 ((base.accept 16 goOpen).dev.nonce ++ leBytes 8 (par goOpen
     40 8) ++ leBytes 4 goOpen.mb)) (raw goOpen 80 64) = true) ∧ (BitVec.ofNat 64 (par goOpen 48 8) = 0 ∨ (base.accept
     16 goOpen).grantsBarred = false) ∧ (if bitAt (par goOpen 32 4) 2 = true then (base.accept 16 goOpen).lowestFree
     false (up64k (par goOpen 64 4 * 64)) (base.accept 16 goOpen).occupied = some 131072 else 131072 = par goOpen 56
     8)) ∧
    (base.passes cmdOpen goOpenPriv ∧ par goOpenPriv 32 4 = 2 ∧ ((base.accept 16 goOpenPriv).mb goOpenPriv.mb).sess =
     0 ∧ leaseOk (par goOpenPriv 36 4) = true ∧ par goOpenPriv 56 8 % 4096 = 0 ∧ ringOk (par goOpenPriv 64 4) = true ∧
     (∀ (k : List Byte), (base.accept 16 goOpenPriv).operKey = some k → ecdsaVerify k (sha256 ((base.accept 16
     goOpenPriv).dev.nonce ++ leBytes 8 (par goOpenPriv 40 8) ++ leBytes 4 goOpenPriv.mb)) (raw goOpenPriv 80 64) =
     false)) ∧
    (base.passes cmdOpen goAttach ∧ par goAttach 32 4 = 1 ∧ (base.accept 16 goAttach).dev.pkgFault = false ∧
     ((base.accept 16 goAttach).mb goAttach.mb).sess = 0 ∧ par goAttach 36 4 = 0 ∧ par goAttach 40 8 = 0 ∧ par
     goAttach 48 8 = 0 ∧ par goAttach 56 8 = 0 ∧ par goAttach 64 4 = 0 ∧ ((raw goAttach 80 64).all fun b => b == 0) =
     true ∧ (base.accept 16 goAttach).session (par goAttach 68 4) = some ses ∧ ses.closing = false) ∧
    (base.passes cmdLimits goLimits ∧ (base.accept 18 goLimits).session ((base.accept 18 goLimits).mb
     goLimits.mb).sess = some ses ∧ par goLimits 32 4 < 16 ∧ (bitAt (par goLimits 32 4) 0 = true → (par goLimits 40
     8).land (par goLimits 48 8) = 0) ∧ (bitAt (par goLimits 32 4) 2 = true → leaseOk (par goLimits 56 4) = true) ∧
     ((if bitAt (par goLimits 32 4) 0 = true then BitVec.ofNat 64 (par goLimits 40 8) else 0) = 0 ∨ (base.accept 18
     goLimits).grantsBarred = false)) ∧
    (base.passes cmdClose go0 ∧ (base.accept 17 go0).session ((base.accept 17 go0).mb go0.mb).sess = some ses) := by
  and_intros <;> decide +kernel

theorem test_MemoryCommands :
    (base.passes cmdAlloc goAlloc ∧ (base.accept 32 goAlloc).session ((base.accept 32 goAlloc).mb goAlloc.mb).sess =
     some ses) ∧
    (base.passes cmdFree go0 ∧ (base.accept 33 go0).session ((base.accept 33 go0).mb go0.mb).sess = some ses) := by
  and_intros <;> decide +kernel

theorem test_ScheduleCommands :
    (frozen.passes cmdLoad goLoad ∧ (frozen.received cmdLoad goLoad).session ((frozen.received cmdLoad goLoad).mb
     goLoad.mb).sess = some ses ∧ (frozen.received cmdLoad goLoad).anyFrozen = true) ∧
    (base.passes cmdLoad goShort ∧ (base.received cmdLoad goShort).session ((base.received cmdLoad goShort).mb
     goShort.mb).sess = some ses ∧ (base.received cmdLoad goShort).anyFrozen = false ∧ (base.received cmdLoad
     goShort).checkImage { bytes := (base.received cmdLoad goShort).payload goShort } (BitVec.toNat goShort.payLen)
     ((base.received cmdLoad goShort).live ses.regions) = some failShort ∧ (¬(failShort.code = 9 ∧ failShort.detail =
     detailOf 1 192))) ∧
    (base.passes cmdLoad goLoad ∧ (base.received cmdLoad goLoad).session ((base.received cmdLoad goLoad).mb
     goLoad.mb).sess = some ses ∧ (base.received cmdLoad goLoad).anyFrozen = false ∧ (base.received cmdLoad
     goLoad).checkImage { bytes := (base.received cmdLoad goLoad).payload goLoad } (BitVec.toNat goLoad.payLen)
     ((base.received cmdLoad goLoad).live ses.regions) = none ∧ ses.freeHandle = some 0 ∧ (base.received cmdLoad
     goLoad).admission { bytes := (base.received cmdLoad goLoad).payload goLoad } = Except.ok [] ∧ (2 ≤ (base.received
     cmdLoad goLoad).dev.stage ∨ ({ bytes := (base.received cmdLoad goLoad).payload goLoad } : Image).placedIn true []
     = 0)) ∧
    (baseI.passes cmdUnload go0 ∧ (baseI.accept 49 go0).session ((baseI.accept 49 go0).mb go0.mb).sess = some sesI) ∧
    (baseI.passes cmdBind go0 ∧ (baseI.accept 50 go0).session ((baseI.accept 50 go0).mb go0.mb).sess = some sesI) := by
  and_intros <;> first | decide +kernel | exact ok_of _ _ (by decide +kernel)

theorem test_StepCommands :
    (baseI.passes cmdSubmit goSubmit ∧ (baseI.received cmdSubmit goSubmit).session ((baseI.received cmdSubmit
     goSubmit).mb goSubmit.mb).sess = some sesI ∧ 1 ≤ par goSubmit 36 4 ∧ par goSubmit 36 4 ≤ 65536) ∧
    (baseRun.passes cmdCancel goCancel ∧ (baseRun.accept 65 goCancel).session ((baseRun.accept 65 goCancel).mb
     goCancel.mb).sess = some sesRun) ∧
    (baseI.passes cmdReplay goReplay ∧ (baseI.accept 208 goReplay).session ((baseI.accept 208 goReplay).mb
     goReplay.mb).sess = some sesI ∧ sesI.image (par goReplay 32 1) = some img ∧ par goReplay 33 1 ≤ 2 ∧ 1 ≤ par
     goReplay 56 8 ∧ par goReplay 56 8 ≤ 2 ^ 32 ∧ par goReplay 34 2 < img.targetUnits (par goReplay 33 1) ∧ par
     goReplay 36 4 < img.stepTicks ∧ par goReplay 48 8 + par goReplay 56 8 ≤ img.targetSize (par goReplay 33 1) (par
     goReplay 34 2) ∧ (bitAt (par goReplay 72 4) 0 = true → (baseI.accept 208 goReplay).devRangeOk (some sesI) (par
     goReplay 64 8) (par goReplay 56 8) = true) ∧ sesI.queue.length < 65536) := by
  and_intros <;> decide +kernel

theorem test_FabricCommands :
    (base.passes cmdFabric goShort ∧ (base.received cmdFabric goShort).session ((base.received cmdFabric goShort).mb
     goShort.mb).sess = some ses) ∧
    (base.passes cmdFabricRegion goShort ∧ (base.received cmdFabricRegion goShort).session ((base.received
     cmdFabricRegion goShort).mb goShort.mb).sess = some ses) := by
  and_intros <;> decide +kernel

theorem test_PairCommands :
    (baseP.passes cmdConfigure go0) ∧
    (baseP.passes cmdPromote go0) ∧
    (baseP.passes cmdRejoin go0) := by
  and_intros <;> decide +kernel

theorem test_PromotionStarts :
    go0.wf = true ∧ shadow2.accepts go0.mb (BitVec.toNat go0.go) = true ∧ shadow2.pair.left = false ∧ (shadow2.accept
    98 go0).preCheck cmdPromote go0 = none ∧ shadow2.pair.shadow = true ∧ shadow2.pair.role = 2 ∧ shadow2.pair.phase =
    0 ∧ shadow2.pair.promoteIn = 0 :=
  by decide +kernel

theorem test_FirmwareAndSettings :
    (baseP.passes cmdFwStage goShort) ∧
    (baseP.passes cmdFwActivate go0) ∧
    (baseP.passes cmdSettingsWrite
     { mb := go0.mb, go := go0.go, flags := go0.flags, session := go0.session, tag := go0.tag, payLen := 8192, rsv := go0.rsv, payAddr := go0.payAddr, params := go0.params, payload := defaultBlock, payBad := go0.payBad }) := by
  and_intros <;> decide +kernel

theorem test_UnitCommands :
    (baseP.passes cmdRetire goKind0) ∧
    (baseP.passes cmdRestore goKind0 ∧ par goKind0 32 1 ≤ 5 ∧ unitId (par goKind0 32 1) (par goKind0 36 4) = true) ∧
    (baseP.passes cmdSelfTest goKind0 ∧ par goKind0 32 1 ≤ 5 ∧ unitId (par goKind0 32 1) (par goKind0 36 4) = true) := by
  and_intros <;> decide +kernel

theorem test_TickSource :
    (early.tickRuns = true ∧ early.tick.count ≠ 0 ∧ early.tick.due = false ∧ early.tick.copying = 0) ∧
    (base.canon ∧ base.mayReport 0 = true ∧ base.tick.closed = false ∧ withBit base.tick.done 0 true ≠
     18446744073709551615) ∧
    (lastOut.canon ∧ lastOut.mayReport 0 = true ∧ lastOut.tick.closed = false ∧ withBit lastOut.tick.done 0 true =
     18446744073709551615 ∧ lastOut.pair.shadow = false) ∧
    (beating.heartBeats = true) ∧
    ((copying 2).tickRuns = true ∧ (copying 2).tick.copying ≠ 0) := by
  and_intros <;> decide +kernel

theorem test_WarningsAndHangs :
    (base.canon ∧ base.mayWarn 0 = true) ∧
    ((withTile tileArr).hangs 0 0 = true) := by
  and_intros <;> decide +kernel

theorem test_TickBoundaries :
    (atEndSlot.mayCross = true ∧ (atEndSlot.pair.shadow = false ∨ atEndSlot.units.pend = []) ∧
     atEndSlot.decideUnits.mayCross = true ∧ (atEndSlot.decideUnits.boundary { }).tick.copying ≠ 0) ∧
    (deciding.mayCross = true ∧ deciding.decideUnits.mayCross = false) ∧
    (atEnd.mayCross = true ∧ atEnd.decideUnits.mayCross = true ∧ (atEnd.decideUnits.boundary { }).tick.copying = 0) ∧
    ((copying 2).tickRuns = true ∧ 1 < (copying 2).tick.copying) ∧
    ((copying 1).tickRuns = true ∧ (copying 1).tick.copying = 1) ∧
    (changing.canon ∧ changing.atBoundary = true ∧ 1 < 64 ∧ (changing.region 1).change = 1 ∧ (∀ (x : Sess), x ∈
     changing.sess → BitVec.getLsbD x.regions 1 = false)) := by
  and_intros <;> decide +kernel

theorem test_Steps :
    (startable.atBoundary = true ∧ startable.session 261 = some sesQ ∧ sesQ.queue = [q0] ∧ startable.mayStart sesQ q0
     = true ∧ q0.replay = none) ∧
    (ended.session 261 = some sesEnd ∧ sesEnd.running = some runEnd ∧ runEnd.finish = some 0 ∧ runEnd.item.replay =
     none) ∧
    (replayed.session 261 = some sesRep ∧ sesRep.running = some runRep ∧ runRep.finish = some 0 ∧ runRep.item.replay =
     some rep0 ∧ 0 ≠ 6) ∧
    (waitingRec.session 261 = some sesW ∧ sesW.ring.waiting = [rec0] ∧ sesW.ring.hasFree = true ∧
     waitingRec.ringReachable sesW.ring = true) := by
  and_intros <;> decide +kernel

theorem test_RecordPlacement :
    memWf devRing.mem = true ∧ devRing.session sesD.id = some sesD ∧ 0 < sesD.ring.entries ∧ sesD.ring.dev = true ∧
    List.length rec0 = 64 ∧ devRing.waits (sesD.ring.addr + 64 * (sesD.ring.prod % sesD.ring.entries)) 64 = false ∧
    devRing.served (sesD.ring.addr + 64 * (sesD.ring.prod % sesD.ring.entries)) 64 = true :=
  by decide +kernel

theorem test_Passes :
    ((withTile tile0).canon ∧ (withTile tile0).passNow 0 = some 0 ∧ ((withTile tile0).tile 0).passes[0]? = some (work
     0) ∧ (work 0).ctx < 4 ∧ operandsReady ((withTile tile0).tile 0) (work 0) ((withTile tile0).ringsDone 0) = true) ∧
    ((withTile tileDry).canon ∧ (withTile tileDry).passNow 0 = some 0 ∧ ((withTile tileDry).tile 0).passes[0]? = some
     (work 8) ∧ (work 8).ctx < 4 ∧ operandsReady ((withTile tileDry).tile 0) (work 8) ((withTile tileDry).ringsDone 0)
     = false ∧ (((withTile tileDry).tile 0).ctx (work 8).ctx).late = false) ∧
    ((withTile tileHeld).mayResume 0 = true) ∧
    ((withTile tileIn).canon ∧ (withTile tileIn).commitNow 0 = true ∧ ((withTile tileIn).tile 0).array = [arr0] ∧
     ((withTile tileIn).tile 0).passes[arr0.idx]? = some work0s ∧ work0s.replay = false) ∧
    ((withTile tileRow).canon ∧ (withTile tileRow).atWork 0 = true ∧ rowReady ((withTile tileRow).tile 0) = true ∧
     ((withTile tileRow).tile 0).array = [arr0] ∧ ((withTile tileRow).tile 0).passes[arr0.idx]? = some work3s ∧
     work3s.replay = false) := by
  and_intros <;> decide +kernel

theorem test_ContextsAndEvents :
    ((withTile tileTwo).canon ∧ (withTile tileTwo).maySwitch 0 = true ∧ nextCtx ((withTile tileTwo).tile 0) = some 2 ∧
     ((withTile tileTwo).tile 0).cur < 4) ∧
    ((withTile tileEv).canon ∧ (withTile tileEv).eventNow 0 = some 2 ∧ ((withTile tileEv).tile 0).cur < 4) := by
  and_intros <;> decide +kernel

theorem test_BundleFrame :
    1 < 4 :=
  by decide +kernel

theorem test_FlowOperations :
    (1 < 4 ∧ (tileS.ctx 1).rep = 0 ∧ (tileS.ctx 1).branch = none ∧ (tileS.ctx 1).loops = [] ∧ (tileS.ctx 1).ldcr =
     none ∧ (tileS.ctx 1).pc + 2 < 8192) ∧
    (1 < 4 ∧ (tileS.ctx 1).rep = 0 ∧ (tileS.ctx 1).branch = none ∧ (tileS.ctx 1).loops = [] ∧ (tileS.ctx 1).ldcr =
     none ∧ (tileS.ctx 1).pc + 2 < 8192 ∧ 8191 < 8192 ∧ tabWf 0 (tileS.ctx 1).r.a = true) ∧
    (1 < 4 ∧ (tileS.ctx 1).rep = 0 ∧ (tileS.ctx 1).branch = none ∧ (tileS.ctx 1).loops = [] ∧ (tileS.ctx 1).ldcr =
     none ∧ (tileS.ctx 1).pc + 2 < 8192 ∧ 0 < 8 ∧ 1 ≤ 511 ∧ 511 < 512 ∧ (tileS.ctx 1).pc + 511 + 1 < 8192 ∧ (tileS.ctx
     1).r.areg 0 % 2 ^ 16 ≠ 0) ∧
    (1 < 4 ∧ (tileS.ctx 1).rep = 0 ∧ (tileS.ctx 1).branch = none ∧ (tileS.ctx 1).loops = [] ∧ (tileS.ctx 1).ldcr =
     none ∧ (tileS.ctx 1).pc + 2 < 8192 ∧ 5 < 8 ∧ 1 ≤ 511 ∧ 511 < 512 ∧ (tileS.ctx 1).pc + 511 + 1 < 8192 ∧ (tileS.ctx
     1).r.areg 5 % 2 ^ 16 = 0) ∧
    (1 < 4 ∧ (tileS.ctx 1).rep = 0 ∧ (tileS.ctx 1).branch = none ∧ (tileS.ctx 1).loops = [] ∧ (tileS.ctx 1).ldcr =
     none ∧ (tileS.ctx 1).pc + 2 < 8192 ∧ nextRelease tileS.passes 1 = some 1) ∧
    (1 < 4 ∧ (tileInh.ctx 1).rep = 0 ∧ (tileInh.ctx 1).branch = none ∧ (tileInh.ctx 1).loops = [] ∧ (tileInh.ctx
     1).ldcr = none ∧ (tileInh.ctx 1).pc + 2 < 8192 ∧ (tileInh.ctx 1).r.es.getLsbD 9 = true) := by
  and_intros <;> decide +kernel

theorem test_LoopsAndSlots :
    (1 < 4 ∧ (tileSlot.ctx 1).ldcr = none ∧ (tileSlot.ctx 1).pc + 2 < 8192 ∧ (tileSlot.ctx 1).branch = some
     { target := some 8191, rte := true } ∧ 8191 < 8192 ∧ (tileSlot.ctx 1).rep = 0) ∧
    (1 < 4 ∧ (tileLoop.ctx 1).ldcr = none ∧ (tileLoop.ctx 1).pc + 2 < 8192 ∧ (tileLoop.ctx 1).branch = none ∧
     (tileLoop.ctx 1).rep = 0 ∧ (tileLoop.ctx 1).loops = [loopA] ∧ (tileLoop.ctx 1).pc = loopA.last ∧ 1 < loopA.left ∧
     loopA.first < 8192) ∧
    (1 < 4 ∧ (tileLoopEnd.ctx 1).ldcr = none ∧ (tileLoopEnd.ctx 1).pc + 2 < 8192 ∧ (tileLoopEnd.ctx 1).branch = none ∧
     (tileLoopEnd.ctx 1).rep = 0 ∧ (tileLoopEnd.ctx 1).loops = [loopA1] ∧ (tileLoopEnd.ctx 1).pc = loopA1.last ∧
     loopA1.left ≤ 1) ∧
    (1 < 4 ∧ (tileLoopIn.ctx 1).ldcr = none ∧ (tileLoopIn.ctx 1).pc + 2 < 8192 ∧ (tileLoopIn.ctx 1).branch = none ∧
     (tileLoopIn.ctx 1).rep = 0 ∧ (tileLoopIn.ctx 1).loops = [loopA200] ∧ (tileLoopIn.ctx 1).pc ≠ loopA200.last) ∧
    (1 < 4 ∧ ((tileRep 2).ctx 1).ldcr = none ∧ ((tileRep 2).ctx 1).pc + 2 < 8192 ∧ ((tileRep 2).ctx 1).branch = none ∧
     1 < ((tileRep 2).ctx 1).rep) ∧
    (1 < 4 ∧ ((tileRep 1).ctx 1).ldcr = none ∧ ((tileRep 1).ctx 1).pc + 2 < 8192 ∧ ((tileRep 1).ctx 1).branch = none ∧
     ((tileRep 1).ctx 1).rep = 1 ∧ ((tileRep 1).ctx 1).loops = []) := by
  and_intros <;> decide +kernel

theorem test_RegisterOperations :
    (1 < 4 ∧ (tileS.ctx 1).rep = 0 ∧ (tileS.ctx 1).branch = none ∧ (tileS.ctx 1).loops = [] ∧ (tileS.ctx 1).ldcr =
     none ∧ (tileS.ctx 1).pc + 2 < 8192 ∧ tabWf 0 (tileS.ctx 1).r.a = true ∧ tabWf 0 (tileS.ctx 1).r.b = true ∧ tabWf
     0 (tileS.ctx 1).r.c = true ∧ tabWf 0 (tileS.ctx 1).r.m = true ∧ memWf tileS.loc = true ∧ 0 < 8 ∧ 4095 < 4096) ∧
    (1 < 4 ∧ (tileS.ctx 1).rep = 0 ∧ (tileS.ctx 1).branch = none ∧ (tileS.ctx 1).loops = [] ∧ (tileS.ctx 1).ldcr =
     none ∧ (tileS.ctx 1).pc + 2 < 8192 ∧ tabWf 0 (tileS.ctx 1).r.a = true ∧ tabWf 0 (tileS.ctx 1).r.b = true ∧ tabWf
     0 (tileS.ctx 1).r.c = true ∧ tabWf 0 (tileS.ctx 1).r.m = true ∧ memWf tileS.loc = true ∧ 0 < 8 ∧ 255 < 256) ∧
    (1 < 4 ∧ (tileS.ctx 1).rep = 0 ∧ (tileS.ctx 1).branch = none ∧ (tileS.ctx 1).loops = [] ∧ (tileS.ctx 1).ldcr =
     none ∧ (tileS.ctx 1).pc + 2 < 8192 ∧ tabWf 0 (tileS.ctx 1).r.a = true ∧ tabWf 0 (tileS.ctx 1).r.b = true ∧ tabWf
     0 (tileS.ctx 1).r.c = true ∧ tabWf 0 (tileS.ctx 1).r.m = true ∧ memWf tileS.loc = true ∧ 4 < 8 ∧ 1 < 4096) ∧
    (1 < 4 ∧ (tileS.ctx 1).rep = 0 ∧ (tileS.ctx 1).branch = none ∧ (tileS.ctx 1).loops = [] ∧ (tileS.ctx 1).ldcr =
     none ∧ (tileS.ctx 1).pc + 2 < 8192 ∧ tabWf 0 (tileS.ctx 1).r.a = true ∧ tabWf 0 (tileS.ctx 1).r.b = true ∧ tabWf
     0 (tileS.ctx 1).r.c = true ∧ tabWf 0 (tileS.ctx 1).r.m = true ∧ memWf tileS.loc = true ∧ 2 < 8 ∧ 0 < 32) ∧
    (1 < 4 ∧ (tileS.ctx 1).rep = 0 ∧ (tileS.ctx 1).branch = none ∧ (tileS.ctx 1).loops = [] ∧ (tileS.ctx 1).ldcr =
     none ∧ (tileS.ctx 1).pc + 2 < 8192 ∧ tabWf 0 (tileS.ctx 1).r.a = true ∧ tabWf 0 (tileS.ctx 1).r.b = true ∧ tabWf
     0 (tileS.ctx 1).r.c = true ∧ tabWf 0 (tileS.ctx 1).r.m = true ∧ memWf tileS.loc = true ∧ 7 < 8 ∧ 3 < 32) ∧
    (1 < 4 ∧ (tileS.ctx 1).rep = 0 ∧ (tileS.ctx 1).branch = none ∧ (tileS.ctx 1).loops = [] ∧ (tileS.ctx 1).ldcr =
     none ∧ (tileS.ctx 1).pc + 2 < 8192 ∧ tabWf 0 (tileS.ctx 1).r.a = true ∧ tabWf 0 (tileS.ctx 1).r.b = true ∧ tabWf
     0 (tileS.ctx 1).r.c = true ∧ tabWf 0 (tileS.ctx 1).r.m = true ∧ memWf tileS.loc = true ∧ 7 < 32) ∧
    (1 < 4 ∧ (tileS.ctx 1).rep = 0 ∧ (tileS.ctx 1).branch = none ∧ (tileS.ctx 1).loops = [] ∧ (tileS.ctx 1).ldcr =
     none ∧ (tileS.ctx 1).pc + 2 < 8192 ∧ tabWf 0 (tileS.ctx 1).r.a = true ∧ tabWf 0 (tileS.ctx 1).r.b = true ∧ tabWf
     0 (tileS.ctx 1).r.c = true ∧ tabWf 0 (tileS.ctx 1).r.m = true ∧ memWf tileS.loc = true ∧ 5 < 28 ∧ 0 < 8 ∧ 1 < 2 ∧
     (tileS.ctx 1).r.areg 0 % 4 = 0 ∧ (tileS.ctx 1).r.areg 0 < 65536) ∧
    (1 < 4 ∧ (tileS.ctx 1).rep = 0 ∧ (tileS.ctx 1).branch = none ∧ (tileS.ctx 1).loops = [] ∧ (tileS.ctx 1).ldcr =
     none ∧ (tileS.ctx 1).pc + 2 < 8192 ∧ tabWf 0 (tileS.ctx 1).r.a = true ∧ tabWf 0 (tileS.ctx 1).r.b = true ∧ tabWf
     0 (tileS.ctx 1).r.c = true ∧ tabWf 0 (tileS.ctx 1).r.m = true ∧ memWf tileS.loc = true ∧ 5 < 32 ∧ 0 < 8 ∧ 1 < 2 ∧
     (tileS.ctx 1).r.areg 0 % 4 = 0 ∧ (tileS.ctx 1).r.areg 0 < 65536) ∧
    (1 < 4 ∧ (tileS.ctx 1).rep = 0 ∧ (tileS.ctx 1).branch = none ∧ (tileS.ctx 1).loops = [] ∧ (tileS.ctx 1).ldcr =
     none ∧ (tileS.ctx 1).pc + 2 < 8192 ∧ tabWf 0 (tileS.ctx 1).r.a = true ∧ tabWf 0 (tileS.ctx 1).r.b = true ∧ tabWf
     0 (tileS.ctx 1).r.c = true ∧ tabWf 0 (tileS.ctx 1).r.m = true ∧ memWf tileS.loc = true) ∧
    (1 < 4 ∧ (tileS.ctx 1).rep = 0 ∧ (tileS.ctx 1).branch = none ∧ (tileS.ctx 1).loops = [] ∧ (tileS.ctx 1).ldcr =
     none ∧ (tileS.ctx 1).pc + 2 < 8192 ∧ tabWf 0 (tileS.ctx 1).r.a = true ∧ tabWf 0 (tileS.ctx 1).r.b = true ∧ tabWf
     0 (tileS.ctx 1).r.c = true ∧ tabWf 0 (tileS.ctx 1).r.m = true ∧ memWf tileS.loc = true ∧ 1 < 2) ∧
    (1 < 4 ∧ (tileS.ctx 1).rep = 0 ∧ (tileS.ctx 1).branch = none ∧ (tileS.ctx 1).loops = [] ∧ (tileS.ctx 1).ldcr =
     none ∧ (tileS.ctx 1).pc + 2 < 8192 ∧ tabWf 0 (tileS.ctx 1).r.a = true ∧ tabWf 0 (tileS.ctx 1).r.b = true ∧ tabWf
     0 (tileS.ctx 1).r.c = true ∧ tabWf 0 (tileS.ctx 1).r.m = true ∧ memWf tileS.loc = true ∧ 4095 < 4096) := by
  and_intros <;> decide +kernel

theorem test_AccumulatorOperations :
    1 < 4 ∧ 0 < 8 ∧ 3 < 8 ∧ 0 < 2 ∧ (tileS.ctx 1).rep = 0 ∧ (tileS.ctx 1).branch = none ∧ (tileS.ctx 1).loops = [] ∧
    (tileS.ctx 1).ldcr = none ∧ (tileS.ctx 1).pc + 2 < 8192 :=
  by decide +kernel

theorem test_DataRegisterOperations :
    1 < 4 ∧ 0 < 8 ∧ 3 < 8 ∧ 0 < 2 ∧ 1 < 2 ∧ (tileS.ctx 1).rep = 0 ∧ (tileS.ctx 1).branch = none ∧ (tileS.ctx 1).loops
    = [] ∧ (tileS.ctx 1).ldcr = none ∧ (tileS.ctx 1).pc + 2 < 8192 ∧ tabWf lanes0 (tileS.ctx 1).r.d = true :=
  by decide +kernel

theorem test_WideOperations :
    (1 < 4 ∧ 0 < 8 ∧ 1 < 8 ∧ 0 < 2 ∧ (tileS.ctx 1).rep = 0 ∧ (tileS.ctx 1).branch = none ∧ (tileS.ctx 1).loops = [] ∧
     (tileS.ctx 1).ldcr = none ∧ (tileS.ctx 1).pc + 2 < 8192 ∧ tabWf lanes0 (tileS.ctx 1).r.d = true ∧ List.find? (fun
     q => q.ctx == 1) tileS.crq = some { ctx := 1, vals := regs1.w }) ∧
    (1 < 4 ∧ 0 < 8 ∧ 1 < 8 ∧ 0 < 2 ∧ (tileQ.ctx 1).rep = 0 ∧ (tileQ.ctx 1).branch = none ∧ (tileQ.ctx 1).loops = [] ∧
     (tileQ.ctx 1).ldcr = none ∧ (tileQ.ctx 1).pc + 2 < 8192 ∧ tabWf lanes0 (tileQ.ctx 1).r.d = true ∧ List.find? (fun
     q => q.ctx == 1) tileQ.crq = none ∧ (tileQ.passes.any fun p => p.ctx == 1 && p.rowsDue) = true) ∧
    (1 < 4 ∧ 0 < 8 ∧ 1 < 8 ∧ 0 < 2 ∧ (tileS.ctx 1).rep = 0 ∧ (tileS.ctx 1).branch = none ∧ (tileS.ctx 1).loops = [] ∧
     (tileS.ctx 1).ldcr = none ∧ (tileS.ctx 1).pc + 2 < 8192 ∧ tabWf lanes0 (tileS.ctx 1).r.d = true) ∧
    (1 < 4 ∧ 0 < 8 ∧ 1 < 8 ∧ 0 < 2 ∧ (tileS.ctx 1).rep = 0 ∧ (tileS.ctx 1).branch = none ∧ (tileS.ctx 1).loops = [] ∧
     (tileS.ctx 1).ldcr = none ∧ (tileS.ctx 1).pc + 2 < 8192 ∧ tabWf lanes0 (tileS.ctx 1).r.d = true ∧ 3 < 64 ∧
     Fmt.ofCode 3 = some Fmt.bf16 ∧ Fmt.bf16.isMx = false ∧ Fmt.bf16.bits % 8 = 0 ∧ 0 < Fmt.bf16.bits ∧ 2 < 3 ∧
     (tileS.ctx 1).r.areg 0 % 64 = 0 ∧ (tileS.ctx 1).r.areg 0 + 4 * Fmt.bf16.bits ≤ 524288) := by
  and_intros <;> decide +kernel

theorem test_Moves :
    (1 < 4 ∧ 5 < 8 ∧ 0 < 8 ∧ 1 < 2 ∧ (tileS.ctx 1).rep = 0 ∧ (tileS.ctx 1).branch = none ∧ (tileS.ctx 1).loops = [] ∧
     (tileS.ctx 1).ldcr = none ∧ (tileS.ctx 1).pc + 2 < 8192 ∧ tabWf lanes0 (tileS.ctx 1).r.d = true ∧ tabWf 0
     (tileS.ctx 1).r.a = true ∧ tabWf 0 (tileS.ctx 1).r.c = true ∧ modOk (tileS.ctx 1).r 0 = true ∧ eaOf (tileS.ctx
     1).r 0 % 64 = 0 ∧ eaOf (tileS.ctx 1).r 0 < 65536) ∧
    (1 < 4 ∧ 5 < 8 ∧ 2 < 8 ∧ 1 < 2 ∧ (tileS.ctx 1).rep = 0 ∧ (tileS.ctx 1).branch = none ∧ (tileS.ctx 1).loops = [] ∧
     (tileS.ctx 1).ldcr = none ∧ (tileS.ctx 1).pc + 2 < 8192 ∧ tabWf lanes0 (tileS.ctx 1).r.d = true ∧ tabWf 0
     (tileS.ctx 1).r.a = true ∧ tabWf 0 (tileS.ctx 1).r.c = true ∧ modOk (tileS.ctx 1).r 2 = true ∧ eaOf (tileS.ctx
     1).r 2 % 64 = 0 ∧ eaOf (tileS.ctx 1).r 2 < 65536 ∧ 1 = 1 ∧ 2 ≤ modOf (tileS.ctx 1).r 2) ∧
    (1 < 4 ∧ 5 < 8 ∧ 0 < 8 ∧ 0 < 2 ∧ (tileS.ctx 1).rep = 0 ∧ (tileS.ctx 1).branch = none ∧ (tileS.ctx 1).loops = [] ∧
     (tileS.ctx 1).ldcr = none ∧ (tileS.ctx 1).pc + 2 < 8192 ∧ tabWf lanes0 (tileS.ctx 1).r.d = true ∧ tabWf 0
     (tileS.ctx 1).r.a = true ∧ tabWf 0 (tileS.ctx 1).r.c = true ∧ modOk (tileS.ctx 1).r 0 = true ∧ eaOf (tileS.ctx
     1).r 0 % 64 = 0 ∧ eaOf (tileS.ctx 1).r 0 < 65536 ∧ 0 = 0) ∧
    (1 < 4 ∧ 0 < 8 ∧ 0 < 2 ∧ (tileS.ctx 1).rep = 0 ∧ (tileS.ctx 1).branch = none ∧ (tileS.ctx 1).loops = [] ∧
     (tileS.ctx 1).ldcr = none ∧ (tileS.ctx 1).pc + 2 < 8192 ∧ tabWf lanes0 (tileS.ctx 1).r.d = true ∧ tabWf 0
     (tileS.ctx 1).r.a = true ∧ tabWf 0 (tileS.ctx 1).r.c = true ∧ modOk (tileS.ctx 1).r 0 = true ∧ eaOf (tileS.ctx
     1).r 0 % 64 = 0 ∧ eaOf (tileS.ctx 1).r 0 < 524288) ∧
    (1 < 4 ∧ 3 < 8 ∧ 1 < 8 ∧ 1 < 2 ∧ (tileS.ctx 1).rep = 0 ∧ (tileS.ctx 1).branch = none ∧ (tileS.ctx 1).loops = [] ∧
     (tileS.ctx 1).ldcr = none ∧ (tileS.ctx 1).pc + 2 < 8192 ∧ tabWf lanes0 (tileS.ctx 1).r.d = true ∧ tabWf 0
     (tileS.ctx 1).r.a = true ∧ tabWf 0 (tileS.ctx 1).r.c = true ∧ modOk (tileS.ctx 1).r 1 = true ∧ eaOf (tileS.ctx
     1).r 1 % 64 = 0 ∧ eaOf (tileS.ctx 1).r 1 < 524288 ∧ 1 = 1 ∧ modOf (tileS.ctx 1).r 1 < 2) ∧
    (1 < 4 ∧ 3 < 8 ∧ 2 < 8 ∧ 1 < 2 ∧ (tileS.ctx 1).rep = 0 ∧ (tileS.ctx 1).branch = none ∧ (tileS.ctx 1).loops = [] ∧
     (tileS.ctx 1).ldcr = none ∧ (tileS.ctx 1).pc + 2 < 8192 ∧ tabWf lanes0 (tileS.ctx 1).r.d = true ∧ tabWf 0
     (tileS.ctx 1).r.a = true ∧ tabWf 0 (tileS.ctx 1).r.c = true ∧ modOk (tileS.ctx 1).r 2 = true ∧ eaOf (tileS.ctx
     1).r 2 % 64 = 0 ∧ eaOf (tileS.ctx 1).r 2 < 524288 ∧ 1 = 1 ∧ 2 ≤ modOf (tileS.ctx 1).r 2) := by
  and_intros <;> decide +kernel

theorem test_Advances :
    (6 < 8 ∧ BitVec.toNat (look 0 regs1.m 6) / 2 ^ 30 = 0) ∧
    (1 < 8 ∧ BitVec.toNat (look 0 regs1.m 1) / 2 ^ 30 = 1 ∧ (look 0 regs1.b 1).toNat ≤ regs1.areg 1 ∧ regs1.areg 1 <
     (look 0 regs1.b 1).toNat + (BitVec.toNat (look 0 regs1.m 1) / 2 ^ 20 % 2 ^ 10 + 1) * 64 ∧ (-(((((look 0 regs1.m
     1).toNat / 2 ^ 20 % 2 ^ 10 : Nat) : Int) + 1) * 64) ≤ if BitVec.toNat (look 0 regs1.m 1) % 2 ^ 20 < 2 ^ 19 then
     (((look 0 regs1.m 1).toNat % 2 ^ 20 : Nat) : Int) else (((look 0 regs1.m 1).toNat % 2 ^ 20 : Nat) : Int) - 2 ^
     20) ∧ ((if BitVec.toNat (look 0 regs1.m 1) % 2 ^ 20 < 2 ^ 19 then (((look 0 regs1.m 1).toNat % 2 ^ 20 : Nat) :
     Int) else (((look 0 regs1.m 1).toNat % 2 ^ 20 : Nat) : Int) - 2 ^ 20) ≤ ((((look 0 regs1.m 1).toNat / 2 ^ 20 % 2
     ^ 10 : Nat) : Int) + 1) * 64)) ∧
    (2 < 8 ∧ BitVec.toNat (look 0 regs1.m 2) / 2 ^ 30 = 2 ∧ 1 ≤ BitVec.toNat (look 0 regs1.m 2) / 2 ^ 20 % 2 ^ 10 ∧
     BitVec.toNat (look 0 regs1.m 2) / 2 ^ 20 % 2 ^ 10 ≤ 12) ∧
    (5 < 8 ∧ BitVec.toNat (look 0 regs1.m 5) / 2 ^ 30 = 3 ∧ 1 ≤ BitVec.toNat (look 0 regs1.m 5) / 2 ^ 20 % 2 ^ 10 ∧
     BitVec.toNat (look 0 regs1.m 5) / 2 ^ 20 % 2 ^ 10 ≤ 12 ∧ BitVec.toNat (look 0 regs1.m 5) / 2 ^ 20 % 2 ^ 10 % 2 =
     0) ∧
    (0 < 8 ∧ 5 < 12) := by
  and_intros <;> decide +kernel

theorem test_ErrorEvent :
    (1 < 4 ∧ 24 ≤ 13835058055282163712 / 2 ^ 59 ∧ 13835058055282163712 < 2 ^ 64 ∧ (tileS.ctx 1).rep = 0 ∧ (tileS.ctx
     1).branch = none ∧ (tileS.ctx 1).loops = [] ∧ (tileS.ctx 1).ldcr = none ∧ (tileS.ctx 1).pc + 1 < 8192 ∧
     ((tileS.ctx 1).r.emask.getLsbD 0 = true ∧ (tileS.ctx 1).r.es.getLsbD 9 = false)) ∧
    (1 < 4 ∧ 24 ≤ 14411518807585587199 / 2 ^ 59 ∧ 14411518807585587199 < 2 ^ 64 ∧ (tileQ.ctx 1).rep = 0 ∧ (tileQ.ctx
     1).branch = none ∧ (tileQ.ctx 1).loops = [] ∧ (tileQ.ctx 1).ldcr = none ∧ (tileQ.ctx 1).pc + 1 < 8192 ∧
     (¬((tileQ.ctx 1).r.emask.getLsbD 0 = true ∧ (tileQ.ctx 1).r.es.getLsbD 9 = false))) := by
  and_intros <;> decide +kernel

theorem test_WideRoundTrip :
    decode48 70368744177665 = Val.fin false 68719476737 (-35) ∧ 68719476737 ≠ 0 :=
  by decide +kernel

theorem test_StreamEvents :
    (copies.canon ∧ copies.engineOn 0 = true ∧ copies.clamped 0 = false) ∧
    (staged1.canon ∧ staged1.engineOn 0 = true ∧ 0 < 32 ∧ (staged1.stream 0 0).ring = some (ringS 0 1) ∧
     (staged1.stream 0 0).staged = [burst0, burst1] ∧ staged1.homeOf (ringS 0 1) = some homeS ∧ burst0.skip = false ∧
     burst0.bus = false ∧ burst0.memUe = false ∧ burst0.badIdx = false ∧ (homeS.desc (ringS 0 1) burst0.desc).dst = 0
     ∧ (homeS.desc (ringS 0 1) burst0.desc).kind ≠ 2 ∧ (homeS.desc (ringS 0 1) burst0.desc).kind ≠ 3 ∧ (homeS.desc
     (ringS 0 1) burst0.desc).narrow = false ∧ 0 < (homeS.desc (ringS 0 1) burst0.desc).rowBytes ∧ 0 <
     burst0.data.length ∧ burst0.start % (homeS.desc (ringS 0 1) burst0.desc).rowBytes + burst0.data.length ≤
     (homeS.desc (ringS 0 1) burst0.desc).rowBytes ∧ staged1.tierHeld (homeS.tensor (homeS.desc (ringS 0 1)
     burst0.desc).dstTensor) = false ∧ staged1.waits (homeS.tensor (homeS.desc (ringS 0 1) burst0.desc).dstTensor +
     ((homeS.desc (ringS 0 1) burst0.desc).dstOff + burst0.start / (homeS.desc (ringS 0 1) burst0.desc).rowBytes *
     (homeS.desc (ringS 0 1) burst0.desc).dstStride + burst0.start % (homeS.desc (ringS 0 1) burst0.desc).rowBytes))
     burst0.data.length = false ∧ staged1.meets 0 (Place.memory (homeS.tensor (homeS.desc (ringS 0 1)
     burst0.desc).dstTensor)) ((homeS.desc (ringS 0 1) burst0.desc).dstOff + burst0.start / (homeS.desc (ringS 0 1)
     burst0.desc).rowBytes * (homeS.desc (ringS 0 1) burst0.desc).dstStride + burst0.start % (homeS.desc (ringS 0 1)
     burst0.desc).rowBytes) burst0.data.length = Meets.fine) ∧
    (stagedBad.canon ∧ stagedBad.engineOn 0 = true ∧ 0 < 32 ∧ (stagedBad.stream 0 0).ring = some (ringS 0 1) ∧
     (stagedBad.stream 0 0).staged = [burstBad] ∧ stagedBad.homeOf (ringS 0 1) = some homeS ∧ burstBad.skip = false ∧
     burstBad.badIdx = true) ∧
    (ringEnd.canon ∧ ringEnd.engineOn 0 = true ∧ 0 < 32 ∧ (ringEnd.stream 0 0).ringDone = true) ∧
    (copies.engineOn 0 = true ∧ copies.stalled 0 [0, 1] = []) ∧
    (stallTwo.canon ∧ stallTwo.engineOn 0 = true ∧ 1 ∈ stallTwo.stalled 0 [1, 2] ∧ (stallTwo.stream 0 1).ring = some
     ringLate ∧ (∀ (m : Nat) (h : Ring), m ∈ stallTwo.stalled 0 [1, 2] → m ≠ 1 → (stallTwo.stream 0 m).ring = some h →
     h.tick < ringLate.tick ∨ h.tick = ringLate.tick ∧ h.seq < ringLate.seq)) := by
  and_intros <;> first | decide +kernel | exact stallTwo_others

theorem test_HostMemory :
    (mem0.cxl.dec0.committed = true ∧ mem0.cxl.dec0.base ≤ 268439552 ∧ 268439552 + 2 ≤ mem0.cxl.dec0.base +
     1347545989120) ∧
    (mem0.memPort = true ∧ mem0.hdm 4096 2 = none) ∧
    (mem0.memPort = true ∧ mem0.hdm 4096 [1, 2].length = none) ∧
    (mem0.memPort = true ∧ mem0.hdm 268439552 2 = some 4096 ∧ mem0.waits 4096 2 = false ∧ mem0.served 4096 2 = true) ∧
    (memFrozen.memPort = true ∧ memFrozen.hdm 268439552 2 = some 4096 ∧ memFrozen.frozenAt 4096 2 = true) ∧
    (mem0.memPort = true ∧ mem0.hdm 268439552 [1, 2].length = some 4096 ∧ mem0.pair.shadow = false ∧ mem0.waits 4096
     [1, 2].length = false ∧ (mem0.ctlsOf 4096 [1, 2].length).all mem0.ctlOn = true) ∧
    (memSr.memPort = true ∧ memSr.hdm 268439552 2 = some 4096 ∧ memSr.waits 4096 2 = true ∧ memSr.frozenAt 4096 2 =
     false) ∧
    (memSr.memPort = true ∧ memSr.hdm 268439552 [1, 2].length = some 4096 ∧ memSr.pair.shadow = false ∧ memSr.waits
     4096 [1, 2].length = true ∧ memSr.frozenAt 4096 [1, 2].length = false) ∧
    ((memShadow 1).memPort = true ∧ (memShadow 1).hdm 268439552 [1, 2].length = some 4096 ∧ (memShadow 1).pair.shadow
     = true ∧ (memShadow 1).pair.role = 1) ∧
    ((memShadow 2).memPort = true ∧ (memShadow 2).hdm 268439552 [1, 2].length = some 4096 ∧ (memShadow 2).pair.shadow
     = true ∧ (memShadow 2).pair.role = 2) := by
  and_intros <;> decide +kernel

theorem test_MemoryEvents :
    (draining.mpk.ingress = [(4096, [5, 6]), (8192, [1])] ∧ draining.tierHeld 4096 = false ∧ (draining.ctlsOf 4096 [5,
     6].length).all draining.ctlOn = true) ∧
    (asleep.mpk.ingress = [(4096, [5, 6]), (8192, [1])] ∧ asleep.tierHeld 4096 = true) ∧
    (wearing.canon ∧ wearing.mayRetire 1 3 = true) := by
  and_intros <;> decide +kernel

theorem test_UnitFaults :
    (shadowP.inService = true ∧ 3 < 8) ∧
    (shadowP.inService = true ∧ 3 < 4) ∧
    (shadowP.inService = true) ∧
    (unitBase.canon ∧ unitBase.inService = true ∧ 0 < 32 ∧ BitVec.getLsbD unitBase.units.dieFenced 0 = false ∧
     unitBase.pair.shadow = false) ∧
    (unitBase.canon ∧ unitBase.inService = true ∧ 0 < 64 ∧ unitBase.units.fenced 0 = false ∧ unitBase.pair.shadow =
     false) ∧
    (unitBase.canon ∧ unitBase.tileMeets 8 = true ∧ unitBase.units.retiredSlots.contains 8 = false ∧
     unitBase.units.retiredClusters.contains (8 / 9) = false ∧ unitBase.units.fenced (8 / 9 / 4) = false ∧
     unitBase.units.tileOf 8 = none) := by
  and_intros <;> decide +kernel

theorem test_ClocksAndPower :
    (clkUp1.canon ∧ clkUp1.watching = true ∧ (true || false) = true) ∧
    (inHold.canon ∧ inHold.clk.hold = true ∧ inHold.dev.qualified = true) ∧
    (qualifying.dev.pwrGood = true ∧ qualifying.dev.phase ≠ Phase.off) ∧
    (pllUp.canon ∧ pllUp.dev.pwrGood = true ∧ 2 < 64 ∧ 0 < 2 ∧ (pllUp.fabric 2).pllLock.getLsbD 0 = true) ∧
    (pllDown.canon ∧ pllDown.mayLock 2 1 = true) ∧
    (treeBusy.canon ∧ treeBusy.dev.pwrGood = true ∧ 17 < 512 ∧ ((treeBusy.fabric (17 / 8)).tree (17 % 8)).switching =
     some (15, 0)) ∧
    (muxBusy1.canon ∧ muxBusy1.dev.pwrGood = true ∧ (1 = 1 ∧ 0 < 4 ∨ 1 = 3 ∧ 0 < 64) ∧ look 0 muxBusy1.clk.muxNext
     (muxKey 1 0) ≠ 0) ∧
    (clkUp1.canon ∧ clkUp1.dev.pwrGood = true ∧ 115 ≤ 115 ∧ clkUp1.pwr.inTrip = false) ∧
    (tripped.canon ∧ tripped.pwr.inTrip = true) ∧
    (base.dev.pwrGood = true) ∧
    (stepping1.dev.pwrGood = true ∧ 1 < 64 ∧ stepping1.clk.hold = false ∧ stepping1.pwr.inTrip = false ∧
     (stepping1.region 1).step = 1) ∧
    (stepping1.dev.pwrGood = true ∧ 5 < 64 ∧ stepping1.clk.hold = false ∧ stepping1.pwr.inTrip = false ∧
     (stepping1.region 5).step ≠ 1 ∧ (stepping1.region 5).locked = false) ∧
    (stepping1.canon ∧ stepping1.tilesRun = true ∧ 3 < 64 ∧ (stepping1.region 3).step = 2 ∧ stepping1.clamped 3 =
     false ∧ stepping1.between 3 = true) := by
  and_intros <;> decide +kernel

theorem test_FabricLoading :
    ((withLoad loadOk).canon ∧ (withLoad loadOk).load 1 = some loadOk ∧ loadOk.takesSegment = true) ∧
    ((withLoad loadBad).canon ∧ (withLoad loadBad).load 1 = some loadBad ∧ loadBad.takesSegment = true ∧
     (¬(loadBad.stream.length < (loadBad.segPlace loadBad.seg).fst + (loadBad.segPlace loadBad.seg).snd + 16 ∨
     loadBad.short = true ∧ loadBad.seg + 1 = loadBad.segments)) ∧ gcmOpen loadBad.key (leBytes 4 loadBad.seg ++
     zeroBytes 8) (loadBad.aad loadBad.seg) (slice loadBad.stream (loadBad.segPlace loadBad.seg).fst (loadBad.segPlace
     loadBad.seg).snd) (slice loadBad.stream ((loadBad.segPlace loadBad.seg).fst + (loadBad.segPlace loadBad.seg).snd)
     16) = none) ∧
    ((withLoad loadShort).canon ∧ (withLoad loadShort).load 1 = some loadShort ∧ loadShort.takesSegment = true ∧
     (loadShort.stream.length < (loadShort.segPlace loadShort.seg).fst + (loadShort.segPlace loadShort.seg).snd + 16 ∨
     loadShort.short = true ∧ loadShort.seg + 1 = loadShort.segments)) ∧
    ((withLoad loadNoRec).canon ∧ (withLoad loadNoRec).load 1 = some loadNoRec ∧ loadNoRec.sees = true ∧
     (loadNoRec.plain.length < 8 ∨ loadNoRec.recordOk = false)) ∧
    ((withLoad (loadStart 1 false)).canon ∧ (withLoad (loadStart 1 false)).load 1 = some (loadStart 1 false) ∧
     (loadStart 1 false).sees = true ∧ 8 ≤ (loadStart 1 false).plain.length ∧ (loadStart 1 false).recordOk = true ∧
     (loadStart 1 false).hasRecord = true ∧ (decide (fld (loadStart 1 false).plain (8 + fld (loadStart 1 false).plain
     4 4) 4 = crc32c (List.take (8 + fld (loadStart 1 false).plain 4 4) (loadStart 1 false).plain)) && true) = false) ∧
    ((withLoad (loadStart 0 true)).canon ∧ (withLoad (loadStart 0 true)).load 1 = some (loadStart 0 true) ∧ (loadStart
     0 true).sees = true ∧ 8 ≤ (loadStart 0 true).plain.length ∧ (loadStart 0 true).recordOk = true ∧ (loadStart 0
     true).hasRecord = true ∧ (decide (fld (loadStart 0 true).plain (8 + fld (loadStart 0 true).plain 4 4) 4 = crc32c
     (List.take (8 + fld (loadStart 0 true).plain 4 4) (loadStart 0 true).plain)) && true) = true) ∧
    ((starting 228 0).canon ∧ 2 < 64 ∧ (starting 228 0).mayAct 2 = true) ∧
    ((starting 228 3).canon ∧ 2 < 64 ∧ ((starting 228 3).fabric 2).startup.running = true) ∧
    (clearing2.canon ∧ 2 < 64 ∧ (clearing2.fabric 2).clearing = true) := by
  and_intros <;> decide +kernel

theorem test_RunningDesign :
    (design.canon ∧ design.designOn 2 = true ∧ 0 < 8 ∧ ((design.fabric 2).tree 0).runtime = true ∧ ((design.fabric
     2).tree 0).switching = none ∧ (¬(((design.fabric 2).tree 0).sel = (3 : BitVec 4).toNat ∧ ((design.fabric 2).tree
     0).div = (1 : BitVec 4).toNat))) ∧
    (design.canon ∧ design.elemRuns 2 (20 + 1) = true ∧ 1 < 3) ∧
    (design.canon ∧ design.dev.pwrGood = true ∧ 2 < 64 ∧ 1 < 3 ∧ design.elemOn 2 (20 + 1) = true ∧ ((design.fabric
     2).delay 1).tap ≠ ((design.fabric 2).delay 1).target) ∧
    (design.canon ∧ design.portOn 2 0 = true ∧ 0 < 8) ∧
    (design.canon ∧ design.portOn 2 (8 + 0) = true ∧ 0 < 8) ∧
    (design.canon ∧ design.cpOn 2 0 = true ∧ (design.fabric 2).cp 0 = none) ∧
    (design.canon ∧ design.dev.pwrGood = true ∧ 2 < 64 ∧ 1 < 4 ∧ design.elemOn 2 (16 + 1) = true ∧ (design.fabric
     2).cp 1 = some (true, 0)) := by
  and_intros <;> decide +kernel

theorem test_LanesAndLinks :
    (lanesOn.canon ∧ lanesOn.laneOn 1 = true ∧ lanesOn.designOn (2 * 1) = true ∧ (lanesOn.lane 1).runtime = true) ∧
    (lanesOn.canon ∧ lanesOn.laneOn 1 = true ∧ lanesOn.designOn (2 * 1) = true ∧ (lanesOn.lane 1).rxLock = true) ∧
    (lanesOn.canon ∧ lanesOn.laneOn 1 = true ∧ (lanesOn.lane 1).designIdle ≠ false) ∧
    (lanesOn.canon ∧ lanesOn.laneOn 1 = true ∧ (lanesOn.lane 1).rxLock = true) ∧
    (lanesOn.canon ∧ lanesOn.laneOn 3 = true ∧ BitVec.getLsbD lanesOn.units.retiredLanes 3 = false ∧ (lanesOn.lane
     3).rxLock = false) ∧
    (lanesOn.canon ∧ lanesOn.laneOn 3 = true) ∧
    (strait16.canon ∧ strait16.straitOn = true ∧ 19 < 32 ∧ (strait16.strLane 19).up = false ∧ (strait16.strLane
     19).rejoin = false) ∧
    (strait16.canon ∧ strait16.straitOn = true ∧ 20 < 32 ∧ (strait16.strLane 20).training = true ∧ (strait16.strLane
     20).step = 3) ∧
    (strait16.straitOn = true ∧ 16 ≤ strait16.lanesUp ∧ strait16.ingressRoom = true) ∧
    (strait16.canon ∧ strait16.straitOn = true ∧ 3 < 32 ∧ (strait16.strLane 3).up = true) ∧
    (trainable.mayTrain 4 = true) ∧
    (linkUp.cxl.up = true) ∧
    (linkUp.dev.pwrGood = true) := by
  and_intros <;> decide +kernel

theorem test_PairEvents :
    ((pairAs 1).hears = true ∧ (pairAs 1).pair.lostRole ≠ 2 ∧ (pairAs 1).pair.formed = true ∧ (pairAs 1).pair.role = 1
     ∧ (pairAs 1).pair.mine = [] ∧ (pairAs 1).pair.diverging = false ∧ (pairAs 1).tick.closed = false) ∧
    (pairDone.hears = true ∧ pairDone.pair.lostRole ≠ 2 ∧ pairDone.pair.shadow = true ∧ pairDone.pair.role = 1 ∧
     pairDone.pair.mine = [] ∧ pairDone.pair.diverging = false ∧ pairDone.tick.closed = true ∧ pairDone.tick.settled =
     false ∧ pairMsg7.done = pairDone.tick.count ∧ pairMsg7.again = pairDone.pair.rerun ∧ pairMsg7.digest =
     pairDone.tickDigest) ∧
    (lostAs2.hears = true ∧ lostAs2.pair.lostRole = 2) ∧
    ((pairAs 2).hears = true ∧ (pairAs 2).pair.shadow = true ∧ (pairAs 2).pair.role = 2 ∧ fwdWrite.seq = (pairAs
     2).pair.seqHeld + 1 ∧ (pairAs 2).inputRoom fwdWrite.input = true) ∧
    (orderMine.canon ∧ orderMine.pair.shadow = true) ∧
    (orderTheirs.canon ∧ orderTheirs.pair.shadow = true ∧ (orderTheirs.pair.mine.any fun o => o.mb == 5 && o.go == 1)
     = false ∧ (orderTheirs.pair.theirs.any fun o => o.mb == 5 && o.go == 1) = true) ∧
    ((window 1 true true).dev.pwrGood = true ∧ (window 1 true true).pair.formed = true ∧ (window 1 true true).clk.hold
     = false ∧ (window 1 true true).pair.lastWindow ≠ some (false, true)) ∧
    ((window 1 true true).dev.pwrGood = true ∧ (window 1 true true).pair.formed = true ∧ (window 1 true true).clk.hold
     = false ∧ (window 1 true true).pair.lastWindow = some (true, true)) ∧
    ((pairAs 1).canon ∧ (pairAs 1).hears = true ∧ (pairAs 1).pair.formed = true) ∧
    ((joining 1 1).pair.role = 1 ∧ (joining 1 1).pair.phase = 1 ∧ (joining 1 1).pair.phase ≠ 0) ∧
    ((joining 1 2).pair.role = 1 ∧ (joining 1 2).pair.phase = 2 ∧ (joining 1 2).mayHold = true) ∧
    ((joining 1 3).pair.role = 1 ∧ (joining 1 3).pair.phase = 3) ∧
    (joinBig.pair.role = 1 ∧ joinBig.pair.phase = 2 ∧ joinBig.mayHold = false) ∧
    (unformed.hears = true ∧ unformed.pair.role = 0 ∧ unformed.pair.mode = 1 ∧ unformed.sess = [] ∧ unformed.dev.stage
     = 2 ∧ unformed.pair.phase = 0) ∧
    ((joining 3 3).pair.role = 3 ∧ (joining 3 3).pair.phase = 3) ∧
    (ckpt.session 261 = some sesAlloc ∧ ckpt.pair.formed = true ∧ ckpt.pair.waits = false ∧ ckpt.pair.mode = 2 ∧
     ckpt.pair.role = 1 ∧ sesAlloc.running = none ∧ ckpt.hears = true) := by
  and_intros <;> decide +kernel

theorem test_SpdmRequests :
    (identified.doeOn = true ∧ identified.spdmOn = true ∧ 1 ≤ identified.sec.spdm ∧ 2 ≤ identified.sec.spdm) ∧
    (noIdentity.doeOn = true ∧ noIdentity.spdmOn = true ∧ noIdentity.sec.idKey = none) ∧
    (identified.doeOn = true ∧ identified.spdmOn = true ∧ identified.sec.idKey = some 7 ∧ 3 ≤ identified.sec.spdm ∧
     identified.flash.chain ≠ []) := by
  and_intros <;> decide +kernel

theorem test_RootOfTrustAndSeals :
    (identified.mayEnrol = true) ∧
    ((enrolling pubG).mayEnrol = true ∧ (enrolling pubG).bootReads = false ∧ (enrolling pubG).sec.rbKey ≠ []) ∧
    (booting.bootReads = true ∧ booting.flash.enrolment = some pubG) ∧
    (advancing.mayAdvance = true ∧ advancing.flash.enrolment = some pubG) ∧
    ((sealBusy [9]).envelopeFault (sealBusy [9]).envelope = some 1 ∧ (sealBusy [9]).sealing 1 = true ∧ (sealBusy
     [9]).sealing 2 = true ∧ (sealBusy [9]).sealing 3 = true) ∧
    ((sealBusy envErase).envelopeFault (sealBusy envErase).envelope = none ∧ (sealBusy envErase).sealing 2 = true) ∧
    ((sealBusy envRemove).envelopeFault (sealBusy envRemove).envelope = none ∧ (sealBusy envRemove).sealing 3 = true) ∧
    ((sealBusy envKey).envelopeFault (sealBusy envKey).envelope = none ∧ (sealBusy envKey).sealing 1 = true) := by
  and_intros <;> decide +kernel

theorem test_PowerAndBoot :
    (off0.dev.pwrGood = false ∧ off0.dev.uvHold = false) ∧
    (base.dev.pwrGood = true) ∧
    ((bootRom (some fwGood) none).mayBoot = true) ∧
    ((bootRom none none).mayBoot = true ∧ (∀ (j : FwImage), (bootRom none none).flash.main = some j → (bootRom none
     none).fwBoots j = false) ∧ (∀ (j : FwImage), (bootRom none none).flash.staged = some j → (bootRom none
     none).fwBoots j = false)) ∧
    (atStage1.canon ∧ atStage1.dev.pwrGood = true ∧ atStage1.dev.phase = .stage1 ∧ atStage1.clk.hold = false ∧
     (atStage1.units = { } ∧ (36, 4) ∈ fails1.slotFail ∧ 3 ∈ fails1.dieFail ∧ 9 ∈ fails1.regionFail)) ∧
    (atStage2.dev.pwrGood = true ∧ atStage2.dev.phase = .open1 ∧ atStage2.dev.pkgFault = false ∧ atStage2.clk.hold =
     false ∧ atStage2.flashNamed = false ∧ atStage2.fcfg.flashRan = false ∧ atStage2.loads = [] ∧ lane3Fails.partner =
     none) ∧
    (atStage2Flash.dev.pwrGood = true ∧ atStage2Flash.dev.phase = Phase.open1 ∧ atStage2Flash.dev.pkgFault = false ∧
     atStage2Flash.clk.hold = false ∧ atStage2Flash.flashNamed = true ∧ atStage2Flash.fcfg.flashRan = false) := by
  and_intros <;> decide +kernel

theorem test_BoardManagement :
    (base.dev.pwrGood = true) ∧
    ((base.dev.pwrGood = false ∨ false = false)) ∧
    (base.dev.pwrGood = true ∧ (91 ≠ 90 ∨ base.dev.stage ≠ 2 ∨ base.sess ≠ [] ∨ base.pair.role ≠ 0) ∧ (91 ≠ 90 ∨
     base.dev.stage ≠ 3) ∧ 91 ≠ 165 ∧ (base.smbSettings = false ∨ (1 : BitVec 16).toNat % 32 ≠ 0 ∨ 8192 ≤ (1 : BitVec
     16).toNat ∨ ([] : List Byte).length ≠ 32) ∧ (base.smbSettings = false ∨ 91 ≠ 90)) ∧
    (idle2.canon ∧ idle2.dev.pwrGood = true ∧ idle2.dev.stage = 2 ∧ idle2.sess = [] ∧ idle2.pair.role = 0) ∧
    (parked1.canon ∧ parked1.dev.pwrGood = true ∧ parked1.dev.stage = 3) ∧
    (base.dev.pwrGood = true ∧ base.smbSettings = true ∧ (64 : BitVec 16).toNat % 32 = 0 ∧ (64 : BitVec 16).toNat <
     8192 ∧ (keyByte 2 32).length = 32) ∧
    (base.dev.pwrGood = true ∧ base.smbSettings = true) := by
  and_intros <;> decide +kernel

end Sys2Proof.Tests
end

section
/-! PROOFS. A mailbox claimed, released and lapsed (R276 to R278, R296): the claim word's count and tag, each event of
the claim word case by case, and the statement O12 from them. -/

namespace Sys2Proof.Machine

/-- A mailbox's update matters only at the mailbox as it stands. -/
theorem State.setMb_congr {s : State} {n : Nat} {f g : Mailbox → Mailbox} (h : f (s.mb n) = g (s.mb n)) :
    s.setMb n f = s.setMb n g := by
  have hlook : f (look {} s.mbx n) = g (look {} s.mbx n) := h
  simp only [State.setMb, modify, hlook]

theorem State.setMb_mb_self {s : State} (n : Nat) (f : Mailbox → Mailbox) (hs : s.canon) :
    (s.setMb n f).mb n = f (s.mb n) := look_put_self _ _ _ _ hs.left

/-- Only mailbox 255 ever passes over a count, and the count it passes to is 0 (R276). -/
theorem nextClaim_eq (count : Nat) {n : Nat} (hn : n < 256) :
    nextClaim count n =
      if n = 255 ∧ (count + 1) % 2 ^ 24 = 2 ^ 24 - 1 then 0 else (count + 1) % 2 ^ 24 := by
  have hiff : (count + 1) % 2 ^ 24 * 256 + n = taken ↔ n = 255 ∧ (count + 1) % 2 ^ 24 = 2 ^ 24 - 1 := by
    unfold taken; omega
  simp only [nextClaim, hiff]
  split
  · omega
  · rfl

theorem nextClaim_tag_ne_taken (count : Nat) {n : Nat} (hn : n < 256) : nextClaim count n * 256 + n ≠ taken := by
  rw [nextClaim_eq count hn]
  unfold taken
  split <;> omega

theorem State.claimable_iff (s : State) (n : Nat) :
    s.claimable n = true ↔ s.serving = true ∧ 1 ≤ n ∧ n < 256 ∧ (s.mb n).claimed = false := by
  simp [State.claimable, and_assoc]

theorem Mailbox.idleClaim_iff (m : Mailbox) :
    m.idleClaim = true ↔ m.claimed = true ∧ m.sess = 0 ∧ m.busy = none := by
  simp [Mailbox.idleClaim, and_assoc]

/-- The state with what a claim read returned on its interface. -/
def State.answerClaim (s : State) (v : Nat) : State := { s with out := { s.out with claimTag := v } }

@[simp] theorem State.answerClaim_mb (s : State) (v n : Nat) : (s.answerClaim v).mb n = s.mb n := rfl

/-- A read that claims (R276): the owner tag answers it. -/
theorem exec_claimRead_of_claimable {s : State} {n : Nat} (hr : s.reachable = true) (hc : s.claimable n = true) :
    exec (.claimRead n) s =
      .next ((s.setMb n (fun m => m.claim n)).answerClaim (nextClaim (s.mb n).claims n * 256 + n)) := by
  change execClaimRead n s = _
  simp [execClaimRead, State.readClaim, State.answerClaim, hr, hc, Mailbox.claim]

/-- A read that cannot claim (R276, R278, R296): all-ones answers it. -/
theorem exec_claimRead_of_not_claimable {s : State} {n : Nat} (hr : s.reachable = true)
    (hc : ¬ s.claimable n = true) : exec (.claimRead n) s = .next (s.answerClaim taken) := by
  change execClaimRead n s = _
  simp [execClaimRead, State.readClaim, State.answerClaim, hr, hc]

/-- A release frees a mailbox only by its owner tag, and only an idle claim (R277). -/
theorem exec_claimRelease (s : State) (n : Nat) (tag : Word) :
    exec (.claimRelease n tag) s = .next (
      if s.reachable = true ∧ s.serving = true ∧ (s.mb n).idleClaim = true ∧ (s.mb n).tag = tag.toNat
      then s.setMb n Mailbox.freed else s) := by
  change execClaimRelease n tag s = _
  cases hr : s.reachable <;> simp [execClaimRelease, State.writeClaim, hr, and_assoc]

/-- A lapse frees an idle claim on which no session was opened (R277). -/
theorem exec_claimLapse (s : State) (n : Nat) :
    exec (.claimLapse n) s = .next (
      if (s.mb n).idleClaim = true ∧ (s.mb n).opened = false then s.setMb n Mailbox.freed else s) := by
  change execClaimLapse n s = _
  simp only [execClaimLapse, Bool.and_eq_true, Bool.not_eq_true']
  split <;> rfl

/-- Of two reads at once the first claims the mailbox and the second finds it claimed (R276). -/
theorem step_claimRead_twice {s : State} {n : Nat} {rest : List Instr} (hs : s.canon) (hr : s.reachable = true)
    (hc : s.claimable n = true) (hp : s.pending = .claimRead n :: .claimRead n :: rest) :
    ∃ t u, step s = .next t ∧ t.out.claimTag = nextClaim (s.mb n).claims n * 256 + n ∧
      step t = .next u ∧ u.out.claimTag = taken := by
  let q : State := { s with pending := .claimRead n :: rest }
  let t : State := (q.setMb n (fun m => m.claim n)).answerClaim (nextClaim (s.mb n).claims n * 256 + n)
  have first : step s = .next t := by
    simp only [step, hp]
    exact exec_claimRead_of_claimable (s := q) hr hc
  have claimed : (t.mb n).claimed = true := by
    simp only [t, State.answerClaim_mb, State.setMb_mb_self (s := q) n _ hs, Mailbox.claim]
  have second : step t = exec (.claimRead n) { t with pending := rest } := rfl
  refine ⟨t, _, first, rfl, second.trans (exec_claimRead_of_not_claimable hr fun h => ?_), rfl⟩
  obtain ⟨-, -, -, unclaimed⟩ := (State.claimable_iff _ n).mp h
  exact absurd (claimed.symm.trans unclaimed) (by decide)

/-- Settles O12, from what each event of the claim word does. -/
theorem claims : Obligations.Claims := by
  unfold Obligations.Claims
  refine ⟨?claim, ?twice, ?notClaimable, ?release, ?releaseIgnored, ?lapse⟩
  case claim =>
    intro s n hr hv h1 hn hu c₀ c
    have hc : nextClaim (s.mb n).claims n = c := nextClaim_eq _ hn
    clear_value c
    rw [exec_claimRead_of_claimable hr ((s.claimable_iff n).mpr ⟨hv, h1, hn, hu⟩), hc, Nat.mul_comm c]
    refine congrArg (fun t : State => Host.Outcome.next (t.answerClaim (256 * c + n))) (State.setMb_congr ?_)
    simp only [Mailbox.claim, hc, Nat.mul_comm c]
  case twice =>
    intro s n rest hs hr hv h1 hn hu hp
    obtain ⟨t, u, hst, htag, htu, hall⟩ :=
      step_claimRead_twice hs hr ((s.claimable_iff n).mpr ⟨hv, h1, hn, hu⟩) hp
    exact ⟨t, u, hst, by omega, fun h => nextClaim_tag_ne_taken _ hn (htag.symm.trans h), htu, hall⟩
  case notClaimable =>
    intro s n hr hno
    refine exec_claimRead_of_not_claimable hr fun h => ?_
    obtain ⟨hv, h1, -, hu⟩ := (s.claimable_iff n).mp h
    rcases hno with hno | hno | hno
    · exact absurd (hv.symm.trans hno) (by decide)
    · omega
    · exact absurd (hu.symm.trans hno) (by decide)
  case release =>
    intro s n tag hr hv hc hs hb
    have idle := (s.mb n).idleClaim_iff.mpr ⟨hc, hs, hb⟩
    simp only [exec_claimRelease, hr, hv, idle, true_and]
    rfl
  case releaseIgnored =>
    intro s n tag hno
    rw [exec_claimRelease, if_neg]
    rintro ⟨-, -, idle, -⟩
    obtain ⟨-, hs, hb⟩ := (s.mb n).idleClaim_iff.mp idle
    exact hno.elim (· hs) (· hb)
  case lapse =>
    intro s n hc hs hb
    have idle := (s.mb n).idleClaim_iff.mpr ⟨hc, hs, hb⟩
    rw [exec_claimLapse]
    cases ho : (s.mb n).opened
    · simp only [idle, and_self, if_true]
      rfl
    · simp

end Sys2Proof.Machine
end

section
/-! PROOFS. Flags and their event counters (R375, R376): the words that lists of flags make, what a register reads after
its flags were written, what the counters read after hardware set flags, and the statement O9 from them. -/

namespace Sys2Proof.Machine

/-- A change at one key is what that key then reads, in a table in canonical form. -/
theorem look_modify_self {α : Type} [DecidableEq α] {d : α} {t : Tab α} (i : Nat) (f : α → α)
    (h : tabWf d t = true) : look d (modify d t i f) i = f (look d t i) := look_put_self d t i _ h

theorem look_modify_ne {α : Type} [DecidableEq α] (d : α) (t : Tab α) {i j : Nat} (f : α → α) (hij : j ≠ i) :
    look d (modify d t i f) j = look d t j := look_put_ne d t i j _ hij

/-- What holds of the default and of every listed value holds of every value read. -/
theorem look_of_forall {α : Type} {P : α → Prop} {d : α} {t : Tab α} (hd : P d) (ht : ∀ p ∈ t, P p.2) (i : Nat) :
    P (look d t i) := by
  induction t with
  | nil => exact hd
  | cons p r ih =>
    simp only [look]
    split
    · exact ht p List.mem_cons_self
    · exact ih fun q hq => ht q (List.mem_cons_of_mem p hq)

section Units
variable {s : State} (hs : s.canon)
include hs

theorem State.tabWf_streams (r : Nat) : tabWf {} (s.engine r).streams = true := by
  obtain ⟨-, -, -, -, -, -, -, -, -, -, -, -, -, -, -, -, -, streams, -⟩ := hs
  exact look_of_forall (P := fun e : Engine => tabWf {} e.streams = true) rfl streams r

theorem State.tabWf_ports (r : Nat) : tabWf {} (s.fabric r).ports = true := by
  obtain ⟨-, -, -, -, -, -, -, -, -, -, -, -, -, -, -, -, -, -, fabric⟩ := hs
  exact look_of_forall (P := fun f : FabRegion => tabWf {} f.ports = true) rfl (fun p hp => (fabric p hp).left) r

theorem State.modify_eng_engine_self (r : Nat) (f : Engine → Engine) :
    look {} (modify {} s.eng r f) r = f (s.engine r) := by
  obtain ⟨-, -, -, -, eng, -⟩ := hs
  exact look_modify_self r f eng

theorem State.setStream_stream_self (r n : Nat) (f : Stream → Stream) :
    (s.setStream r n f).stream r n = f (s.stream r n) := by
  simp only [State.stream, State.engine, State.setStream, State.modify_eng_engine_self hs]
  exact look_modify_self n f (State.tabWf_streams hs r)

theorem State.setTileRegs_tile_self (i : Nat) (f : TileRegs → TileRegs) :
    (s.setTileRegs i f).tile i = { s.tile i with r := f (s.tile i).r } := by
  obtain ⟨-, -, tiles, -⟩ := hs
  exact look_put_self _ _ _ _ tiles

theorem State.setCtl_memCtl_self (n : Nat) (f : MemCtl → MemCtl) : (s.setCtl n f).memCtl n = f (s.memCtl n) := by
  obtain ⟨-, -, -, -, -, -, ctl, -⟩ := hs
  exact look_modify_self n f ctl

theorem State.setFab_fabric_self (r : Nat) (f : FabRegion → FabRegion) :
    (s.setFab r f).fabric r = f (s.fabric r) := by
  obtain ⟨-, -, -, -, -, -, -, fab, -⟩ := hs
  exact look_modify_self r f fab

theorem State.setPort_port_self (r p : Nat) (f : Port → Port) :
    ((s.setPort r p f).fabric r).port p = f ((s.fabric r).port p) := by
  rw [State.setPort, State.setFab_fabric_self hs]
  exact look_modify_self p f (State.tabWf_ports hs r)

theorem State.setLane_lane_self (l : Nat) (f : FabLane → FabLane) : (s.setLane l f).lane l = f (s.lane l) := by
  obtain ⟨-, -, -, -, -, -, -, -, ftx, -⟩ := hs
  exact look_modify_self l f ftx

theorem State.setStrLane_strLane_self (l : Nat) (f : StrLane → StrLane) :
    (s.setStrLane l f).strLane l = f (s.strLane l) := by
  obtain ⟨-, -, -, -, -, -, -, -, -, lanes, -⟩ := hs
  exact look_modify_self l f lanes

end Units

theorem getLsbD_bitW (k : Nat) (b : Bool) {i : Nat} (hi : i < 32) : (bitW k b).getLsbD i = (b && k == i) := by
  cases b
  · simp [bitW]
  · rw [bitW, if_pos rfl, BitVec.getLsbD_ofNat, Nat.testBit_two_pow]
    simp [hi, Bool.beq_eq_decide_eq]

theorem getLsbD_foldl_bitW (l : List (Nat × Bool)) {i : Nat} (hi : i < 32) : ∀ w : Word,
    (l.foldl (fun w p => w ||| bitW p.1 p.2) w).getLsbD i = (w.getLsbD i || l.any fun p => p.2 && p.1 == i) := by
  induction l with
  | nil => simp
  | cons p r ih =>
    intro w
    rw [List.foldl_cons, ih, BitVec.getLsbD_or, getLsbD_bitW _ _ hi, List.any_cons, Bool.or_assoc]

/-- A word made of flags reads 1 where a raised flag stands. -/
theorem getLsbD_bitsW (l : List (Nat × Bool)) {i : Nat} (hi : i < 32) :
    (bitsW l).getLsbD i = l.any fun p => p.2 && p.1 == i := by
  simp [bitsW, getLsbD_foldl_bitW l hi]

/-- The word that flags at given positions make, when each has its bit of `w`, is `w` at those positions. -/
theorem bitsW_getLsbD (w : Word) (l : List Nat) :
    bitsW (l.map fun i => (i, w.getLsbD i)) = w &&& bitsW (l.map fun i => (i, true)) := by
  refine BitVec.eq_of_getLsbD_eq fun i hi => ?_
  rw [BitVec.getLsbD_and, getLsbD_bitsW _ hi, getLsbD_bitsW _ hi, Bool.eq_iff_iff]
  simp only [List.any_map, List.any_eq_true, Function.comp_apply, Bool.and_eq_true, beq_iff_eq, true_and]
  constructor
  · rintro ⟨k, hk, hw, rfl⟩
    exact ⟨hw, k, hk, rfl⟩
  · rintro ⟨hw, k, hk, rfl⟩
    exact ⟨k, hk, hw, rfl⟩

/-- A word made of flags has no bit but at their positions. -/
theorem bitsW_and_positions (l : List (Nat × Bool)) {ps : List Nat} (positions : ps = l.map Prod.fst) :
    bitsW l &&& bitsW (ps.map fun i => (i, true)) = bitsW l := by
  subst positions
  refine BitVec.eq_of_getLsbD_eq fun i hi => ?_
  rw [BitVec.getLsbD_and, getLsbD_bitsW _ hi, getLsbD_bitsW _ hi, Bool.and_eq_left_iff_imp]
  simp only [List.any_map, List.any_eq_true, Function.comp_apply, Bool.and_eq_true, beq_iff_eq, true_and]
  rintro ⟨p, hp, -, rfl⟩
  exact ⟨p, hp, rfl⟩

theorem bitW_getLsbD (w : Word) (i : Nat) : bitW i (w.getLsbD i) = w &&& bitW i true := by
  simpa [bitsW] using bitsW_getLsbD w [i]

theorem bitW_and_position (i : Nat) (b : Bool) : bitW i b &&& bitW i true = bitW i b := by
  simpa [bitsW] using bitsW_and_positions [(i, b)] rfl

/-- A four-bit field taken out of a word and put back is the word at the field's bits. -/
theorem nibble_put_back (w : Word) (k : Nat) :
    ((w >>> k).setWidth 4).setWidth 32 <<< k = w &&& ((15 : BitVec 4).setWidth 32 <<< k) := by
  refine BitVec.eq_of_getLsbD_eq fun i hi => ?_
  by_cases hk : i < k
  · simp [hk]
  · have fifteen : (15 : BitVec 4) = BitVec.allOnes 4 := rfl
    have back : k + (i - k) = i := by omega
    simp only [BitVec.getLsbD_and, BitVec.getLsbD_shiftLeft, BitVec.getLsbD_setWidth, BitVec.getLsbD_ushiftRight, fifteen,
      BitVec.getLsbD_allOnes, back]
    grind

theorem nibble_and_field (x : BitVec 4) (k : Nat) :
    (x.setWidth 32 <<< k) &&& ((15 : BitVec 4).setWidth 32 <<< k) = x.setWidth 32 <<< k := by
  rw [← BitVec.shiftLeft_and_distrib, ← BitVec.setWidth_and]
  exact congrArg (fun y : BitVec 4 => y.setWidth 32 <<< k) BitVec.and_allOnes

theorem or_and_or {a b m n : Word} (ha : a &&& m = a) (hb : b &&& n = b) : (a ||| b) &&& (m ||| n) = a ||| b := by
  refine BitVec.eq_of_getLsbD_eq fun i _ => ?_
  have hai := congrArg (BitVec.getLsbD · i) ha
  have hbi := congrArg (BitVec.getLsbD · i) hb
  simp only [BitVec.getLsbD_and, BitVec.getLsbD_or] at hai hbi ⊢
  grind

/-- The bits of a word that a register keeps when its flags are given that word: its flag bits, and in an event pending
word every bit. -/
def Reg.kept : Reg → Word
  | .evPend _ => BitVec.allOnes 32
  | g => g.flagMask

theorem Reg.flagMask_and_kept (g : Reg) : g.flagMask &&& g.kept = g.flagMask := by
  cases g with
  | evPend => exact BitVec.and_allOnes
  | _ => exact BitVec.and_self

/-- The flags of a register stand in the bits it keeps. -/
theorem State.flags_and_kept (s : State) (g : Reg) : s.flags g &&& g.kept = s.flags g := by
  cases g with
  | devStatus | railStatus | strmStatus | arrOvf | seqErr | rtStatus | memPkg | fabStatus | cfgFail | strLane =>
    exact bitW_and_position _ _
  | tickStatus => exact bitsW_and_positions _ (ps := [31, 30, 29]) rfl
  | clkStatus | pwrStatus => exact bitsW_and_positions _ (ps := [30, 29, 28, 27]) rfl
  | strmErr => exact bitsW_and_positions _ (ps := [31, 30, 29, 28, 27, 26]) rfl
  | arrStatus => exact bitsW_and_positions _ (ps := [30, 29]) rfl
  | memStatus => exact bitsW_and_positions _ (ps := [29, 25]) rfl
  | portErr => exact bitsW_and_positions _ (ps := [31, 30]) rfl
  | cfg => exact bitsW_and_positions _ (ps := [31, 30, 29, 28, 27, 26, 25]) rfl
  | cxlStatus => exact bitsW_and_positions _ (ps := [27, 26, 25]) rfl
  | strStatus | secStatus | mbStatus => exact bitsW_and_positions _ (ps := [28, 27]) rfl
  | ftxStatus => exact bitsW_and_positions _ (ps := [27, 26]) rfl
  | pairState => exact bitsW_and_positions _ (ps := [26, 25, 24, 23, 21, 20]) rfl
  | strmLate | evPend => exact BitVec.and_allOnes
  | cpErr => exact nibble_and_field _ 28
  | seqStatus => exact or_and_or (bitsW_and_positions _ (ps := [28, 27, 26]) rfl) (nibble_and_field _ 20)
  | _ => exact BitVec.and_zero

/-- A register given flags reads them, in the bits it keeps. -/
theorem State.flags_putFlags {s : State} (hs : s.canon) (g : Reg) (w : Word) :
    (s.putFlags g w).flags g = w &&& g.kept := by
  cases g with
  | devStatus | railStatus | rtStatus | memPkg | cfgFail => exact bitW_getLsbD w _
  | tickStatus => exact bitsW_getLsbD w [31, 30, 29]
  | clkStatus | pwrStatus => exact bitsW_getLsbD w [30, 29, 28, 27]
  | cfg => exact bitsW_getLsbD w [31, 30, 29, 28, 27, 26, 25]
  | cxlStatus => exact bitsW_getLsbD w [27, 26, 25]
  | strStatus | secStatus => exact bitsW_getLsbD w [28, 27]
  | pairState => exact bitsW_getLsbD w [26, 25, 24, 23, 21, 20]
  | strmLate r =>
    simp only [State.flags, State.putFlags, State.engine, State.modify_eng_engine_self hs]
    exact BitVec.and_allOnes.symm
  | strmStatus r n =>
    simp only [State.flags, State.putFlags, State.setStream_stream_self hs]
    exact bitW_getLsbD w _
  | strmErr r n =>
    simp only [State.flags, State.putFlags, State.setStream_stream_self hs]
    exact bitsW_getLsbD w [31, 30, 29, 28, 27, 26]
  | arrStatus i =>
    simp only [State.flags, State.putFlags, State.setTileRegs_tile_self hs]
    exact bitsW_getLsbD w [30, 29]
  | arrOvf i =>
    simp only [State.flags, State.putFlags, State.setTileRegs_tile_self hs]
    exact bitW_getLsbD w _
  | seqStatus i =>
    simp only [State.flags, State.putFlags, State.setTileRegs_tile_self hs, nibble_put_back]
    exact (congrArg (· ||| _) (bitsW_getLsbD w [28, 27, 26])).trans BitVec.and_or_distrib_left.symm
  | seqErr i =>
    simp only [State.flags, State.putFlags, State.setTileRegs_tile_self hs]
    exact bitW_getLsbD w _
  | memStatus n =>
    simp only [State.flags, State.putFlags, State.setCtl_memCtl_self hs]
    exact bitsW_getLsbD w [29, 25]
  | fabStatus r =>
    simp only [State.flags, State.putFlags, State.setFab_fabric_self hs]
    exact bitW_getLsbD w _
  | portErr r p =>
    simp only [State.flags, State.putFlags, State.setPort_port_self hs]
    exact bitsW_getLsbD w [31, 30]
  | cpErr r =>
    simp only [State.flags, State.putFlags, State.setFab_fabric_self hs]
    exact nibble_put_back w 28
  | strLane l =>
    simp only [State.flags, State.putFlags, State.setStrLane_strLane_self hs]
    exact bitW_getLsbD w _
  | ftxStatus l =>
    simp only [State.flags, State.putFlags, State.setLane_lane_self hs]
    exact bitsW_getLsbD w [27, 26]
  | mbStatus n =>
    simp only [State.flags, State.putFlags, State.setMb_mb_self _ _ hs]
    exact bitsW_getLsbD w [28, 27]
  | evPend n =>
    simp only [State.flags, State.putFlags, State.setMb_mb_self _ _ hs]
    exact BitVec.and_allOnes.symm
  | _ => exact BitVec.and_zero.symm

theorem mem_bitsOfWord {w : Word} {i : Nat} (hi : i < 32) : i ∈ bitsOfWord w ↔ w.getLsbD i = true := by
  simp [bitsOfWord, hi]

theorem nodup_bitsOfWord (w : Word) : (bitsOfWord w).Nodup := List.nodup_range.filter _

/-- Each of a list of counters goes up once, modulo 2^32, and the register's other counters keep their values. -/
theorem look_bumpFlags (key i : Nat) {bits : List Nat} (distinct : bits.Nodup) : ∀ {t : Tab Nat}, tabWf 0 t = true →
    look 0 (bumpFlags t key bits) (key * 32 + i) =
      if i ∈ bits then (look 0 t (key * 32 + i) + 1) % 2 ^ 32 else look 0 t (key * 32 + i) := by
  induction bits with
  | nil => intros; rfl
  | cons b r ih =>
    intro t ht
    obtain ⟨fresh, rest⟩ := List.nodup_cons.mp distinct
    rw [bumpFlags, ih rest (tabWf_modify _ _ _ _ ht)]
    by_cases hb : i = b
    · subst hb
      rw [if_neg fresh, if_pos List.mem_cons_self, look_modify_self _ _ ht]
    · rw [look_modify_ne _ _ _ (by omega)]
      simp only [List.mem_cons, hb, false_or]

/-- The counters after hardware set the flags of a word in one cycle (R376). -/
theorem State.look_bumpFlags_bitsOfWord {s : State} (hs : s.canon) (g : Reg) (m : Word) {i : Nat} (hi : i < 32) :
    look 0 (bumpFlags s.flagCnt g.key (bitsOfWord m)) (g.key * 32 + i) =
      if m.getLsbD i then (s.flagCount g i + 1) % 2 ^ 32 else s.flagCount g i := by
  obtain ⟨-, -, -, -, -, -, -, -, -, -, counters, -⟩ := hs
  simp only [look_bumpFlags g.key i (nodup_bitsOfWord m) counters, mem_bitsOfWord hi, State.flagCount]

/-- The flags of a register do not lie in the counters. -/
theorem State.flags_withCounters (s : State) (c : Tab Nat) (g : Reg) :
    ({ s with flagCnt := c } : State).flags g = s.flags g := by
  cases g <;> rfl

/-- Settles O9: what a register keeps of the word given it, and what its counters read after. -/
theorem softwareClearsFlags : Obligations.SoftwareClearsFlags := by
  unfold Obligations.SoftwareClearsFlags
  intro s g w hw hs raised
  refine ⟨?flags, fun i hi => ?counters⟩
  case flags =>
    have cleared : (s.flags g &&& ~~~ w) &&& g.kept = s.flags g &&& ~~~ w := by
      rw [BitVec.and_assoc, BitVec.and_comm (~~~ w), ← BitVec.and_assoc, State.flags_and_kept]
    have raised_kept : raised &&& g.kept = raised := by
      rw [BitVec.and_assoc, Reg.flagMask_and_kept]
    calc (s.w1c g w hw).flags g
        = (s.putFlags g ((s.flags g &&& ~~~ w) ||| raised)).flags g := State.flags_withCounters _ _ g
      _ = ((s.flags g &&& ~~~ w) ||| raised) &&& g.kept := State.flags_putFlags hs g _
      _ = (s.flags g &&& ~~~ w) ||| raised := by rw [BitVec.and_or_distrib_right, cleared, raised_kept]
  case counters =>
    rw [← State.look_bumpFlags_bitsOfWord hs g raised hi, State.flagCount, State.w1c, State.putFlags_flagCnt]

end Sys2Proof.Machine
end

section
/-! PROOFS. What every command keeps: the queue, and the canonical form of every table (`Keeps`), proved for each state
operation and each part of a command's meaning, in the order of their definitions. -/

namespace Sys2Proof.Machine

/-- The tables of a state with streams, and of one with ports, trees, delay lines and control ports, in canonical form. -/
def Engine.wf (e : Engine) : Prop := tabWf {} e.streams = true

def FabRegion.wf (f : FabRegion) : Prop :=
  tabWf {} f.ports = true ∧ tabWf {} f.trees = true ∧ tabWf {} f.delays = true ∧ tabWf none f.cps = true

/-- What the queue and the canonical form are about: the waiting commands and the tables. -/
structure Tables where
  pending : List Instr
  mbx : Tab Mailbox
  regions : Tab Region
  tiles : Tab Tile
  bufs : Tab ClusterBuf
  eng : Tab Engine
  mem : Mem
  ctl : Tab MemCtl
  fab : Tab FabRegion
  ftx : Tab FabLane
  lanes : Tab StrLane
  flagCnt : Tab Nat
  place : Tab (List Nat)
  gateRegion : Tab Word
  gateIsle : Tab Word
  mux : Tab Nat
  muxNext : Tab Nat
  cdig : Tab DWord

def State.tables (s : State) : Tables :=
  ⟨s.pending, s.mbx, s.regions, s.tiles, s.bufs, s.eng, s.mem, s.ctl, s.fab, s.ftx, s.strait.lanes, s.flagCnt,
    s.units.place, s.clk.gateRegion, s.clk.gateIsle, s.clk.mux, s.clk.muxNext, s.tick.cdig⟩

/-- Each table in canonical form. -/
structure Tables.Wf (t : Tables) : Prop where
  mbx : tabWf {} t.mbx = true
  regions : tabWf {} t.regions = true
  tiles : tabWf {} t.tiles = true
  bufs : tabWf {} t.bufs = true
  eng : tabWf {} t.eng = true
  mem : memWf t.mem = true
  ctl : tabWf {} t.ctl = true
  fab : tabWf {} t.fab = true
  ftx : tabWf {} t.ftx = true
  lanes : tabWf {} t.lanes = true
  flagCnt : tabWf 0 t.flagCnt = true
  place : tabWf (List.range 8) t.place = true
  gateRegion : tabWf 0 t.gateRegion = true
  gateIsle : tabWf 0 t.gateIsle = true
  mux : tabWf 0 t.mux = true
  muxNext : tabWf 0 t.muxNext = true
  cdig : tabWf 0 t.cdig = true
  streams : ∀ p ∈ t.eng, p.2.wf
  fabric : ∀ p ∈ t.fab, p.2.wf

theorem State.canon_iff (s : State) : s.canon ↔ s.tables.Wf :=
  ⟨fun ⟨h1, h2, h3, h4, h5, h6, h7, h8, h9, h10, h11, h12, h13, h14, h15, h16, h17, h18, h19⟩ =>
    ⟨h1, h2, h3, h4, h5, h6, h7, h8, h9, h10, h11, h12, h13, h14, h15, h16, h17, h18, h19⟩,
   fun ⟨h1, h2, h3, h4, h5, h6, h7, h8, h9, h10, h11, h12, h13, h14, h15, h16, h17, h18, h19⟩ =>
    ⟨h1, h2, h3, h4, h5, h6, h7, h8, h9, h10, h11, h12, h13, h14, h15, h16, h17, h18, h19⟩⟩

/-- What every command does to the queue and the tables: the queue stays, and canonical tables stay canonical. -/
def Keeps (s t : State) : Prop := t.tables.pending = s.tables.pending ∧ (s.tables.Wf → t.tables.Wf)

section
variable {s t : State}

theorem Keeps.refl (s : State) : Keeps s s := ⟨rfl, id⟩

/-- A change of fields that hold no table, or that keep the tables they hold. -/
theorem Keeps.congr {free : Nat} {dev : Dev} {flash : Flash} {log : EventLog} {health : Health} {sess : List Sess}
    {tick : Tick} {units : Units} {mpk : MemPkg} {fcfg : FabCfg} {loads : List Load} {cxl : CxlPort}
    {strait : StraitLink} {pair : Pair} {clk : Clk} {pwr : Pwr} {sec : Sec} {out : Outputs}
    {latch : Tab (Option Word)} (h : Keeps s t)
    (e : (tick.cdig, units.place, strait.lanes, clk.gateRegion, clk.gateIsle, clk.mux, clk.muxNext) =
      (t.tick.cdig, t.units.place, t.strait.lanes, t.clk.gateRegion, t.clk.gateIsle, t.clk.mux, t.clk.muxNext)) :
    Keeps s ⟨t.pending, free, dev, flash, log, health, t.mbx, sess, tick, units, t.regions, t.tiles, t.bufs, t.eng,
      t.mem, t.ctl, mpk, t.fab, fcfg, loads, cxl, strait, t.ftx, pair, clk, pwr, sec, out, t.flagCnt, latch⟩ := by
  simp only [Prod.mk.injEq] at e
  obtain ⟨e1, e2, e3, e4, e5, e6, e7⟩ := e
  refine ⟨h.1, fun w => ?_⟩
  have w := h.2 w
  exact { w with
    cdig := (congrArg (tabWf 0) e1).trans w.cdig, place := (congrArg (tabWf (List.range 8)) e2).trans w.place
    lanes := (congrArg (tabWf {}) e3).trans w.lanes, gateRegion := (congrArg (tabWf 0) e4).trans w.gateRegion
    gateIsle := (congrArg (tabWf 0) e5).trans w.gateIsle, mux := (congrArg (tabWf 0) e6).trans w.mux
    muxNext := (congrArg (tabWf 0) e7).trans w.muxNext }

theorem Keeps.ite {c : Prop} [Decidable c] {a b : State} (ha : Keeps s a) (hb : Keeps s b) :
    Keeps s (if c then a else b) := by
  split
  · exact ha
  · exact hb

theorem Keeps.ite2 {α : Type} {c : Prop} [Decidable c] {a b : α × State} (ha : Keeps s a.2) (hb : Keeps s b.2) :
    Keeps s (if c then a else b).2 := by
  split
  · exact ha
  · exact hb

/-- A state that is changed further under a condition, and kept otherwise. -/
theorem Keeps.when {c : Prop} [Decidable c] {a b : State} (hb : Keeps s b) (ha : Keeps s b → Keeps s a) :
    Keeps s (if c then a else b) := .ite (ha hb) hb

theorem Keeps.unless {c : Prop} [Decidable c] {a b : State} (ha : Keeps s a) (hb : Keeps s a → Keeps s b) :
    Keeps s (if c then a else b) := .ite ha (hb ha)

theorem Keeps.foldl {α : Type} {f : State → α → State} {l : List α} (h : Keeps s t)
    (hf : ∀ u a, Keeps s u → Keeps s (f u a)) : Keeps s (l.foldl f t) := by
  induction l generalizing t with
  | nil => exact h
  | cons a r ih => exact ih (hf t a h)

theorem eq_or_mem_of_mem_put {α : Type} [DecidableEq α] {d v : α} {i : Nat} {p : Nat × α} {m : Tab α}
    (h : p ∈ put d m i v) : p = (i, v) ∨ p ∈ m := by
  induction m with
  | nil =>
    simp only [put] at h
    split at h
    · exact .inr h
    · exact .inl (List.mem_singleton.mp h)
  | cons c r ih =>
    simp only [put] at h
    grind

theorem forall_put {α : Type} [DecidableEq α] {P : α → Prop} {d v : α} {i : Nat} (hv : P v) {m : Tab α}
    (hm : ∀ p ∈ m, P p.2) : ∀ p ∈ put d m i v, P p.2 := by
  intro p hp
  obtain rfl | hp := eq_or_mem_of_mem_put hp
  · exact hv
  · exact hm p hp

theorem forall_mapTab {α : Type} [DecidableEq α] {P : α → Prop} {d : α} {f : Nat → α → α} (hf : ∀ k v, P v → P (f k v))
    {m : Tab α} (hm : ∀ p ∈ m, P p.2) : ∀ p ∈ mapTab d f m, P p.2 := by
  induction m with
  | nil => simp [mapTab]
  | cons c r ih =>
    simp only [List.forall_mem_cons] at hm
    simp only [mapTab]
    split
    · exact ih hm.2
    · simp only [List.forall_mem_cons]
      exact ⟨hf _ _ hm.1, ih hm.2⟩

/-! One rule for each table: the rest of the state stays. -/

section
variable (h : Keeps s t)
include h

theorem Keeps.withMbx {m : Tab Mailbox} (hm : tabWf {} t.mbx = true → tabWf {} m = true) :
    Keeps s { t with mbx := m } :=
  ⟨h.1, fun w => { h.2 w with mbx := hm (h.2 w).mbx }⟩

theorem Keeps.withRegions {m : Tab Region} (hm : tabWf {} t.regions = true → tabWf {} m = true) :
    Keeps s { t with regions := m } :=
  ⟨h.1, fun w => { h.2 w with regions := hm (h.2 w).regions }⟩

theorem Keeps.withTiles {m : Tab Tile} (hm : tabWf {} t.tiles = true → tabWf {} m = true) :
    Keeps s { t with tiles := m } :=
  ⟨h.1, fun w => { h.2 w with tiles := hm (h.2 w).tiles }⟩

theorem Keeps.withBufs {m : Tab ClusterBuf} (hm : tabWf {} t.bufs = true → tabWf {} m = true) :
    Keeps s { t with bufs := m } :=
  ⟨h.1, fun w => { h.2 w with bufs := hm (h.2 w).bufs }⟩

theorem Keeps.withEng {m : Tab Engine} (hm : tabWf {} t.eng = true → tabWf {} m = true)
    (hs : (∀ p ∈ t.eng, p.2.wf) → ∀ p ∈ m, p.2.wf) : Keeps s { t with eng := m } :=
  ⟨h.1, fun w => { h.2 w with eng := hm (h.2 w).eng, streams := hs (h.2 w).streams }⟩

theorem Keeps.withMem {m : Mem} (hm : memWf t.mem = true → memWf m = true) : Keeps s { t with mem := m } :=
  ⟨h.1, fun w => { h.2 w with mem := hm (h.2 w).mem }⟩

theorem Keeps.withCtl {m : Tab MemCtl} (hm : tabWf {} t.ctl = true → tabWf {} m = true) :
    Keeps s { t with ctl := m } :=
  ⟨h.1, fun w => { h.2 w with ctl := hm (h.2 w).ctl }⟩

theorem Keeps.withFab {m : Tab FabRegion} (hm : tabWf {} t.fab = true → tabWf {} m = true)
    (hf : (∀ p ∈ t.fab, p.2.wf) → ∀ p ∈ m, p.2.wf) : Keeps s { t with fab := m } :=
  ⟨h.1, fun w => { h.2 w with fab := hm (h.2 w).fab, fabric := hf (h.2 w).fabric }⟩

theorem Keeps.withFtx {m : Tab FabLane} (hm : tabWf {} t.ftx = true → tabWf {} m = true) :
    Keeps s { t with ftx := m } :=
  ⟨h.1, fun w => { h.2 w with ftx := hm (h.2 w).ftx }⟩

theorem Keeps.withFlagCnt {m : Tab Nat} (hm : tabWf 0 t.flagCnt = true → tabWf 0 m = true) :
    Keeps s { t with flagCnt := m } :=
  ⟨h.1, fun w => { h.2 w with flagCnt := hm (h.2 w).flagCnt }⟩

theorem Keeps.withStrait {x : StraitLink} (hm : tabWf {} t.strait.lanes = true → tabWf {} x.lanes = true) :
    Keeps s { t with strait := x } :=
  ⟨h.1, fun w => { h.2 w with lanes := hm (h.2 w).lanes }⟩

theorem Keeps.withUnits {x : Units}
    (hm : tabWf (List.range 8) t.units.place = true → tabWf (List.range 8) x.place = true) :
    Keeps s { t with units := x } :=
  ⟨h.1, fun w => { h.2 w with place := hm (h.2 w).place }⟩

theorem Keeps.withClk {x : Clk} (hr : tabWf 0 t.clk.gateRegion = true → tabWf 0 x.gateRegion = true)
    (hi : tabWf 0 t.clk.gateIsle = true → tabWf 0 x.gateIsle = true)
    (hm : tabWf 0 t.clk.mux = true → tabWf 0 x.mux = true)
    (hn : tabWf 0 t.clk.muxNext = true → tabWf 0 x.muxNext = true) :
    Keeps s { t with clk := x } :=
  ⟨h.1, fun w => { h.2 w with gateRegion := hr (h.2 w).gateRegion, gateIsle := hi (h.2 w).gateIsle
                              mux := hm (h.2 w).mux, muxNext := hn (h.2 w).muxNext }⟩

theorem Keeps.withTick {x : Tick} (hm : tabWf 0 t.tick.cdig = true → tabWf 0 x.cdig = true) :
    Keeps s { t with tick := x } :=
  ⟨h.1, fun w => { h.2 w with cdig := hm (h.2 w).cdig }⟩

end

theorem Keeps.draw (h : Keeps s t) : Keeps s (t.draw).2 := by
  unfold State.draw
  exact h.congr rfl

theorem Keeps.drawBytes {len : Nat} (h : Keeps s t) : Keeps s (t.drawBytes len).2 := by
  unfold State.drawBytes
  exact h.congr rfl

theorem Keeps.setMb {n : Nat} {f : Mailbox → Mailbox} (h : Keeps s t) : Keeps s (t.setMb n f) :=
  h.withMbx (tabWf_modify _ _ _ _)

theorem Keeps.setRegion {r : Nat} {f : Region → Region} (h : Keeps s t) : Keeps s (t.setRegion r f) :=
  h.withRegions (tabWf_modify _ _ _ _)

theorem Keeps.putTile {i : Nat} {x : Tile} (h : Keeps s t) : Keeps s (t.putTile i x) :=
  h.withTiles (tabWf_put _ _ _ _)

theorem Keeps.putBuf {c : Nat} {b : ClusterBuf} (h : Keeps s t) : Keeps s (t.putBuf c b) :=
  h.withBufs (tabWf_put _ _ _ _)

theorem Engine.wf_default : ({} : Engine).wf := rfl

/-- A stream engine changed, its streams kept in canonical form. -/
theorem Keeps.modifyEng {r : Nat} {f : Engine → Engine} (h : Keeps s t) (hf : ∀ e : Engine, e.wf → (f e).wf) :
    Keeps s { t with eng := modify {} t.eng r f } :=
  h.withEng (tabWf_modify _ _ _ _) fun w => forall_put (hf _ (look_of_forall (P := Engine.wf) Engine.wf_default w r)) w

theorem Keeps.setStream {r n : Nat} {f : Stream → Stream} (h : Keeps s t) : Keeps s (t.setStream r n f) :=
  h.modifyEng fun _ => tabWf_modify _ _ _ _

theorem Keeps.setCtl {n : Nat} {f : MemCtl → MemCtl} (h : Keeps s t) : Keeps s (t.setCtl n f) :=
  h.withCtl (tabWf_modify _ _ _ _)

theorem FabRegion.wf_default : ({} : FabRegion).wf := ⟨rfl, rfl, rfl, rfl⟩

/-- A fabric region changed: its own tables stay canonical, where all tables of the state before were. -/
theorem Keeps.setFabOf {r : Nat} {f : FabRegion → FabRegion} (h : Keeps s t)
    (hf : s.tables.Wf → ∀ x : FabRegion, x.wf → (f x).wf) : Keeps s (t.setFab r f) :=
  ⟨h.1, fun w => { h.2 w with
    fab := tabWf_modify _ _ _ _ (h.2 w).fab
    fabric := forall_put (hf w _ (look_of_forall (P := FabRegion.wf) FabRegion.wf_default (h.2 w).fabric r))
      (h.2 w).fabric }⟩

theorem Keeps.setFab {r : Nat} {f : FabRegion → FabRegion} (h : Keeps s t)
    (hf : ∀ x : FabRegion, x.wf → (f x).wf) : Keeps s (t.setFab r f) := h.setFabOf fun _ => hf

theorem Keeps.setPort {r p : Nat} {f : Port → Port} (h : Keeps s t) : Keeps s (t.setPort r p f) :=
  h.setFab fun _ ⟨ports, rest⟩ => ⟨tabWf_modify _ _ _ _ ports, rest⟩

theorem Keeps.setLane {l : Nat} {f : FabLane → FabLane} (h : Keeps s t) : Keeps s (t.setLane l f) :=
  h.withFtx (tabWf_modify _ _ _ _)

theorem Keeps.setStrLane {l : Nat} {f : StrLane → StrLane} (h : Keeps s t) : Keeps s (t.setStrLane l f) :=
  h.withStrait (tabWf_modify _ _ _ _)

theorem Keeps.setSess {id : Nat} {f : Sess → Sess} (h : Keeps s t) : Keeps s (t.setSess id f) := by
  unfold State.setSess
  exact h.congr rfl

theorem Keeps.setTier {lp : Bool} {x : TierSr} (h : Keeps s t) : Keeps s (t.setTier lp x) := by
  unfold State.setTier
  dsimp only
  exact .ite (h.congr rfl) (h.congr rfl)

theorem Keeps.touch {a n : Nat} {write : Bool} (h : Keeps s t) : Keeps s (t.touch a n write) := by
  unfold State.touch
  dsimp only
  exact .foldl (h.congr rfl) fun _ _ h => h.setCtl

theorem Keeps.startExit {a : Nat} (h : Keeps s t) : Keeps s (t.startExit a) := by
  unfold State.startExit
  exact .ite h h.setTier

theorem Keeps.mark {a n : Nat} (h : Keeps s t) : Keeps s (t.mark a n) := by
  unfold State.mark
  dsimp only
  exact .ite (h.congr rfl) h

theorem Keeps.wrMem {a : Nat} {b : List Byte} (h : Keeps s t) : Keeps s (t.wrMem a b) :=
  h.mark.withMem fun hm => memWf_wrBytes _ _ _ (by simpa using hm)

theorem Keeps.zeroMem {a n : Nat} (h : Keeps s t) : Keeps s (t.zeroMem a n) := by
  refine h.mark.withMem fun hm => ?_
  rw [State.mark_mem] at hm
  split
  · exact tabWf_filter 0 _ _ hm
  · exact memWf_clearRange _ _ _ hm

theorem Keeps.untrack {a n : Nat} (h : Keeps s t) : Keeps s (t.untrack a n) := by
  unfold State.untrack
  dsimp only
  exact h.congr rfl

theorem Keeps.track {a n : Nat} (h : Keeps s t) : Keeps s (t.track a n) := by
  unfold State.track
  dsimp only
  exact h.congr rfl

theorem Keeps.hostStore {a : Nat} {b : List Byte} (h : Keeps s t) : Keeps s (t.hostStore a b) := by
  unfold State.hostStore
  exact .ite h.touch.untrack.wrMem h

theorem Keeps.holdAccess {y : HeldAccess} (h : Keeps s t) : Keeps s (t.holdAccess y) := by
  unfold State.holdAccess
  dsimp only
  exact .when (h.congr rfl) fun h => h.startExit

theorem Keeps.devStore {a : Nat} {b : List Byte} {mb : Option Nat} (h : Keeps s t) :
    Keeps s (t.devStore a b mb) := by
  unfold State.devStore
  exact .ite h.holdAccess h.hostStore

theorem Keeps.devZero {a n : Nat} {mb : Option Nat} (h : Keeps s t) : Keeps s (t.devZero a n mb) := by
  unfold State.devZero
  exact .ite h.holdAccess h.zeroMem

theorem Keeps.correctRead {a n : Nat} (h : Keeps s t) : Keeps s (t.correctRead a n) := by
  unfold State.correctRead
  dsimp only
  exact h.foldl fun _ _ h => h.draw.setCtl

theorem Keeps.muxAsk {key src : Nat} (h : Keeps s t) : Keeps s (t.muxAsk key src) :=
  h.withClk id id id (tabWf_put _ _ _ _)

theorem Keeps.muxEnd {key : Nat} (h : Keeps s t) : Keeps s (t.muxEnd key) :=
  h.withClk id id (tabWf_put _ _ _ _) (tabWf_put _ _ _ _)

theorem Keeps.logEvent {code source sess : Nat} {data : List Byte} {dump : optParam Bool false} (h : Keeps s t) :
    Keeps s (t.logEvent code source sess data dump) := by
  unfold State.logEvent
  dsimp only
  exact h.congr rfl

theorem Keeps.setTileRegs {i : Nat} {f : TileRegs → TileRegs} (h : Keeps s t) : Keeps s (t.setTileRegs i f) :=
  h.putTile

theorem Keeps.putFlags {g : Reg} {w : Word} (h : Keeps s t) : Keeps s (t.putFlags g w) := by
  cases g with
  | strmLate r => exact h.modifyEng fun _ => id
  | strmStatus r n | strmErr r n => exact h.setStream
  | arrStatus i | arrOvf i | seqStatus i | seqErr i => exact h.setTileRegs
  | memStatus n => exact h.setCtl
  | fabStatus r | cpErr r => exact h.setFab fun _ => id
  | portErr r p => exact h.setPort
  | strLane l => exact h.setStrLane
  | ftxStatus l => exact h.setLane
  | mbStatus n | evPend n => exact h.setMb
  | _ => exact h.congr rfl

theorem tabWf_bumpFlags {key : Nat} (l : List Nat) : ∀ {m : Tab Nat}, tabWf 0 m = true →
    tabWf 0 (bumpFlags m key l) = true := by
  induction l with
  | nil => exact id
  | cons b r ih => exact fun hm => ih (tabWf_modify _ _ _ _ hm)

theorem Keeps.raise {g : Reg} {mask : Word} (h : Keeps s t) : Keeps s (t.raise g mask) :=
  h.putFlags.withFlagCnt (tabWf_bumpFlags _)

theorem Keeps.w1c {g : Reg} {w hwSet : Word} (h : Keeps s t) : Keeps s (t.w1c g w hwSet) :=
  h.putFlags.withFlagCnt (tabWf_bumpFlags _)

theorem Keeps.runTile {i : Nat} {f : Tile → Tile} (h : Keeps s t) : Keeps s (t.runTile i f) :=
  h.putTile.withFlagCnt fun hc =>
    tabWf_bumpFlags _ (tabWf_bumpFlags _ (tabWf_bumpFlags _ (tabWf_bumpFlags _ hc)))

theorem Keeps.wrPlace {p : Place} {a : Nat} {b : List Byte} (h : Keeps s t) : Keeps s (t.wrPlace p a b) := by
  unfold State.wrPlace
  dsimp only
  split
  · exact h.touch.untrack.wrMem
  · exact h.putBuf
  · exact h.putTile
  · exact h
  · exact h

theorem Keeps.snoopPlace {p : Place} {a n : Nat} (h : Keeps s t) : Keeps s (t.snoopPlace p a n) := by
  unfold State.snoopPlace
  split
  · exact h.untrack
  · exact h
  · exact h
  · exact h
  · exact h

theorem Keeps.addRecord {c : Nat} {rec : DWord} (h : Keeps s t) : Keeps s (t.addRecord c rec) := by
  unfold State.addRecord
  refine h.withTick fun w => ?_
  dsimp only
  exact tabWf_modify 0 t.tick.cdig c _ w

theorem Keeps.writeRows {c : Nat} {p : Place} {d : SDesc} {name : Option Nat} (n : Nat) :
    ∀ {start : Nat} {bytes part : List Byte} {t : State}, Keeps s t →
      Keeps s (writeRows c p d name n start bytes part t).1 := by
  induction n with
  | zero => exact id
  | succ n ih =>
    intro start bytes part t h
    unfold Machine.writeRows
    split
    · exact h
    · refine ih (.ite (.addRecord ?_) ?_) <;> exact .ite (.ite h.wrPlace h) h.wrPlace

theorem Keeps.pushQueue {stationary : Bool} {slot : Nat} {rows : List (List Byte)} (h : Keeps s t) :
    Keeps s (t.pushQueue stationary slot rows) :=
  h.putTile

theorem Keeps.takeBeats {r n p k : Nat} (h : Keeps s t) : Keeps s (t.takeBeats r n p k) :=
  h.setPort.setStream

theorem Keeps.skipRows {r n : Nat} (h : Keeps s t) : Keeps s (t.skipRows r n) := by
  unfold State.skipRows
  split
  · exact h
  · split
    · exact h
    · exact h.setStream

theorem Keeps.grantData {r n : Nat} {y : Home} {d : SDesc} (h : Keeps s t) : Keeps s (t.grantData r n y d) := by
  unfold State.grantData
  dsimp only
  refine .ite h.setStream (.ite h.setStream ?_)
  split
  · split
    · exact h.takeBeats.setStream
    · exact h.snoopPlace.touch.setStream
    · exact h.snoopPlace.setStream
  · exact h.setStream

theorem Keeps.grant {r n : Nat} (h : Keeps s t) : Keeps s (t.grant r n) := by
  unfold State.grant
  dsimp only
  split
  · exact h
  · split
    · exact h
    · refine .skipRows ?_
      split
      · exact h
      · exact h
      · split
        · exact h.touch.setStream
        · exact h.setStream
      · split
        · exact h.touch.snoopPlace.setStream
        · exact h.setStream
      · split
        · exact h
        · exact h.takeBeats.setStream
      · exact h.grantData

theorem Keeps.grantPair {r : Nat} {out : Bool} {tte : Nat → Nat} {cands : List Nat} (h : Keeps s t) :
    Keeps s (t.grantPair r out tte cands) := by
  unfold State.grantPair
  dsimp only
  split
  · exact h
  · split
    · exact .ite h.grant.grant h.grant
    · exact .ite h.grant.grant h.grant

theorem Keeps.stopStep {sess code : Nat} (h : Keeps s t) : Keeps s (t.stopStep sess code) :=
  h.setSess

theorem Keeps.discardFor {y : Home} {rings : List (Ring × Nat)} (h : Keeps s t) :
    Keeps s (t.discardFor y rings) := by
  unfold State.discardFor
  dsimp only
  exact h.foldl fun _ _ h => .ite h.runTile h

theorem Keeps.streamErr {r n : Nat} {mask : Word} {pos : Nat} (h : Keeps s t) :
    Keeps s (t.streamErr r n mask pos) := by
  unfold State.streamErr
  dsimp only
  exact .raise (.ite h.setStream h)

theorem Keeps.stopStream {r n code : Nat} (h : Keeps s t) : Keeps s (t.stopStream r n code) := by
  unfold State.stopStream
  dsimp only
  split
  · exact h
  · refine .stopStep (.setStream ?_)
    split
    · exact h.discardFor
    · exact h

theorem Keeps.deliverBytes {r n : Nat} {home : Home} {d : SDesc} {name : Option Nat} {start : Nat} {bytes : List Byte}
    (h : Keeps s t) : Keeps s (t.deliverBytes r n home d name start bytes) := by
  unfold State.deliverBytes
  split
  · exact (h.foldl fun _ _ h => h.pushQueue).setStream
  · exact h
  · exact (h.writeRows _).setStream

theorem Keeps.deliverRow3 {r n : Nat} {y : Home} {d : SDesc} {b : Burst} (h : Keeps s t) :
    Keeps s (t.deliverRow3 r n y d b) := by
  unfold State.deliverRow3
  dsimp only
  exact .ite h h.deliverBytes.setStream

theorem Keeps.deliverBeats {r n p k : Nat} {d : SDesc} {b : Burst} (h : Keeps s t) :
    Keeps s (t.deliverBeats r n p k d b) :=
  h.setPort.setStream

theorem Keeps.correctBurst {y : Home} {d : SDesc} {b : Burst} (h : Keeps s t) : Keeps s (t.correctBurst y d b) := by
  unfold State.correctBurst
  exact .ite h h.correctRead

theorem Keeps.deliver {r n : Nat} (h : Keeps s t) : Keeps s (t.deliver r n) := by
  unfold State.deliver
  dsimp only
  split
  · split
    · exact h
    · refine .ite (.setStream (.ite h.correctBurst h)) ?_
      split
      · exact .ite (.stopStream (.streamErr (.ite h.correctBurst h))) (.ite (.stopStream (.streamErr (.ite
          h.correctBurst h))) (.stopStream (.streamErr (.ite h.correctBurst h))))
      · split
        · exact .stopStream (.streamErr (.ite h.correctBurst h))
        · exact .stopStream (.streamErr (.ite h.correctBurst h))
        · split
          · exact .ite h.correctBurst h
          · refine .ite (.deliverRow3 (.ite h.correctBurst h)) ?_
            split
            · exact .deliverBeats (.ite h.correctBurst h)
            · exact .setStream (.deliverBytes (.ite h.correctBurst h))
  · exact h

theorem Keeps.arm {r n : Nat} {g : Ring} (h : Keeps s t) : Keeps s (t.arm r n g) := by
  unfold State.arm
  dsimp only
  exact .ite h (.ite h.setStream (.ite h.setStream h.streamErr.setStream.stopStep))

theorem Keeps.restartStream {r n : Nat} (h : Keeps s t) : Keeps s (t.restartStream r n) := by
  unfold State.restartStream
  dsimp only
  split
  · exact h
  · split
    · exact h
    · exact h.setStream.skipRows

theorem Keeps.enterPanic (h : Keeps s t) : Keeps s t.enterPanic := by
  unfold State.enterPanic
  dsimp only
  exact .ite (.raise (h.congr rfl)) h

theorem Keeps.leavePanic (h : Keeps s t) : Keeps s t.leavePanic := by
  unfold State.leavePanic
  dsimp only
  exact h.congr rfl

theorem Keeps.readReg {g : Reg} (h : Keeps s t) : Keeps s (t.readReg g).2 := by
  unfold State.readReg
  split
  · exact h.congr rfl
  · exact h.congr rfl

theorem Keeps.putTickCtrl {w : Word} (h : Keeps s t) : Keeps s (t.putTickCtrl w) := by
  unfold State.putTickCtrl
  dsimp only
  exact h.congr rfl

theorem Keeps.putGate {isle : Bool} {n : Nat} {w : Word} (h : Keeps s t) : Keeps s (t.putGate isle n w) := by
  unfold State.putGate
  exact .ite (h.withClk id (tabWf_put 0 _ _ _) id id) (h.withClk (tabWf_put 0 _ _ _) id id id)

theorem Keeps.writeReg {g : Reg} {w hwSet : Word} (h : Keeps s t) : Keeps s (t.writeReg g w hwSet) := by
  unfold State.writeReg
  dsimp only
  split
  · exact h.congr rfl
  · exact .ite h h.putTickCtrl
  · exact h.putGate
  · exact h.putGate
  · exact .ite (h.congr rfl) h
  · exact .ite (h.congr rfl) h
  · exact h.congr rfl
  · exact .ite (h.congr rfl) h
  · exact h.congr rfl
  · exact .ite h h.w1c

theorem Keeps.runDesign {r : Nat} (h : Keeps s t) : Keeps s (t.runDesign r) := by
  unfold State.runDesign
  dsimp only
  exact .ite (h.setFab fun _ => id) h

theorem Keeps.runWord {slot word : Nat} (h : Keeps s t) : Keeps s (t.runWord slot word) := by
  unfold State.runWord
  dsimp only
  exact .when h.runTile fun h => h.stopStep

theorem Keeps.markLate {r : Nat} {ns : List Nat} (h : Keeps s t) : Keeps s (t.markLate r ns) := by
  unfold State.markLate
  dsimp only
  exact .unless (h.foldl fun _ _ h => h.setStream) fun h => h.raise

theorem Keeps.startNow {slot i : Nat} (h : Keeps s t) : Keeps s (t.startNow slot i) := by
  unfold State.startNow
  dsimp only
  split
  · exact h
  · exact .ite (.when h.runTile fun h => h.markLate) (.ite h h.runTile.markLate)

theorem Keeps.putBufRows {cluster base : Nat} {rows : List (Nat × Nat × List Nat)} (h : Keeps s t) :
    Keeps s (t.putBufRows cluster base rows) := by
  unfold State.putBufRows
  dsimp only
  exact .ite h h.putBuf

theorem Keeps.commit {slot : Nat} (h : Keeps s t) : Keeps s (t.commit slot) := by
  unfold State.commit
  dsimp only
  exact .when h.runTile.putBufRows.addRecord fun h => h.markLate

theorem Keeps.haltSlot {slot : Nat} {f : Nat → Tile → Tile} (h : Keeps s t) : Keeps s (t.haltSlot slot f) := by
  unfold State.haltSlot
  dsimp only
  exact .ite h.runTile h.draw.runTile.putBufRows

theorem Keeps.reportTte {r left : Nat} (h : Keeps s t) : Keeps s (t.reportTte r left) := by
  unfold State.reportTte
  dsimp only
  exact h.foldl fun _ _ h => .ite h.setStream h

theorem Keeps.holdStream {r n a : Nat} (h : Keeps s t) : Keeps s (t.holdStream r n a) := by
  unfold State.holdStream
  dsimp only
  exact .unless h.startExit fun h => h.markLate.setStream

theorem Keeps.holdStreams {r : Nat} (h : Keeps s t) : Keeps s (t.holdStreams r) := by
  unfold State.holdStreams
  exact h.foldl fun _ _ h => by
    split
    · exact h.holdStream
    · exact h

theorem Keeps.sheepdog {r left : Nat} (h : Keeps s t) : Keeps s (t.sheepdog r left) := by
  unfold State.sheepdog
  dsimp only
  exact .grantPair (.grantPair (.holdStreams (.reportTte (h.foldl fun _ _ h => h.skipRows))))

theorem Keeps.deliverOrHold {r n : Nat} (h : Keeps s t) : Keeps s (t.deliverOrHold r n) := by
  unfold State.deliverOrHold
  split
  · exact h.holdStream
  · exact .ite h.deliver h

theorem Keeps.completeRing {r n : Nat} (h : Keeps s t) : Keeps s (t.completeRing r n) := by
  unfold State.completeRing
  dsimp only
  exact .raise (.setStream (h.congr rfl))

theorem Keeps.watchdog {r : Nat} {x : List Nat} (h : Keeps s t) : Keeps s (t.watchdog r x) := by
  unfold State.watchdog
  dsimp only
  split
  · exact h
  · exact .stopStream (.streamErr (h.foldl fun _ _ h => h.streamErr.setStream))

theorem Keeps.zeroPlaced {i : Image} {p : Tab Nat} {mb : Nat} (h : Keeps s t) : Keeps s (t.zeroPlaced i p mb) := by
  unfold State.zeroPlaced
  exact h.foldl fun _ _ h => h.devZero

theorem Keeps.raiseVector {n : Nat} (h : Keeps s t) : Keeps s (t.raiseVector n) := by
  unfold State.raiseVector
  dsimp only
  exact .ite (h.congr rfl) (h.congr rfl)

theorem Keeps.flushVectors (h : Keeps s t) : Keeps s t.flushVectors := by
  unfold State.flushVectors
  dsimp only
  exact .ite (h.congr rfl) h

theorem Keeps.setEvent {n bit : Nat} (h : Keeps s t) : Keeps s (t.setEvent n bit) := by
  unfold State.setEvent
  dsimp only
  exact .when h.raise fun h => h.raiseVector

theorem Keeps.notify {id bits : Nat} (h : Keeps s t) : Keeps s (t.notify id bits) := by
  unfold State.notify
  dsimp only
  split
  · exact h
  · exact h.setSess.foldl fun _ _ h => h.setEvent

theorem Keeps.notifyAll {bits : Nat} (h : Keeps s t) : Keeps s (t.notifyAll bits) := by
  unfold State.notifyAll
  exact h.foldl fun _ _ h => h.notify

theorem Keeps.putRecord {x : Sess} {rec : Record} (h : Keeps s t) : Keeps s (t.putRecord x rec) := by
  unfold State.putRecord
  dsimp only
  exact .foldl (.setSess (.ite h.devStore (h.congr rfl))) fun _ _ h => h.setEvent

theorem Keeps.dropWritten {id : Nat} (h : Keeps s t) : Keeps s (t.dropWritten id) := by
  unfold State.dropWritten
  dsimp only
  split
  · exact h
  · exact .setSess (h.congr rfl)

theorem Keeps.postRecord {id : Nat} {own : Bool} {rec : Record} (h : Keeps s t) :
    Keeps s (t.postRecord id own rec) := by
  unfold State.postRecord
  dsimp only
  split
  · exact h
  · exact .ite (.dropWritten (.congr (.ite h.setSess h) rfl)) (.ite (.putRecord (.ite h.setSess h)) (.setSess (.ite
      h.setSess h)))

theorem Keeps.putOutput {g : Go} {out : List Byte} (h : Keeps s t) : Keeps s (t.putOutput g out) := by
  unfold State.putOutput
  dsimp only
  exact .ite h.setMb (.ite h.devStore (h.congr rfl))

theorem Keeps.placeOutput {g : Go} {o : Outcome} (h : Keeps s t) : Keeps s (t.placeOutput g o).2 := by
  unfold State.placeOutput
  exact .ite2 h (.ite2 h h.putOutput)

theorem Keeps.postStatus {opcode : Nat} {g : Go} {o : Outcome} (h : Keeps s t) :
    Keeps s (t.postStatus opcode g o) :=
  h.setMb.setEvent

theorem Keeps.postPlaced {opcode : Nat} {g : Go} {o : Outcome} (h : Keeps s t) :
    Keeps s (t.postPlaced opcode g o) := by
  unfold State.postPlaced
  exact .ite h.setMb h.postStatus

theorem Keeps.postResult {opcode : Nat} {g : Go} {o : Outcome} (h : Keeps s t) : Keeps s (t.postResult opcode g o) :=
  h.placeOutput.postPlaced

theorem Keeps.finishBusy {n : Nat} {o : Outcome} (h : Keeps s t) : Keeps s (t.finishBusy n o) :=
  h.setMb

theorem Keeps.release {p : WaitFor → Bool} {f : Outcome → Outcome} (h : Keeps s t) : Keeps s (t.release p f) := by
  unfold State.release
  exact h.foldl fun _ _ h => by
    split
    · exact h.finishBusy
    · exact h

theorem Keeps.freeMailboxesOf {ns : List Nat} (h : Keeps s t) : Keeps s (t.freeMailboxesOf ns) := by
  unfold State.freeMailboxesOf
  exact h.foldl fun _ _ h => h.setMb

theorem Keeps.note {k : LogKind} {source sess : Nat} {data : List Byte} (h : Keeps s t) :
    Keeps s (t.note k source sess data) :=
  h.logEvent

theorem Keeps.rewriteHealth (h : Keeps s t) : Keeps s t.rewriteHealth := by
  unfold State.rewriteHealth
  dsimp only
  exact .unless (h.congr rfl) fun h => h.setEvent

theorem Keeps.fixLane {l : Nat} (h : Keeps s t) : Keeps s (t.fixLane l) :=
  h.setLane

theorem Keeps.fixLanes (h : Keeps s t) : Keeps s t.fixLanes := by
  unfold State.fixLanes
  exact h.foldl fun _ _ h => h.fixLane

theorem Keeps.isolate {r : Nat} (h : Keeps s t) : Keeps s (t.isolate r) := by
  unfold State.isolate
  dsimp only
  have emptied : Keeps s ((List.range 8).foldl (fun s p => s.setPort r p (fun q => { q with txBuf := [] }))
      (if (t.fabric r).isolated then t else t.runDesign r)) := .foldl (.ite h h.runDesign) fun _ _ h => h.setPort
  have closed := (emptied.setFab (r := r) (f := fun f => { f with isolated := true, borderOpen := false, cps := [] })
    fun _ ⟨ports, trees, delays, _⟩ => ⟨ports, trees, delays, rfl⟩).setFab
      (r := r ^^^ 1) (f := fun f => { f with borderOpen := false }) fun _ => id
  exact .when (.when closed fun h => h.raise) fun h => h.fixLane

theorem Keeps.holdFabric {r : Nat} (h : Keeps s t) : Keeps s (t.holdFabric r) :=
  h.isolate.setFab fun _ => id

theorem Keeps.testBorders (h : Keeps s t) : Keeps s t.testBorders := by
  unfold State.testBorders
  dsimp only
  exact h.foldl fun _ _ h => .setFab (h.setFab fun _ => id) fun _ => id

theorem Keeps.bareLane {r : Nat} (h : Keeps s t) : Keeps s (t.bareLane r) := by
  unfold State.bareLane
  exact .ite h.setLane.fixLane h

theorem Keeps.clearFabric {r : Nat} (h : Keeps s t) : Keeps s (t.clearFabric r) :=
  .bareLane (h.isolate.setFab fun _ ⟨ports, _, _, cps⟩ => ⟨ports, rfl, rfl, cps⟩)

theorem Keeps.beginClear {r : Nat} (h : Keeps s t) : Keeps s (t.beginClear r) :=
  h.isolate.setFab fun _ => id

theorem Keeps.setLoad {slot : Nat} {f : Load → Load} (h : Keeps s t) : Keeps s (t.setLoad slot f) := by
  unfold State.setLoad
  exact h.congr rfl

theorem Keeps.endLoads (h : Keeps s t) : Keeps s t.endLoads := by
  unfold State.endLoads
  dsimp only
  exact .foldl (h.congr rfl) fun _ _ h => by
    split
    · exact h.finishBusy
    · exact .note (h.congr rfl)

theorem Keeps.recordFail {cause region seg : Nat} (h : Keeps s t) : Keeps s (t.recordFail cause region seg) := by
  unfold State.recordFail
  dsimp only
  exact .ite h.raise (.raise (h.congr rfl))

theorem Keeps.failLoad {slot bit cause region seg code : Nat} (h : Keeps s t) :
    Keeps s (t.failLoad slot bit cause region seg code) := by
  unfold State.failLoad
  dsimp only
  split
  · exact h
  · exact h.raise.recordFail.setLoad.foldl fun _ _ h => .ite h h.beginClear

theorem Keeps.abortLoads {hit : Load → Bool} (h : Keeps s t) : Keeps s (t.abortLoads hit) := by
  unfold State.abortLoads
  exact .endLoads (h.foldl fun _ _ h => .ite (.ite h.failLoad h.setLoad) h)

theorem Keeps.beginStartup {r slot : Nat} {trailer : List Byte} (h : Keeps s t) :
    Keeps s (t.beginStartup r slot trailer) :=
  h.setFab fun _ => id

theorem Keeps.restartFabrics (h : Keeps s t) : Keeps s t.restartFabrics := by
  unfold State.restartFabrics
  dsimp only
  exact h.foldl fun _ _ h => .ite (h.setFab fun _ => id) h

theorem Keeps.beginLoad {slot : Nat} (h : Keeps s t) : Keeps s (t.beginLoad slot) := by
  unfold State.beginLoad
  dsimp only
  split
  · exact h
  · refine .foldl ?_ fun _ _ h => .ite (h.congr rfl) h
    split
    · exact .failLoad (h.setLoad.foldl fun _ _ h => .ite h.beginClear
        (h.isolate.setFab fun _ ⟨ports, _, delays, cps⟩ => ⟨ports, rfl, delays, cps⟩))
    · exact h.setLoad.foldl fun _ _ h => .ite h.beginClear
        (h.isolate.setFab fun _ ⟨ports, _, delays, cps⟩ => ⟨ports, rfl, delays, cps⟩)

theorem Keeps.forward {i : Input} (h : Keeps s t) : Keeps s (t.forward i) := by
  unfold State.forward
  dsimp only
  exact .ite (h.congr rfl) h

theorem Keeps.decideLoads (h : Keeps s t) : Keeps s t.decideLoads := by
  unfold State.decideLoads
  exact .ite (h.foldl fun _ _ h => .ite h.setLoad.forward h) h

theorem Keeps.beginLoads (h : Keeps s t) : Keeps s t.beginLoads := by
  unfold State.beginLoads
  exact .endLoads (h.foldl fun _ _ h => .ite h.beginLoad h)

theorem Keeps.fenceFabric {r : Nat} (h : Keeps s t) : Keeps s (t.fenceFabric r) := by
  unfold State.fenceFabric
  dsimp only
  refine .endLoads (.foldl (h.isolate.setFabOf fun w _ ⟨ports, trees, delays, _⟩ => ⟨ports, trees, delays, ?_⟩)
    fun _ _ h => .ite h.setLoad h)
  exact (look_of_forall (P := FabRegion.wf) FabRegion.wf_default (h.2 w).fabric r).2.2.2

theorem Keeps.markEmerg {hit : Bool} (h : Keeps s t) : Keeps s (t.markEmerg hit) := by
  unfold State.markEmerg
  dsimp only
  exact .ite (.raise (h.congr rfl)) h

theorem Keeps.dropWork {r : Nat} (h : Keeps s t) : Keeps s (t.dropWork r) := by
  unfold State.dropWork
  dsimp only
  exact .foldl (h.markEmerg.foldl fun _ _ h => h.runTile) fun _ _ h => h.setStream

theorem Engine.wf_mapTab {e : Engine} (f : Nat → Stream → Stream) (w : e.wf) :
    tabWf {} (mapTab {} f e.streams) = true := tabWf_mapTab {} f e.streams (show tabWf {} e.streams = true from w)

theorem Keeps.changeover {r : Nat} (h : Keeps s t) : Keeps s (t.changeover r) := by
  unfold State.changeover
  exact .setRegion (.modifyEng (.withBufs (.foldl h.dropWork fun _ _ h => h.putTile) (tabWf_mapTab _ _ _))
    fun _ w => Engine.wf_mapTab _ w)

theorem Keeps.stopRegion {r : Nat} (h : Keeps s t) : Keeps s (t.stopRegion r) := by
  unfold State.stopRegion
  dsimp only
  exact .foldl (h.markEmerg.foldl fun _ _ h => h.haltSlot) fun _ _ h => h.restartStream

theorem Keeps.emergency (h : Keeps s t) : Keeps s t.emergency := by
  unfold State.emergency
  dsimp only
  exact .abortLoads (h.foldl fun _ _ h => h.stopRegion)

theorem Keeps.keepRecords (h : Keeps s t) : Keeps s t.keepRecords := by
  unfold State.keepRecords
  dsimp only
  exact h.foldl fun _ _ h => .setSess (h.congr rfl)

theorem Keeps.flushSuppressed (h : Keeps s t) : Keeps s t.flushSuppressed := by
  unfold State.flushSuppressed
  dsimp only
  exact .foldl (h.congr rfl) fun _ _ h => h.foldl fun _ _ h => h.postRecord

theorem Keeps.setRole {role : Nat} (h : Keeps s t) : Keeps s (t.setRole role) := by
  unfold State.setRole
  dsimp only
  exact .notifyAll (.fixLanes (h.congr rfl))

theorem Keeps.judgeLink (h : Keeps s t) : Keeps s t.judgeLink := by
  unfold State.judgeLink
  dsimp only
  exact .ite (.raise (h.congr rfl)) (h.congr rfl)

theorem Keeps.idleStrait (h : Keeps s t) : Keeps s t.idleStrait := by
  unfold State.idleStrait
  exact .judgeLink (h.foldl fun _ _ h => h.setStrLane)

theorem Keeps.acknowledge {n : Nat} (h : Keeps s t) : Keeps s (t.acknowledge n) := by
  unfold State.acknowledge
  dsimp only
  exact h.congr rfl

theorem Keeps.discardSessions (h : Keeps s t) : Keeps s t.discardSessions := by
  unfold State.discardSessions
  dsimp only
  exact .congr (.foldl (h.release.abortLoads.foldl fun _ _ h => h.changeover) fun _ _ h => h.setMb) rfl

theorem Keeps.quitPair (h : Keeps s t) : Keeps s t.quitPair := by
  unfold State.quitPair
  dsimp only
  exact .discardSessions (.idleStrait (.acknowledge (h.congr rfl)))

theorem Keeps.leavePair (h : Keeps s t) : Keeps s t.leavePair := by
  unfold State.leavePair
  exact .ite h.quitPair h

theorem Keeps.setRun {id : Nat} {f : Run → Run} (h : Keeps s t) : Keeps s (t.setRun id f) :=
  h.setSess

theorem Keeps.stopUsers {hit : Sess → Run → Bool} {code : Nat} (h : Keeps s t) :
    Keeps s (t.stopUsers hit code) := by
  unfold State.stopUsers
  exact h.foldl fun _ _ h => h.stopStep

theorem Keeps.writePrograms {i : Image} {live : List Nat} (h : Keeps s t) : Keeps s (t.writePrograms i live) := by
  unfold State.writePrograms
  dsimp only
  exact h.foldl fun _ _ h => h.putTile

theorem Keeps.bindKeys {i : Image} {r : Nat} (ks : List Nat) : ∀ {free : List Nat} {t : State}, Keeps s t →
    Keeps s (t.bindKeys i r ks free) := by
  induction ks with
  | nil => exact id
  | cons k ks ih => exact fun h => ih h.draw.setStream

theorem Keeps.bindStreams {i : Image} {regions : DWord} {live : List Nat} (h : Keeps s t) :
    Keeps s (t.bindStreams i regions live) := by
  unfold State.bindStreams
  exact h.foldl fun _ _ h => .bindKeys _ (h.foldl fun _ _ h => h.setStream)

theorem Keeps.moveData {clusters : Nat} {old new : Run} (h : Keeps s t) :
    Keeps s (t.moveData clusters old new) := by
  unfold State.moveData
  dsimp only
  exact h.foldl fun _ _ h => h.putBuf

theorem Keeps.infeasible {x : Sess} (h : Keeps s t) : Keeps s (t.infeasible x) :=
  h.setRun

theorem Keeps.rebind {x : Sess} {run : Run} {live : List Nat} (h : Keeps s t) : Keeps s (t.rebind x run live) := by
  unfold State.rebind
  dsimp only
  exact .ite h.infeasible (.ite h.setRun (.ite h.setRun (.writePrograms (.bindStreams (.setRun (.ite h.moveData
      h))))))

theorem Keeps.refoldImage {x : Sess} {y : Nat} {i : Image} (h : Keeps s t) : Keeps s (t.refoldImage x y i) := by
  unfold State.refoldImage
  dsimp only
  exact .ite h h.setSess.notify

theorem Keeps.refoldImages (h : Keeps s t) : Keeps s t.refoldImages := by
  unfold State.refoldImages
  exact h.foldl fun _ _ h => h.foldl fun _ _ h => h.refoldImage

theorem Keeps.rebindRuns (h : Keeps s t) : Keeps s t.rebindRuns := by
  unfold State.rebindRuns
  dsimp only
  exact h.foldl fun _ _ h => by
    split
    · exact h
    · exact .ite (.ite h h.setRun) (.ite h h.rebind)

theorem Keeps.refold (h : Keeps s t) : Keeps s t.refold :=
  h.rebindRuns.refoldImages

theorem Keeps.noteCapacity (h : Keeps s t) : Keeps s t.noteCapacity := by
  unfold State.noteCapacity
  dsimp only
  exact h.foldl fun _ _ h => .ite h (.unless h.setSess fun h => h.notify)

theorem Keeps.placeTile {x : Sess} {run : Run} {tile : Nat} (h : Keeps s t) : Keeps s (t.placeTile x run tile) :=
  h.putTile

theorem Keeps.armRings {x : Sess} {run : Run} {hosted : Nat → Bool} (h : Keeps s t) :
    Keeps s (t.armRings x run hosted) := by
  unfold State.armRings
  dsimp only
  exact h.foldl fun _ _ h => by
    refine .ite ?_ h
    split
    · exact .arm (h.congr rfl)
    · exact h

theorem Keeps.placeRun {x : Sess} {run : Run} (h : Keeps s t) : Keeps s (t.placeRun x run) := by
  unfold State.placeRun
  dsimp only
  exact .armRings (h.setRun.foldl fun _ _ h => h.placeTile)

theorem Keeps.logDigests {x : Sess} {i : Image} {run : Run} {digests : List DWord} {x' : Nat} (h : Keeps s t) :
    Keeps s (t.logDigests x i run digests x') := by
  unfold State.logDigests
  dsimp only
  exact .ite (h.foldl fun _ _ h => h.note) h

theorem Keeps.endIf {id : Nat} {finish : Option Nat} {cancelled : Bool} (h : Keeps s t) :
    Keeps s (t.endIf id finish cancelled) := by
  unfold State.endIf
  dsimp only
  split
  · exact h
  · exact h.setRun.release

theorem Keeps.tileBytes {slot off len : Nat} (h : Keeps s t) : Keeps s (t.tileBytes slot off len).2 := by
  unfold State.tileBytes
  exact .ite2 h (h.drawBytes (len := len))

theorem Keeps.snapTile {run : Run} (h : Keeps s t) : Keeps s (t.snapTile run).2 := by
  unfold State.snapTile
  split
  · exact h
  · exact .ite2 h.tileBytes h

theorem tabWf_foldl_modify {α : Type} [DecidableEq α] {d : α} {f : α → α} (l : List Nat) : ∀ {m : Tab α},
    tabWf d m = true → tabWf d (l.foldl (fun m c => modify d m c f) m) = true := by
  induction l with
  | nil => exact id
  | cons c r ih => exact fun hm => ih (tabWf_modify _ _ _ _ hm)

theorem Keeps.advance {x : Sess} {run : Run} (h : Keeps s t) : Keeps s (t.advance x run) := by
  have snap : Keeps s (t.snapTile run).2 := h.snapTile
  unfold State.advance
  exact .endIf (.setRun (.when (.when snap fun h => h.withBufs (tabWf_foldl_modify _)) fun h => h.logDigests))

theorem Keeps.settle (h : Keeps s t) : Keeps s t.settle := by
  unfold State.settle
  dsimp only
  exact .decideLoads (.congr (h.foldl fun _ _ h => h.advance) rfl)

theorem Keeps.settleStops (h : Keeps s t) : Keeps s t.settleStops := by
  unfold State.settleStops
  exact h.foldl fun _ _ h => h.endIf

theorem Keeps.closeTick (h : Keeps s t) : Keeps s t.closeTick := by
  unfold State.closeTick
  dsimp only
  exact .unless (h.congr rfl) fun h => h.settle

theorem Keeps.maybeClose (h : Keeps s t) : Keeps s t.maybeClose := by
  unfold State.maybeClose
  exact .ite h.closeTick h

theorem Keeps.shutRegion {r : Nat} (h : Keeps s t) : Keeps s (t.shutRegion r) := by
  unfold State.shutRegion
  exact .congr (.note (.unless (.fenceFabric (.dropWork (.stopUsers (h.withClk (tabWf_put 0 _ _ _) id id id))))
    fun h => h.notify)) rfl

theorem Keeps.fenceRegion {r : Nat} (h : Keeps s t) : Keeps s (t.fenceRegion r) := by
  unfold State.fenceRegion
  dsimp only
  exact .ite h (.shutRegion (.when (h.congr rfl) fun h => h.congr rfl))

theorem Keeps.fenceDie {d : Nat} (h : Keeps s t) : Keeps s (t.fenceDie d) := by
  unfold State.fenceDie
  dsimp only
  exact .ite h (.foldl (h.congr rfl) fun _ _ h => h.shutRegion)

theorem Keeps.moveIdentity {i : Nat} {copy : Bool} {u : State} (h : Keeps s t)
    (e : t.moveIdentity i copy = some u) : Keeps s u := by
  unfold State.moveIdentity at e
  dsimp only at e
  split at e
  · obtain rfl := Option.some.inj e
    exact .putTile (.putTile (h.withUnits (tabWf_put _ _ _ _)))
  · cases e

theorem Keeps.retireCluster {c : Nat} (h : Keeps s t) : Keeps s (t.retireCluster c) := by
  unfold State.retireCluster
  dsimp only
  exact .ite h (.note (h.congr rfl))

theorem Keeps.retireSlot {i : Nat} (h : Keeps s t) : Keeps s (t.retireSlot i) := by
  unfold State.retireSlot
  refine .ite h ?_
  split
  · exact h.congr rfl
  · split
    · rename_i e
      exact .note ((h.moveIdentity e).congr rfl)
    · exact h.retireCluster

theorem Keeps.restoreSlot {i : Nat} (h : Keeps s t) : Keeps s (t.restoreSlot i) := by
  unfold State.restoreSlot
  dsimp only
  exact .ite h (h.congr rfl)

theorem Keeps.restoreCluster {c : Nat} {fails : List Nat} (h : Keeps s t) : Keeps s (t.restoreCluster c fails) := by
  unfold State.restoreCluster
  split
  · exact h
  · exact (h.withUnits (x := { t.units with place := _, retiredClusters := _, retiredSlots := _ })
      (tabWf_put _ _ _ _)).withBufs (tabWf_modify _ _ _ _)

theorem Keeps.unfence {r : Nat} (h : Keeps s t) : Keeps s (t.unfence r) := by
  have back : Keeps s { t with units := { t.units with fencedRegions := withBit t.units.fencedRegions r false } } :=
    h.congr rfl
  unfold State.unfence
  exact .unless back fun h => .changeover (h.withClk (tabWf_put 0 _ _ _) id id id)

theorem Keeps.takeClaim {id : Nat} {c : Claim} (h : Keeps s t) : Keeps s (t.takeClaim id c) := by
  unfold State.takeClaim
  exact .ite h h.setMb

theorem Keeps.takeSession {c : SessCopy} (h : Keeps s t) : Keeps s (t.takeSession c) := by
  unfold State.takeSession
  dsimp only
  exact .ite h (.foldl (.foldl (h.congr rfl) fun _ _ h => h.setRegion) fun _ _ h => h.takeClaim)

theorem memWf_wrCells (l : Mem) : ∀ {m : Mem}, memWf m = true → memWf (wrCells m l) = true := by
  induction l with
  | nil => exact id
  | cons c r ih => exact fun hm => ih (memWf_wrByte _ _ _ hm)

theorem Keeps.takePart {x : Input} (h : Keeps s t) : Keeps s (t.takePart x) := by
  cases x with
  | page n m => exact h.withMem fun hm => memWf_wrCells _ (memWf_clearRange _ _ _ hm)
  | bank c m => exact h.putBuf
  | tile i m sq tq => exact h.putTile
  | session c => exact h.takeSession
  | _ => exact h

theorem Keeps.ignoreGo {n : Nat} (h : Keeps s t) : Keeps s (t.ignoreGo n) :=
  h.raise.setMb

theorem Keeps.accept {opcode : Nat} {g : Go} (h : Keeps s t) : Keeps s (t.accept opcode g) :=
  h.setMb

theorem Keeps.fetchPayload {g : Go} (h : Keeps s t) : Keeps s (t.fetchPayload g) := by
  unfold State.fetchPayload
  dsimp only
  exact .ite h (.ite h.holdAccess h.touch.correctRead)

theorem Keeps.answer {opcode : Nat} {g : Go} {x : Reply} (h : Keeps s t) : Keeps s (t.answer opcode g x) := by
  unfold State.answer
  split
  · exact h.postResult
  · exact h.setMb

theorem Keeps.check {c : Cmd} {g : Go} {own : State → Option Fail × State} (h : Keeps s t)
    (hown : ∀ u, Keeps s u → Keeps s (own u).2) : Keeps s (t.check c g own).2 := by
  unfold State.check
  refine .ite2 h ?_
  split
  · exact h
  · exact .ite2 h (hown _ (.ite h.fetchPayload h))

theorem Keeps.noCheck (h : Keeps s t) : Keeps s (noCheck t).2 :=
  h

theorem Keeps.newNonce (h : Keeps s t) : Keeps s t.newNonce := h.congr rfl

theorem Keeps.ownOpen {g : Go} (h : Keeps s t) : Keeps s (ownOpen g t).2 := by
  unfold Machine.ownOpen
  dsimp only
  split
  · exact h
  · refine .ite2 h ?_
    split
    · exact h
    · exact .ite2 h.newNonce h

theorem Keeps.coreAttach {g : Go} (h : Keeps s t) : Keeps s (coreAttach g t).2 := by
  unfold Machine.coreAttach
  dsimp only
  split
  · exact h
  · exact .ite2 h h.setSess.setMb

theorem Keeps.coreOpen {g : Go} (h : Keeps s t) : Keeps s (coreOpen g t).2 := by
  unfold Machine.coreOpen
  dsimp only
  refine .ite2 h.coreAttach (.ite2 h (.ite2 h ?_))
  split
  · exact h
  · exact .setMb (.congr (.when (h.congr rfl) fun h => h.devZero) rfl)

theorem Keeps.endReplay {n id : Nat} {o : Outcome} (h : Keeps s t) : Keeps s (t.endReplay n id o) := by
  unfold State.endReplay
  split
  · exact .ite h.finishBusy h
  · exact h

theorem Keeps.removeQueued {id : Nat} {hit : QItem → Bool} {code : Nat} (h : Keeps s t) :
    Keeps s (t.removeQueued id hit code).2 := by
  unfold State.removeQueued
  dsimp only
  split
  · exact h
  · exact h.setSess.foldl fun _ _ h => by
      split
      · exact h.postRecord
      · exact h.endReplay

theorem Keeps.beginClose {id : Nat} {own : Option Nat} (h : Keeps s t) : Keeps s (t.beginClose id own).2 := by
  unfold State.beginClose
  dsimp only
  split
  · exact h
  · exact .setSess (.abortLoads (h.removeQueued.stopStep.foldl fun _ _ h => by
      refine .ite h ?_
      split
      · refine .ite h ?_
        split
        · exact h
        · exact h.finishBusy
      · exact h))

theorem Keeps.coreClose {g : Go} (h : Keeps s t) : Keeps s (coreClose g t).2 :=
  h.beginClose

theorem Keeps.ownLimits {g : Go} (h : Keeps s t) : Keeps s (ownLimits g t).2 :=
  h

theorem Keeps.coreLimits {g : Go} (h : Keeps s t) : Keeps s (coreLimits g t).2 := by
  unfold Machine.coreLimits
  dsimp only
  split
  · exact h
  · exact .ite2 h (.ite2 h (.ite2 h h.setSess))

theorem Keeps.coreAlloc {g : Go} (h : Keeps s t) : Keeps s (coreAlloc g t).2 := by
  unfold Machine.coreAlloc
  dsimp only
  split
  · exact h
  · refine .ite2 h (.ite2 h (.ite2 h (.ite2 h ?_)))
    split
    · exact h
    · exact h.devZero.setSess

theorem Keeps.coreFree {g : Go} (h : Keeps s t) : Keeps s (coreFree g t).2 := by
  unfold Machine.coreFree
  dsimp only
  split
  · exact h
  · split
    · exact h
    · exact .ite2 h h.setSess

theorem Keeps.coreLoad {g : Go} (h : Keeps s t) : Keeps s (coreLoad g t).2 := by
  unfold Machine.coreLoad
  dsimp only
  split
  · exact h
  · refine .ite2 h ?_
    split
    · exact .ite h.raise h
    · split
      · exact h
      · exact h
      · exact .ite2 h h.zeroPlaced.draw.setSess

theorem Keeps.coreUnload {g : Go} (h : Keeps s t) : Keeps s (coreUnload g t).2 := by
  unfold Machine.coreUnload
  dsimp only
  split
  · exact h
  · split
    · exact h
    · exact .ite2 h h.setSess

theorem Keeps.coreBind {g : Go} (h : Keeps s t) : Keeps s (coreBind g t).2 := by
  unfold Machine.coreBind
  dsimp only
  split
  · exact h
  · split
    · exact h
    · exact .ite2 h (.ite2 h h.setSess)

theorem Keeps.ownSubmit {g : Go} (h : Keeps s t) : Keeps s (ownSubmit g t).2 :=
  h

theorem Keeps.coreSubmit {g : Go} (h : Keeps s t) : Keeps s (coreSubmit g t).2 := by
  unfold Machine.coreSubmit
  dsimp only
  split
  · exact h
  · refine .ite2 h ?_
    split
    · exact h
    · split
      · exact h
      · exact .ite2 h h.setSess

theorem Keeps.coreCancel {g : Go} (h : Keeps s t) : Keeps s (coreCancel g t).2 := by
  unfold Machine.coreCancel
  dsimp only
  split
  · exact h
  · exact .ite2 h.removeQueued.setRun h.removeQueued

theorem Keeps.ownReplay {g : Go} (h : Keeps s t) : Keeps s (ownReplay g t).2 :=
  h

theorem Keeps.coreReplay {g : Go} (h : Keeps s t) : Keeps s (coreReplay g t).2 := by
  unfold Machine.coreReplay
  dsimp only
  split
  · exact h
  · split
    · exact h
    · exact .ite2 h (.ite2 h (.ite2 h (.ite2 h (.ite2 h h.setSess))))

theorem Keeps.sealEnd {result : Nat} (h : Keeps s t) : Keeps s (t.sealEnd result) := by
  unfold State.sealEnd
  dsimp only
  exact h.congr rfl

theorem Keeps.signId {msg : List Byte} (h : Keeps s t) : Keeps s (t.signId msg).2 := by
  unfold State.signId
  split
  · exact h
  · exact h.draw

theorem Keeps.rejectFabric {b : List Byte} (h : Keeps s t) : Keeps s (t.rejectFabric b) :=
  h.raise

theorem Keeps.addLoad {b : List Byte} {short : Bool} {key : List Byte} {mb : Option Nat} {sess : Nat} (h : Keeps s
    t) :
    Keeps s (t.addLoad b short key mb sess).2 := by
  unfold State.addLoad
  dsimp only
  exact h.congr rfl

theorem Keeps.ownFabric {full : Bool} {partner : Option Nat} {g : Go} (h : Keeps s t) :
    Keeps s (ownFabric full partner g t).2 := by
  unfold Machine.ownFabric
  dsimp only
  refine .ite2 h ?_
  split
  · exact h.rejectFabric
  · exact .ite2 h h

theorem Keeps.coreFabric {full : Bool} {g : Go} (h : Keeps s t) : Keeps s (coreFabric full g t).2 := by
  unfold Machine.coreFabric
  dsimp only
  split
  · exact h.rejectFabric
  · exact h.addLoad

theorem Keeps.coreOf {opcode : Nat} {g : Go} (h : Keeps s t) : Keeps s (coreOf opcode g t).2 := by
  unfold Machine.coreOf
  exact .ite2 h.coreOpen (.ite2 h.coreClose (.ite2 h.coreLimits (.ite2 h.coreAlloc (.ite2 h.coreFree (.ite2
      h.coreLoad (.ite2 h.coreUnload (.ite2 h.coreBind (.ite2 h.coreSubmit (.ite2 h.coreCancel (.ite2 h.coreFabric
      (.ite2 h.coreFabric (.ite2 h.coreReplay h))))))))))))

theorem Keeps.keepOutcome {b : BusyCmd} {o : Outcome} (h : Keeps s t) : Keeps s (t.keepOutcome b o) := by
  unfold State.keepOutcome
  dsimp only
  exact .ite (h.congr rfl) h

theorem Keeps.compareOutcomes (h : Keeps s t) : Keeps s t.compareOutcomes := by
  unfold State.compareOutcomes
  dsimp only
  exact .ite (.when (h.congr rfl) fun h => h.leavePair) h

theorem Keeps.applyOrdered {b : BusyCmd} (h : Keeps s t) : Keeps s (t.applyOrdered b) := by
  have core : Keeps s (Machine.coreOf b.opcode b.go t).2 := h.coreOf
  unfold State.applyOrdered
  dsimp only
  split
  · exact core.keepOutcome.finishBusy
  · exact core.keepOutcome.answer

theorem Keeps.dropOrder {mb go : Nat} (h : Keeps s t) : Keeps s (t.dropOrder mb go) := by
  unfold State.dropOrder
  dsimp only
  exact h.congr rfl

theorem Keeps.unmatch {mb go : Nat} (h : Keeps s t) : Keeps s (t.unmatch mb go) := by
  unfold State.unmatch
  dsimp only
  split
  · exact .finishBusy (h.dropOrder.congr rfl)
  · exact h.dropOrder.congr rfl

theorem Keeps.matchOne {m x : OrderRec} (h : Keeps s t) : Keeps s (t.matchOne m x) := by
  unfold State.matchOne
  refine .ite h.unmatch ?_
  split
  · exact h.dropOrder
  · exact .ite h.dropOrder.finishBusy (.ite h.dropOrder.forward.applyOrdered h)

theorem Keeps.matchOrders (h : Keeps s t) : Keeps s t.matchOrders := by
  unfold State.matchOrders
  exact h.foldl fun _ _ h => by
    split
    · exact h.matchOne
    · exact h

theorem Keeps.holdOrder {c : Cmd} {g : Go} {f : Option Fail} (h : Keeps s t) : Keeps s (t.holdOrder c g f) := by
  unfold State.holdOrder
  dsimp only
  exact .matchOrders (h.setMb.congr rfl)

theorem Keeps.orderRest (h : Keeps s t) : Keeps s t.orderRest := by
  unfold State.orderRest
  dsimp only
  exact .foldl (h.congr rfl) fun _ _ h => by
    split
    · exact .ite h.finishBusy h.applyOrdered
    · exact h

theorem Keeps.restore (h : Keeps s t) : Keeps s t.restore := by
  unfold State.restore
  dsimp only
  exact .foldl (h.congr rfl) fun _ _ h => h.takeSession

theorem Keeps.endPair (h : Keeps s t) : Keeps s t.endPair := by
  unfold State.endPair
  dsimp only
  exact .when (.release (.release (h.acknowledge.idleStrait.congr rfl))) fun h => h.settle

theorem Keeps.promoteSelf (h : Keeps s t) : Keeps s t.promoteSelf := by
  unfold State.promoteSelf
  dsimp only
  exact .ite h.orderRest.setRole.rewriteHealth.restore h.orderRest.setRole.rewriteHealth.flushSuppressed

theorem Keeps.takeOver (h : Keeps s t) : Keeps s t.takeOver := by
  unfold State.takeOver
  dsimp only
  exact .ite h.endPair.promoteSelf (.ite (.setRole (h.endPair.congr rfl)) h.endPair)

theorem Keeps.noticeRelease (h : Keeps s t) : Keeps s t.noticeRelease := by
  unfold State.noticeRelease
  dsimp only
  exact h.foldl fun _ _ h => .ite h (.setSess (h.foldl fun _ _ h => h.foldl fun _ _ h => h.runTile))

theorem Keeps.idleDone (h : Keeps s t) : Keeps s t.idleDone := by
  unfold State.idleDone
  dsimp only
  exact h.congr rfl

theorem Keeps.mapEng {f : Nat → Stream → Stream} (h : Keeps s t) : Keeps s { t with
    eng := mapTab {} (fun _ e => { e with streams := mapTab {} f e.streams }) t.eng } := by
  refine h.withEng (tabWf_mapTab _ _ _) (forall_mapTab (P := Engine.wf) fun _ _ w => ?_)
  exact Engine.wf_mapTab f w

theorem Keeps.placeTick (h : Keeps s t) : Keeps s t.placeTick := by
  have cleared : Keeps s { t with
      tiles := mapTab {} (fun _ t => { emptyTile t with tickOvf := 0, sq0 := t.sq, tq0 := t.tq }) t.tiles
      eng := mapTab {}
        (fun _ e => { e with streams := mapTab {} (fun _ x => { x with stopped := false }) e.streams }) t.eng } :=
    (h.withTiles (tabWf_mapTab _ _ _)).mapEng
  unfold State.placeTick
  exact .idleDone (.foldl (cleared.withTick fun _ => rfl) fun _ _ h => h.placeRun)

theorem Keeps.issue (h : Keeps s t) : Keeps s t.issue := by
  unfold State.issue
  exact .maybeClose (.noticeRelease (.placeTick (.congr
    (.withCtl (h.withRegions (tabWf_mapTab _ _ _)) (tabWf_mapTab _ _ _)) rfl)))

theorem Keeps.noteStretch {late : Nat} (h : Keeps s t) : Keeps s (t.noteStretch late) := by
  unfold State.noteStretch
  dsimp only
  exact .ite h (.foldl (.congr (.ite h h.raise) rfl) fun _ _ h => h.setRegion)

theorem Keeps.readTemps {l : List (Nat × Nat)} (h : Keeps s t) : Keeps s (t.readTemps l) := by
  unfold State.readTemps
  dsimp only
  exact h.foldl fun _ _ h => .ite (.when h.setCtl fun h => h.raise) h

theorem Keeps.judge (h : Keeps s t) : Keeps s t.judge := by
  unfold State.judge
  dsimp only
  exact .foldl (.congr (.ite h.raise h) rfl) fun _ _ h => .ite h.setRegion h.setRegion

theorem Keeps.applyStep {r : Nat} (h : Keeps s t) : Keeps s (t.applyStep r) := by
  unfold State.applyStep
  dsimp only
  exact .setRegion (.ite h h.muxAsk)

theorem Keeps.applySteps (h : Keeps s t) : Keeps s t.applySteps := by
  unfold State.applySteps
  exact h.foldl fun _ _ h => .ite h h.applyStep

theorem Keeps.applySettings (h : Keeps s t) : Keeps s t.applySettings := by
  unfold State.applySettings
  dsimp only
  exact .when (.ite (h.congr rfl) h) fun h => h.congr rfl

theorem Keeps.promote (h : Keeps s t) : Keeps s t.promote := by
  unfold State.promote
  dsimp only
  exact .ite h (.ite (h.congr rfl) (.ite (.release (.ite (.flushSuppressed (.setRole (h.congr rfl))) (.keepRecords
      (.setRole (h.congr rfl))))) (.release (h.congr rfl))))

theorem Keeps.retireLane {l : Nat} (h : Keeps s t) : Keeps s (t.retireLane l) := by
  have out : Keeps s { t with units := { t.units with retiredLanes := t.units.retiredLanes ||| bitW l true } } :=
    h.congr rfl
  unfold State.retireLane
  exact .fixLane (.setLane (.when (out.withClk id (tabWf_put 0 _ _ _) id id) fun h => h.raise))

theorem Keeps.restoreLane {l : Nat} (h : Keeps s t) : Keeps s (t.restoreLane l) := by
  have back : Keeps s { t with units := { t.units with retiredLanes := t.units.retiredLanes &&& ~~~ bitW l true } } :=
    h.congr rfl
  unfold State.restoreLane
  exact .fixLane (.withClk back.setLane id (tabWf_put 0 _ _ _) id id)

theorem Keeps.moveIdentityD {i : Nat} {copy : Bool} {u : State} (h : Keeps s t) (hu : Keeps s u) :
    Keeps s ((t.moveIdentity i copy).getD u) := by
  cases e : t.moveIdentity i copy with
  | none => exact hu
  | some v => exact h.moveIdentity e

theorem Keeps.restoreRegion {r : Nat} {fails : List (Nat × Nat)} (h : Keeps s t) :
    Keeps s (t.restoreRegion r fails) := by
  unfold State.restoreRegion
  refine .unfence (h.foldl fun _ _ h => .ite h.restoreCluster (.ite h.retireCluster
    (h.foldl fun _ _ h => .ite h ?_)))
  split
  · exact h.congr rfl
  · exact h.moveIdentityD h.retireCluster

theorem Keeps.changeUnit {x : UnitChange} (h : Keeps s t) : Keeps s (t.changeUnit x) := by
  unfold State.changeUnit
  dsimp only
  split
  · exact h.fenceRegion
  · exact h.fenceDie
  · exact .ite h h.retireCluster
  · exact .ite h h.retireSlot
  · exact h.retireLane
  · exact h.restoreSlot
  · exact h.restoreCluster
  · exact h.restoreRegion
  · exact .restoreRegion (.restoreRegion (.unless (.unless (h.congr rfl) fun h => h.congr rfl) fun h => h.congr
      rfl))
  · exact h.restoreLane

theorem Keeps.changeUnits (h : Keeps s t) : Keeps s t.changeUnits := by
  unfold State.changeUnits
  dsimp only
  exact .congr (.foldl (h.congr rfl) fun _ _ h => h.changeUnit) rfl

theorem Keeps.giveUp {id : Nat} {rs : DWord} (h : Keeps s t) : Keeps s (t.giveUp id rs) := by
  unfold State.giveUp
  dsimp only
  exact h.abortLoads.setSess.foldl fun _ _ h => .ite h.setRegion h.changeover

theorem Keeps.changePartitions (h : Keeps s t) : Keeps s t.changePartitions := by
  unfold State.changePartitions
  dsimp only
  exact h.foldl fun _ _ h => .ite (.setSess (h.giveUp.foldl fun _ _ h => h.setRegion)) h

theorem Keeps.closeSessions (h : Keeps s t) : Keeps s t.closeSessions := by
  unfold State.closeSessions
  dsimp only
  exact h.foldl fun _ _ h => .ite h.setSess.giveUp h

theorem Keeps.dropSession {id : Nat} (h : Keeps s t) : Keeps s (t.dropSession id) := by
  unfold State.dropSession
  dsimp only
  split
  · exact h
  · exact .freeMailboxesOf (.congr (h.foldl fun _ _ h => by
      split
      · exact .ite h.postResult h
      · exact h) rfl)

theorem Keeps.endCloses (h : Keeps s t) : Keeps s t.endCloses := by
  unfold State.endCloses
  exact h.foldl fun _ _ h => by
    refine .ite ?_ h
    split
    · exact .ite h h.dropSession
    · exact h.release

theorem Keeps.countChangeovers (h : Keeps s t) : Keeps s t.countChangeovers :=
  h.withRegions (tabWf_mapTab _ _ _)

theorem Keeps.tendTier (h : Keeps s t) : Keeps s t.tendTier := by
  unfold State.tendTier
  dsimp only
  exact .ite h (.ite h.setTier (.ite h.setTier h))

theorem Keeps.rejoinLanes (h : Keeps s t) : Keeps s t.rejoinLanes := by
  unfold State.rejoinLanes
  exact .judgeLink (h.foldl fun _ _ h => .ite h.setStrLane h)

theorem Keeps.applyInput {x : Input} (h : Keeps s t) : Keeps s (t.applyInput x) := by
  unfold State.applyInput
  split
  · exact h.devStore
  · exact h.setLane
  · exact h
  · exact h
  · exact h
  · exact h
  · exact h
  · exact h
  · exact h
  · exact h

theorem Keeps.applyInputs (h : Keeps s t) : Keeps s t.applyInputs := by
  unfold State.applyInputs
  dsimp only
  exact .leavePanic (.foldl (h.congr rfl) fun _ _ h => h.applyInput)

theorem Keeps.applyRetires (h : Keeps s t) : Keeps s t.applyRetires := by
  unfold State.applyRetires
  dsimp only
  exact h.foldl fun _ _ h => by
    split
    · exact .ite (h.congr rfl) h
    · exact h

theorem Keeps.deliverWords (h : Keeps s t) : Keeps s t.deliverWords := by
  unfold State.deliverWords
  exact h.foldl fun _ _ h => .ite h h.draw.setLane

theorem Keeps.answerBoundary (h : Keeps s t) : Keeps s t.answerBoundary := by
  unfold State.answerBoundary
  dsimp only
  exact .endCloses (.release (.foldl (h.foldl fun _ _ h => .ite h.setSess.release h) fun _ _ h => .ite (h.foldl fun
      _ _ h => by
    split
    · exact .ite h.finishBusy h.setMb
    · exact h) h))

theorem Keeps.boundary {b : BoundarySample} (h : Keeps s t) : Keeps s (t.boundary b) := by
  unfold State.boundary
  dsimp only
  exact .answerBoundary (.applyInputs (.promote (.rejoinLanes (.applySteps (.tendTier (.testBorders (.beginLoads
      (.noteCapacity (.refold (.changePartitions (.closeSessions (.changeUnits (.countChangeovers (.applySettings
      (.judge (.readTemps (.settleStops (.applyRetires (.deliverWords (.when (h.congr rfl) fun h =>
      h.fixLanes))))))))))))))))))))

theorem Keeps.sendPair (h : Keeps s t) : Keeps s t.sendPair := by
  unfold State.sendPair
  dsimp only
  exact .ite (h.congr rfl) h

theorem Keeps.tellDone (h : Keeps s t) : Keeps s t.tellDone := by
  unfold State.tellDone
  dsimp only
  exact .ite (.sendPair (h.congr rfl)) h

theorem Keeps.decideUnits (h : Keeps s t) : Keeps s t.decideUnits := by
  unfold State.decideUnits
  dsimp only
  exact .ite (h.foldl fun _ _ h => .ite (.forward (h.congr rfl)) h) h

theorem Keeps.rerunTick (h : Keeps s t) : Keeps s t.rerunTick := by
  have stretched : Keeps s (if t.tick.held then t else t.raise .tickStatus 0x40000000) := .ite h h.raise
  unfold State.rerunTick
  exact .tellDone (.maybeClose (.congr (.placeTick (.congr
    (.mapEng (stretched.withTiles (tabWf_mapTab _ _ _))) rfl)) rfl))

theorem Keeps.knownAnswer (h : Keeps s t) : Keeps s t.knownAnswer := by
  unfold State.knownAnswer
  dsimp only
  exact .ite (.sendPair (h.draw.congr rfl)) h

theorem Keeps.resolve (h : Keeps s t) : Keeps s t.resolve := by
  unfold State.resolve
  dsimp only
  split
  · exact .ite (.leavePair (.settle (h.congr rfl))) (.ite (.takeOver (h.congr rfl)) (.settle (.foldl (.raise
      (h.congr rfl)) fun _ _ h => .ite h.stopStep h)))
  · exact h

theorem Keeps.diverge (h : Keeps s t) : Keeps s t.diverge := by
  unfold State.diverge
  dsimp only
  exact .resolve (.knownAnswer (.sendPair (h.congr rfl)))

theorem Keeps.compareTick (h : Keeps s t) : Keeps s t.compareTick := by
  unfold State.compareTick
  dsimp only
  exact .when h.tellDone fun h => .ite (.settle (h.congr rfl)) (.ite h.rerunTick h.diverge)

theorem Keeps.abandon {c : Nat} (h : Keeps s t) : Keeps s (t.abandon c) := by
  unfold State.abandon
  dsimp only
  exact .foldl (h.markEmerg.foldl fun _ _ h => h.runTile) fun _ _ h => by
    split
    · split
      · exact .ite h.setStream h
      · exact h
    · exact h

theorem Keeps.rerunCluster {c : Nat} {x : Sess} {run : Run} (h : Keeps s t) : Keeps s (t.rerunCluster c x run) := by
  unfold State.rerunCluster
  extract_lets i r mine u v _ w a
  have hu : Keeps s u := h.foldl fun _ _ h => h.putTile
  have hv : Keeps s v := hu.foldl fun v n h => by
    split
    · exact .ite h.restartStream.setStream h
    · exact h
  have hw : Keeps s w := by
    clear_value v
    refine hv.withTick fun wf => ?_
    dsimp only
    exact tabWf_put _ _ _ _ wf
  have ha : Keeps s a := hw.foldl fun _ _ h => h.placeTile
  exact ha.armRings

theorem Keeps.discardArrays {c : Nat} (h : Keeps s t) : Keeps s (t.discardArrays c) := by
  unfold State.discardArrays
  dsimp only
  exact h.markEmerg.foldl fun _ _ h => h.haltSlot

theorem Keeps.tileFails {i : Nat} (h : Keeps s t) : Keeps s (t.tileFails i) := by
  unfold State.tileFails
  extract_lets c _ u un v _ w
  have trouble : Keeps s u := h.congr rfl
  have idle : Keeps s v := trouble.discardArrays
  clear_value v
  have left : Keeps s w := idle.congr rfl
  clear_value u
  have gone : Keeps s { u with units := { u.units with retiredSlots := u.units.retiredSlots ++ [i] } } :=
    trouble.congr rfl
  refine .ite h ?_
  clear_value w
  cases u.units.tileOf i with
  | none => exact gone.note
  | some _ =>
    cases e : v.moveIdentity i false with
    | some m =>
      have moved : Keeps s (m.note .unit i 0 []) := (idle.moveIdentity e).note
      dsimp only
      clear_value c
      generalize m.note .unit i 0 [] = m at moved
      cases m.userOf c with
      | none => exact moved
      | some p => exact .ite (.stopStep moved.abandon) (.when moved.writePrograms fun h => h.rerunCluster)
    | none =>
      dsimp only
      cases w.userOf c with
      | none => exact left
      | some _ => exact .stopStep (.when left fun h => h.abandon)

theorem Keeps.due (h : Keeps s t) : Keeps s t.due := by
  unfold State.due
  dsimp only
  exact .unless (h.congr rfl) fun h => h.raise.congr rfl

theorem Keeps.countOverrun {i : Nat} (h : Keeps s t) : Keeps s (t.countOverrun i) := by
  unfold State.countOverrun
  dsimp only
  exact .when (h.congr rfl) fun h => h.congr rfl

theorem Keeps.reportDone {r : Nat} {busy : List (Nat × Nat)} (h : Keeps s t) : Keeps s (t.reportDone r busy) := by
  unfold State.reportDone
  dsimp only
  exact .compareTick (.maybeClose (.congr (h.setRegion.foldl fun _ _ h => h.countOverrun) rfl))

theorem Keeps.cross {late : Nat} {b : BoundarySample} (h : Keeps s t) : Keeps s (t.cross late b) := by
  have acted : Keeps s (t.boundary b) := h.boundary
  unfold State.cross
  generalize t.boundary b = u at acted
  exact .ite (.ite acted (.congr (acted.raise (g := .tickStatus) (mask := 0x40000000)) rfl))
    (.tellDone (.issue acted.noteStretch))

theorem Keeps.reach {late : Nat} {b : BoundarySample} (h : Keeps s t) : Keeps s (t.reach late b) := by
  unfold State.reach
  dsimp only
  exact .when h.decideUnits fun h => h.cross

theorem Keeps.endCopy {late : Nat} (h : Keeps s t) : Keeps s (t.endCopy late) := by
  unfold State.endCopy
  dsimp only
  exact .when (h.congr rfl) fun h => h.noteStretch.issue.tellDone

theorem Keeps.endChangeover {r : Nat} (h : Keeps s t) : Keeps s (t.endChangeover r) := by
  unfold State.endChangeover
  dsimp only
  exact .endCloses (.foldl (.changePartitions (h.setRegion.congr rfl)) fun _ _ h => .ite (h.foldl fun _ _ h => by
    split
    · exact .ite h h.finishBusy
    · exact h) h)

theorem Keeps.warn {r : Nat} (h : Keeps s t) : Keeps s (t.warn r) := by
  unfold State.warn
  dsimp only
  exact .foldl (h.congr rfl) fun _ _ h => h.runTile

theorem Keeps.copyTensors {i : Image} {p : Tab Nat} (l : List Nat) : ∀ {t : State}, Keeps s t →
    Keeps s (t.copyTensors i p l) := by
  induction l with
  | nil => exact id
  | cons k r ih =>
    refine fun h => ih (.withMem ?_ (memWf_copyRange _ _ _ _ _))
    exact .ite (.startExit (.ite h.mark.startExit h.mark)) (.ite h.mark.startExit h.mark)

theorem Keeps.refuseStart {x : Sess} {q : QItem} {o : Outcome} (h : Keeps s t) : Keeps s (t.refuseStart x q o) := by
  unfold State.refuseStart
  dsimp only
  split
  · exact h.setSess.setSess.postRecord
  · exact h.setSess.endReplay

theorem Keeps.startItem {x : Sess} {q : QItem} (h : Keeps s t) : Keeps s (t.startItem x q) := by
  unfold State.startItem
  dsimp only
  refine .ite h.forward.refuseStart ?_
  split
  · exact h.forward.setSess
  · split
    · exact .setSess (h.forward.copyTensors _)
    · exact h.forward.refuseStart

theorem Keeps.endRun {x : Sess} {run : Run} {rp : ReplayReq} {code : Nat} (h : Keeps s t) :
    Keeps s (t.endRun x run rp code) := by
  unfold State.endRun
  dsimp only
  exact .ite h.endReplay (.ite h.endReplay (.endReplay (.ite (.devStore (.ite h.holdAccess h)) (.congr (.ite
      h.holdAccess h) rfl))))

theorem Keeps.dropImage {x : Sess} {run : Run} {code : Nat} (h : Keeps s t) : Keeps s (t.dropImage x run code) := by
  unfold State.dropImage
  exact .ite h.removeQueued h

theorem Keeps.completeRun {x : Sess} {run : Run} {code : Nat} (h : Keeps s t) :
    Keeps s (t.completeRun x run code) := by
  unfold State.completeRun
  dsimp only
  split
  · exact h.setSess.endRun.dropImage
  · exact h.setSess.setSess.postRecord.dropImage

theorem Keeps.readClaim {n : Nat} (h : Keeps s t) : Keeps s (t.readClaim n).2 := by
  unfold State.readClaim
  exact .ite2 h.setMb h

theorem Keeps.writeClaim {n : Nat} {tag : Word} (h : Keeps s t) : Keeps s (t.writeClaim n tag) := by
  unfold State.writeClaim
  exact .ite h.setMb h

theorem Keeps.writeConsumer {n : Nat} {v : Word} (h : Keeps s t) : Keeps s (t.writeConsumer n v) := by
  unfold State.writeConsumer
  dsimp only
  split
  · exact h
  · exact .ite h.setSess h.raise

theorem Keeps.raiseEach {n : Nat} {m : Word} (h : Keeps s t) : Keeps s (t.raiseEach n m) := by
  unfold State.raiseEach
  exact h.foldl fun _ _ h => .ite h.raiseVector h

theorem Keeps.clearEvents {n : Nat} {w hwSet : Word} (h : Keeps s t) : Keeps s (t.clearEvents n w hwSet) :=
  h.w1c.raiseEach

theorem Keeps.takeWord {n off : Nat} (h : Keeps s t) : Keeps s (t.takeWord n off).2 := by
  unfold State.takeWord
  exact .ite2 h.readClaim (.ite2 (h.congr rfl) h)

theorem Keeps.takeWords {n : Nat} (k : Nat) : ∀ {off : Nat} {t : State}, Keeps s t →
    Keeps s (State.takeWords n off t k).2 := by
  induction k with
  | zero => exact id
  | succ k ih => exact fun h => ih h.takeWord

theorem Keeps.readMailbox {n off len : Nat} (h : Keeps s t) : Keeps s (t.readMailbox n off len).2 := by
  unfold State.readMailbox
  exact .ite2 h (.ite2 (h.takeWords _) h)

theorem Keeps.writeGo {n : Nat} {v : Word} (h : Keeps s t) : Keeps s (t.writeGo n v) := by
  unfold State.writeGo
  exact .ite h h.ignoreGo

theorem Keeps.putWord {hwSet : Word} {n off : Nat} {v : Word} (h : Keeps s t) :
    Keeps s (t.putWord hwSet n off v) := by
  unfold State.putWord
  exact .ite (.ite h h.setMb) (.ite h.setMb (.ite h.writeClaim (.ite h.writeConsumer (.ite h.clearEvents (.ite
      h.writeGo h)))))

theorem Keeps.writeMailbox {n off : Nat} {b : List Byte} {hwSet : Word} (h : Keeps s t) :
    Keeps s (t.writeMailbox n off b hwSet) := by
  unfold State.writeMailbox
  exact .ite (.ite h h.setMb) (.ite (h.foldl fun _ _ h => h.putWord) h)

theorem Keeps.writeVectors {off : Nat} {b : List Byte} (h : Keeps s t) : Keeps s (t.writeVectors off b) := by
  unfold State.writeVectors
  dsimp only
  exact h.congr rfl

theorem Keeps.readBar {a len : Nat} {b : List Byte} {u : State} (h : Keeps s t)
    (e : t.readBar a len = some (b, u)) : Keeps s u := by
  unfold State.readBar at e
  split at e
  · obtain rfl := congrArg Prod.snd (Option.some.inj e)
    exact h.readMailbox
  · obtain rfl := congrArg Prod.snd (Option.some.inj e)
    exact h
  · cases e

theorem Keeps.writeBar {a : Nat} {b : List Byte} {hwSet : Word} (h : Keeps s t) :
    Keeps s (t.writeBar a b hwSet) := by
  unfold State.writeBar
  split
  · exact h.writeMailbox
  · exact h.writeVectors
  · exact h

theorem Keeps.runCmd {c : Cmd} {g : Go} {own : State → Option Fail × State} {core : State → Reply × State}
    (h : Keeps s t) (hown : ∀ u, Keeps s u → Keeps s (own u).2) (hcore : ∀ u, Keeps s u → Keeps s (core u).2) :
    Keeps s (t.runCmd c g own core) := by
  have checked : Keeps s ((t.accept c.opcode g).check c g own).2 := h.accept.check hown
  unfold State.runCmd
  refine .ite h (.ite h.ignoreGo (.ite checked.holdOrder.sendPair ?_))
  split
  · exact checked.postResult
  · exact (hcore _ checked).answer

theorem Keeps.coreQuery {g : Go} (h : Keeps s t) : Keeps s (coreQuery g t).2 := by
  unfold Machine.coreQuery
  dsimp only
  split
  · exact h
  · exact h.draw.setSess

theorem Keeps.badOpcode {g : Go} {opcode : Nat} (h : Keeps s t) : Keeps s (t.badOpcode g opcode) := by
  unfold State.badOpcode
  dsimp only
  exact .ite h.ignoreGo h.accept.postResult

theorem Keeps.coreInfo (h : Keeps s t) : Keeps s (coreInfo t).2 :=
  h

theorem Keeps.coreFabStatus {g : Go} (h : Keeps s t) : Keeps s (coreFabStatus g t).2 := by
  unfold Machine.coreFabStatus
  dsimp only
  exact .ite2 h h

theorem Keeps.coreTelemetry {g : Go} (h : Keeps s t) : Keeps s (coreTelemetry g t).2 := by
  unfold Machine.coreTelemetry
  dsimp only
  split
  · exact h
  · exact .ite2 h (.ite2 h h.draw)

theorem Keeps.coreLogRead {g : Go} (h : Keeps s t) : Keeps s (coreLogRead g t).2 := by
  unfold Machine.coreLogRead
  dsimp only
  split
  · exact h
  · exact h.draw

theorem Keeps.storeCopy {b : List Byte} (h : Keeps s t) : Keeps s (t.storeCopy b).2.2 := by
  unfold State.storeCopy
  dsimp only
  exact h.congr rfl

theorem Keeps.writeSettings {b : List Byte} {fromBus flashOk : Bool} {seq copy : Nat} {u : State} (h : Keeps s t)
    (e : t.writeSettings b fromBus flashOk = .ok (seq, copy, u)) : Keeps s u := by
  unfold State.writeSettings at e
  dsimp only at e
  split at e
  · cases e
  · split at e
    · cases e
    · split at e
      · cases e
      · split at e
        · cases e
        · obtain ⟨-, -, rfl⟩ := e
          exact .congr h.storeCopy rfl

theorem Keeps.coreSettingsWrite {g : Go} {flashOk : Bool} (h : Keeps s t) :
    Keeps s (coreSettingsWrite g flashOk t).2 := by
  unfold Machine.coreSettingsWrite
  split
  · exact h
  · exact h.writeSettings ‹_›

theorem Keeps.coreSettingsRead {g : Go} (h : Keeps s t) : Keeps s (coreSettingsRead g t).2 := by
  unfold Machine.coreSettingsRead
  dsimp only
  exact .ite2 h (.ite2 h h)

theorem Keeps.ownUnit {g : Go} (h : Keeps s t) : Keeps s (ownUnit g t).2 :=
  h

theorem Keeps.beginRetire {stack pc : Nat} {mb : Option Nat} (h : Keeps s t) :
    Keeps s (t.beginRetire stack pc mb) := by
  unfold State.beginRetire
  dsimp only
  exact .setCtl (h.draw.congr rfl)

theorem Keeps.drainFor {n : Nat} (h : Keeps s t) : Keeps s (t.drainFor n) := by
  unfold State.drainFor
  dsimp only
  exact .leavePanic (.foldl (h.congr rfl) fun _ _ h => h.hostStore)

theorem Keeps.freezeCtl {n addr : Nat} {cmd : Bool} {session : Option Nat} (h : Keeps s t) :
    Keeps s (t.freezeCtl n addr cmd session) := by
  unfold State.freezeCtl
  dsimp only
  exact .ite h (.leavePair (.foldl (.abortLoads (.congr (.note (.foldl (h.drainFor.raise.setCtl.congr rfl) fun _ _ h
      => by
    split
    · exact h.setCtl.finishBusy
    · exact h.setCtl)) rfl)) fun _ _ h => h.stopStep))

theorem Keeps.retirePc {g : Go} {stack pc : Nat} (h : Keeps s t) : Keeps s (t.retirePc g stack pc).2 := by
  unfold State.retirePc
  dsimp only
  exact .ite2 h (.ite2 h (.ite2 h.draw.freezeCtl h.beginRetire))

theorem Keeps.addChange {u : UnitChange} (h : Keeps s t) : Keeps s (t.addChange u) := by
  unfold State.addChange
  dsimp only
  exact h.congr rfl

theorem Keeps.coreRetire {g : Go} (h : Keeps s t) : Keeps s (coreRetire g t).2 := by
  unfold Machine.coreRetire
  dsimp only
  exact .ite2 h.retirePc h.addChange

theorem Keeps.coreRestore {g : Go} {x : SelfTest} (h : Keeps s t) : Keeps s (coreRestore g x t).2 := by
  unfold Machine.coreRestore
  dsimp only
  exact .ite2 h (.ite2 h (.ite2 (.ite2 h h) (.ite2 h h.addChange)))

theorem Keeps.coreSelfTest {g : Go} {x : SelfTest} (h : Keeps s t) : Keeps s (coreSelfTest g x t).2 := by
  unfold Machine.coreSelfTest
  dsimp only
  exact .ite2 h h

theorem Keeps.readWindow {w : Window} (h : Keeps s t) : Keeps s (t.readWindow w).2 := by
  unfold State.readWindow
  refine .ite2 h.draw ?_
  split
  · exact h.draw
  · exact h.draw

theorem Keeps.putPool {r v : Nat} {b : List Byte} (h : Keeps s t) : Keeps s (t.putPool r v b) := by
  unfold State.putPool
  dsimp only
  split
  · exact h
  · exact h.setStream

theorem Keeps.writeWindow {w : Window} {x : Word} (h : Keeps s t) : Keeps s (t.writeWindow w x) := by
  unfold State.writeWindow
  dsimp only
  split
  · exact .ite h.draw.putPool h.draw.putBuf
  · exact h.draw.putTile

theorem Keeps.readWord {a : Nat} {w : Word} {u : State} (h : Keeps s t) (e : t.readWord a = some (w, u)) :
    Keeps s u := by
  unfold State.readWord at e
  split at e
  · split at e
    · obtain rfl := congrArg Prod.snd (Option.some.inj e)
      exact h.readReg
    · cases e
  · split at e
    · split at e
      · obtain rfl := congrArg Prod.snd (Option.some.inj e)
        exact h.readWindow
      · cases e
    · cases e

theorem Keeps.readWords (n : Nat) : ∀ {a : Nat} {t : State}, Keeps s t → Keeps s (State.readWords a n t).2 := by
  induction n with
  | zero => exact id
  | succ n ih =>
    intro a t h
    unfold State.readWords
    split
    · exact h
    · exact ih (h.readWord ‹_›)

theorem Keeps.noteGate {x : Reg} {x' : Word} (h : Keeps s t) : Keeps s (t.noteGate x x') := by
  unfold State.noteGate
  split
  · exact h.note
  · exact h.note
  · exact h

theorem Keeps.writeWord {a : Nat} {w : Word} {u : State} (h : Keeps s t) (e : t.writeWord a w = .ok u) :
    Keeps s u := by
  unfold State.writeWord at e
  split at e
  · split at e
    · cases e
    · split at e
      · cases e
      · cases e
        exact h.writeReg.noteGate
  · split at e
    · split at e
      · cases e
        exact h.writeWindow
      · cases e
    · cases e

theorem Keeps.writeWords (l : List Word) : ∀ {a : Nat} {t : State}, Keeps s t →
    Keeps s (State.writeWords a l t).2.2 := by
  induction l with
  | nil => exact id
  | cons w r ih =>
    intro a t h
    unfold State.writeWords
    split
    · exact h
    · exact ih (h.writeWord ‹_›)

theorem Keeps.ownReg {limit : Nat} {g : Go} (h : Keeps s t) : Keeps s (ownReg limit g t).2 :=
  h

theorem Keeps.coreRegRead {g : Go} (h : Keeps s t) : Keeps s (coreRegRead g t).2 := h.readWords _

theorem Keeps.coreRegWrite {g : Go} (h : Keeps s t) : Keeps s (coreRegWrite g t).2 := h.writeWords _

theorem Keeps.readerStops {reader : Option (Nat × Nat)} (h : Keeps s t) : Keeps s (t.readerStops reader).2 := by
  unfold State.readerStops
  split
  · exact h
  · split
    · exact h
    · exact h.streamErr.stopStream

theorem Keeps.endRetire {j : RetireJob} (h : Keeps s t) : Keeps s (t.endRetire j) := by
  unfold State.endRetire
  dsimp only
  split
  · exact .finishBusy (.note (.setCtl (h.congr rfl)))
  · exact .note (.setCtl (h.congr rfl))

theorem Keeps.copyPage {j : RetireJob} (h : Keeps s t) : Keeps s (t.copyPage j) := by
  unfold State.copyPage
  dsimp only
  exact h.congr rfl

theorem Keeps.hostLoad {a n : Nat} (h : Keeps s t) : Keeps s (t.hostLoad a n) := by
  unfold State.hostLoad
  dsimp only
  exact .ite (h.touch.track.correctRead.congr rfl) (h.drawBytes.congr rfl)

theorem Keeps.serveAccess {y : HeldAccess} (h : Keeps s t) : Keeps s (t.serveAccess y) := by
  unfold State.serveAccess
  split
  · exact h.hostLoad
  · exact h.hostStore
  · exact h.zeroMem
  · exact h.touch.correctRead

theorem Keeps.serveReady (h : Keeps s t) : Keeps s t.serveReady := by
  unfold State.serveReady
  dsimp only
  exact .foldl (h.congr rfl) fun _ _ h => .ite (h.congr rfl) h.serveAccess

theorem Keeps.gateTier {lp on : Bool} (h : Keeps s t) : Keeps s (t.gateTier lp on) := by
  unfold State.gateTier
  exact h.foldl fun _ _ h => h.withClk id (tabWf_put 0 _ _ _) id id

theorem Keeps.hostRead {hpa n : Nat} (h : Keeps s t) : Keeps s (t.hostRead hpa n) := by
  unfold State.hostRead
  dsimp only
  split
  · exact h.raise.congr rfl
  · exact .ite h.holdAccess h.hostLoad

theorem Keeps.hostWriteAt {a : Nat} {b : List Byte} (h : Keeps s t) : Keeps s (t.hostWriteAt a b) := by
  unfold State.hostWriteAt
  dsimp only
  exact .ite h.raise (.ite (h.forward.congr rfl) h.devStore)

theorem Keeps.hostWrite {hpa : Nat} {b : List Byte} (h : Keeps s t) : Keeps s (t.hostWrite hpa b) := by
  unfold State.hostWrite
  split
  · exact h.raise
  · exact h.hostWriteAt

theorem Keeps.completeWrite {u : State} (h : Keeps s t) : Keeps s (u.completeWrite t) :=
  .ite (h.congr rfl) h

theorem Keeps.ingress {a : Nat} {b : List Byte} (h : Keeps s t) : Keeps s (t.ingress a b) := by
  unfold State.ingress
  dsimp only
  exact .enterPanic (h.congr rfl)

theorem Keeps.afterFence (h : Keeps s t) : Keeps s t.afterFence :=
  h.maybeClose.compareTick

theorem Keeps.dropSteps (h : Keeps s t) : Keeps s t.dropSteps :=
  h.withRegions (tabWf_mapTab _ _ _)

theorem Keeps.restRegions (h : Keeps s t) : Keeps s t.restRegions := by
  unfold State.restRegions
  exact h.foldl fun _ _ h => h.setRegion

theorem Keeps.holdTick (h : Keeps s t) : Keeps s t.holdTick := by
  unfold State.holdTick
  dsimp only
  exact .ite (h.raise.congr rfl) h

theorem Keeps.halt (h : Keeps s t) : Keeps s t.halt :=
  h.emergency.holdTick.dropSteps

theorem Keeps.dropLink (h : Keeps s t) : Keeps s t.dropLink := by
  unfold State.dropLink
  dsimp only
  exact .ite (.raise (h.congr rfl)) h

theorem Keeps.withHold {dev : Dev} {pwr : Pwr} {mpk : MemPkg} (h : Keeps s t) :
    Keeps s { t with clk := { t.clk with hold := true }, dev := dev, pwr := pwr, mpk := mpk } := h.congr rfl

theorem Keeps.enterHold {ref : Bool} (h : Keeps s t) : Keeps s (t.enterHold ref) := by
  unfold State.enterHold
  dsimp only
  exact .when (.muxAsk (.idleStrait (.fixLanes (.foldl h.halt.withHold fun _ _ h => h.holdFabric))))
    fun h => h.dropLink

theorem Keeps.loseReference {ref : Bool} {flags : Word} (h : Keeps s t) : Keeps s (t.loseReference ref flags) := by
  unfold State.loseReference
  dsimp only
  exact .ite (.when (h.raise.congr rfl) fun h => h.dropLink) h.raise.enterHold

theorem Keeps.window {ok late : Bool} (h : Keeps s t) : Keeps s (t.window ok late) := by
  unfold State.window
  dsimp only
  exact .ite (.ite (h.congr rfl) (.ite (h.congr rfl) h)) (.ite (h.congr rfl) h.loseReference)

theorem Keeps.wakeTiers (h : Keeps s t) : Keeps s t.wakeTiers :=
  h.setTier.setTier.gateTier.gateTier.serveReady

theorem Keeps.exitHold (h : Keeps s t) : Keeps s t.exitHold := by
  unfold State.exitHold
  dsimp only
  exact .leavePair (.unless (.muxAsk (.fixLanes (.restRegions (h.congr rfl)))) fun h => h.wakeTiers.restartFabrics)

theorem Keeps.muxDone {domain unit : Nat} (h : Keeps s t) : Keeps s (t.muxDone domain unit) := by
  unfold State.muxDone
  exact .ite (h.setFab fun _ ⟨ports, trees, rest⟩ => ⟨ports, tabWf_modify _ _ _ _ trees, rest⟩) h.muxEnd

theorem Keeps.domainReset {domain unit : Nat} (h : Keeps s t) : Keeps s (t.domainReset domain unit) := by
  unfold State.domainReset
  dsimp only
  exact .ite (.leavePair (h.congr rfl)) (.ite h.stopRegion (h.runDesign.setFab fun _ => id))

theorem Keeps.readDies {dies : List (Nat × Nat)} (h : Keeps s t) : Keeps s (t.readDies dies) := by
  unfold State.readDies
  dsimp only
  exact .raise (h.congr rfl)

theorem Keeps.meter {energy elapsed : Nat} (h : Keeps s t) : Keeps s (t.meter energy elapsed) := by
  unfold State.meter
  dsimp only
  exact .when (h.congr rfl) fun h => h.raise

theorem Keeps.tripNow (h : Keeps s t) : Keeps s t.tripNow := by
  unfold State.tripNow
  dsimp only
  exact .raise (.fixLanes (h.halt.congr rfl))

theorem Keeps.latchRead {addr len : Nat} (h : Keeps s t) : Keeps s (t.latchRead addr len) := by
  unfold State.latchRead
  split
  · split
    · rename_i e
      split at e
      · exact (h.readBar e).congr rfl
      · cases e
    · exact h
  · exact .ite (.congr h.readReg rfl) h

theorem Keeps.plainWrite {addr : Nat} {b : List Byte} {hwSet : Word} (h : Keeps s t) :
    Keeps s (t.plainWrite addr b hwSet) := by
  unfold State.plainWrite
  split
  · exact .ite h.writeReg h
  · exact .ite h.writeBar h

theorem Keeps.verifySegment {l : Load} (h : Keeps s t) : Keeps s (t.verifySegment l) := by
  unfold State.verifySegment
  dsimp only
  refine .ite h.failLoad ?_
  split
  · exact h.failLoad
  · exact h.setLoad

theorem tabWf_foldl {α β : Type} [DecidableEq α] {d : α} {f : Tab α → β → Tab α}
    (hf : ∀ m b, tabWf d m = true → tabWf d (f m b) = true) (l : List β) : ∀ {m : Tab α}, tabWf d m = true →
    tabWf d (l.foldl f m) = true := by
  induction l with
  | nil => exact id
  | cons b r ih => exact fun hm => ih (hf _ b hm)

theorem Keeps.applyControl {r : Nat} {pay : List Byte} (h : Keeps s t) : Keeps s (t.applyControl r pay) := by
  have drawn : Keeps s t.draw.2 := h.draw
  unfold State.applyControl
  refine .when (.foldl (drawn.setFab fun _ ⟨ports, _, _, cps⟩ => ⟨ports, ?_, ?_, cps⟩) fun _ _ h => h.setPort)
    fun h => h.setLane
  · refine tabWf_foldl (fun m k hm => ?_) _ rfl
    split
    · exact tabWf_put _ _ _ _ hm
    · exact hm
  · exact tabWf_foldl (fun m k hm => tabWf_put _ _ _ _ hm) _ rfl

theorem Keeps.applyRecord {r type idx : Nat} {pay : List Byte} (h : Keeps s t) :
    Keeps s (t.applyRecord r type idx pay) := by
  unfold State.applyRecord
  exact .ite h.applyControl (.ite (h.setFab fun _ => id) (.ite (h.setFab fun _ => id) h))

theorem Keeps.finishRegion {l : Load} {r : Nat} (h : Keeps s t) : Keeps s (t.finishRegion l r) := by
  unfold State.finishRegion
  dsimp only
  split
  · exact .ite h h.beginClear
  · exact .ite h (.ite h.beginClear (.beginStartup (h.setFab fun _ => id)))

theorem Keeps.acceptRecord {l : Load} (h : Keeps s t) : Keeps s (t.acceptRecord l) := by
  unfold State.acceptRecord
  dsimp only
  exact .ite (h.setLoad.foldl fun _ _ h => h.finishRegion) (.unless (h.setLoad.congr rfl) fun h => h.applyRecord)

theorem Keeps.dispatch {l : Load} {intact : Bool} (h : Keeps s t) : Keeps s (t.dispatch l intact) := by
  unfold State.dispatch
  dsimp only
  exact .ite h.failLoad (.ite h (.ite h.acceptRecord (.ite h.failLoad h.setLoad)))

theorem Keeps.releaseCells {r : Nat} (h : Keeps s t) : Keeps s (t.releaseCells r) := by
  unfold State.releaseCells
  dsimp only
  exact .when (.setFab (h.foldl fun _ _ h => h.setPort) fun _ => id) fun h => h.fixLane

theorem Keeps.noteStartup {r : Nat} {late : Bool} (h : Keeps s t) : Keeps s (t.noteStartup r late) := by
  unfold State.noteStartup
  split
  · exact h
  · exact h.setLoad

theorem Keeps.act {r : Nat} (h : Keeps s t) : Keeps s (t.act r) := by
  unfold State.act
  dsimp only
  exact .ite (.endLoads (.noteStartup (.setFab (.ite h.runDesign.releaseCells (.ite (h.runDesign.setFab fun _ => id)
      (.ite (h.runDesign.setFab fun _ => id) h.runDesign))) fun _ => id))) (.setFab (.ite h.runDesign.releaseCells
      (.ite (h.runDesign.setFab fun _ => id) (.ite (h.runDesign.setFab fun _ => id) h.runDesign))) fun _ => id)

theorem Keeps.startupLate {r : Nat} (h : Keeps s t) : Keeps s (t.startupLate r) :=
  .endLoads (.recordFail (.raise (.noteStartup (h.holdFabric.setFab fun _ => id))))

theorem Keeps.portDry {r p : Nat} (h : Keeps s t) : Keeps s (t.portDry r p) := by
  unfold State.portDry
  dsimp only
  exact .ite (.ite h.draw.markLate h.draw) h

theorem Keeps.creditBack {r p : Nat} (h : Keeps s t) : Keeps s (t.creditBack r p) := by
  unfold State.creditBack
  dsimp only
  exact .ite h.setPort.portDry h.raise.setPort

theorem Keeps.takeBeat {r p : Nat} {beat : List Byte} (h : Keeps s t) : Keeps s (t.takeBeat r p beat) := by
  unfold State.takeBeat
  dsimp only
  exact .ite h.setPort h.raise.setPort

theorem Keeps.cpFails {r c : Nat} {fab : Bool} {a : Nat} (h : Keeps s t) : Keeps s (t.cpFails r c fab a) :=
  h.raise.setFab fun _ => id

theorem Keeps.cpAnswer {r c : Nat} {fab : Bool} {a : Nat} (h : Keeps s t) : Keeps s (t.cpAnswer r c fab a) := by
  have taken : Keeps s (t.setFab r fun f => { f with cps := put none f.cps c none }) :=
    h.setFab fun _ ⟨ports, trees, delays, cps⟩ => ⟨ports, trees, delays, tabWf_put _ _ _ _ cps⟩
  unfold State.cpAnswer
  exact .when (taken.congr rfl) fun h => h.cpFails

theorem Keeps.formPair {f : PartnerFit} (h : Keeps s t) : Keeps s (t.formPair f) := by
  unfold State.formPair
  exact .ite h (.ite h.setRole (.ite h (.setRole (h.congr rfl))))

theorem Keeps.designIdles {l : Nat} {idle : Bool} (h : Keeps s t) : Keeps s (t.designIdles l idle) :=
  h.setLane.fixLane

theorem Keeps.trainLane {lane : Nat} {ok reversed : Bool} (h : Keeps s t) :
    Keeps s (t.trainLane lane ok reversed) := by
  unfold State.trainLane
  dsimp only
  exact .judgeLink (.when h.setStrLane fun h => h.congr rfl)

theorem Keeps.linkTrained {up : Bool} {fit : Option PartnerFit} (h : Keeps s t) :
    Keeps s (t.linkTrained up fit) := by
  unfold State.linkTrained
  refine .ite ?_ h
  split
  · exact h.formPair
  · exact h

theorem Keeps.acceptFrame {body : List Byte} (h : Keeps s t) : Keeps s (t.acceptFrame body) := by
  unfold State.acceptFrame
  dsimp only
  exact .when (h.draw.congr rfl) fun h => h.ingress

theorem Keeps.removeLane {lane codewords : Nat} (h : Keeps s t) : Keeps s (t.removeLane lane codewords) := by
  unfold State.removeLane
  dsimp only
  exact .judgeLink (h.setStrLane.raise.raise.congr rfl)

theorem Keeps.trainLink {rate width : Nat} (h : Keeps s t) : Keeps s (t.trainLink rate width) := by
  unfold State.trainLink
  dsimp only
  exact .flushVectors (h.congr rfl)

theorem Keeps.ownConfigure {g : Go} {fit : PartnerFit} (h : Keeps s t) : Keeps s (ownConfigure g fit t).2 :=
  h

theorem Keeps.coreConfigure {g : Go} {fit : PartnerFit} {flashOk : Bool} (h : Keeps s t) :
    Keeps s (coreConfigure g fit flashOk t).2 := by
  unfold Machine.coreConfigure
  dsimp only
  exact .ite2 h (.ite (.leavePair (h.storeCopy.congr rfl)) (.formPair (h.storeCopy.congr rfl)))

theorem Keeps.corePairStatus (h : Keeps s t) : Keeps s (corePairStatus t).2 :=
  h.draw

theorem Keeps.corePromote (h : Keeps s t) : Keeps s (corePromote t).2 := by
  unfold Machine.corePromote
  dsimp only
  exact .ite2 (h.congr rfl) h

theorem Keeps.coreRejoin {fit : PartnerFit} (h : Keeps s t) : Keeps s (coreRejoin fit t).2 := by
  unfold Machine.coreRejoin
  dsimp only
  exact .ite2 (h.congr rfl) h

theorem Keeps.dropRecords {rings : List (Nat × Nat)} (h : Keeps s t) : Keeps s (t.dropRecords rings) := by
  unfold State.dropRecords
  dsimp only
  exact h.foldl fun _ _ h => .dropWritten (h.congr rfl)

theorem Keeps.hear {m : PairMsg} (h : Keeps s t) : Keeps s (t.hear m) := by
  unfold State.hear
  dsimp only
  exact .resolve (.knownAnswer (.compareTick (.compareOutcomes (.matchOrders (.when (.when (.acknowledge (h.congr
      rfl)) fun h => h.dropRecords) fun h => h.congr rfl)))))

theorem Keeps.hold {i : Forwarded} (h : Keeps s t) : Keeps s (t.hold i) := by
  unfold State.hold
  dsimp only
  split
  · refine .compareOutcomes ?_
    split
    · exact .applyOrdered (.dropOrder (h.congr rfl))
    · exact h.congr rfl
  · exact .raise (h.congr rfl)
  · exact .enterPanic (h.congr rfl)
  · exact .enterPanic (h.congr rfl)
  · exact .enterPanic (h.congr rfl)
  · exact .enterPanic (h.congr rfl)
  · exact .enterPanic (h.congr rfl)
  · exact .enterPanic (h.congr rfl)
  · exact .enterPanic (h.congr rfl)
  · exact .enterPanic (h.congr rfl)
  · exact .enterPanic (h.congr rfl)

theorem Keeps.hearWord {l : Nat} {d : List Byte} (h : Keeps s t) : Keeps s (t.hearWord l d) := by
  unfold State.hearWord
  dsimp only
  exact .congr (.forward (.ite h.raise h)) rfl

theorem Keeps.receive {i : Input} (h : Keeps s t) : Keeps s (t.receive i) := by
  unfold State.receive
  dsimp only
  split
  · exact .ite (h.congr rfl) (.congr (h.foldl fun _ _ h => h.takePart) rfl)
  · exact h.congr rfl
  · exact h.congr rfl
  · exact h.congr rfl
  · exact h
  · exact h
  · exact h
  · exact h
  · exact h
  · exact h

theorem Keeps.takeInput {i : Forwarded} (h : Keeps s t) : Keeps s (t.takeInput i) := by
  unfold State.takeInput
  refine .ite (.ite h.hold h) ?_
  split
  · exact .ite h.hearWord h
  · exact h

theorem Keeps.showUnmatched {mb go : Nat} (h : Keeps s t) : Keeps s (t.showUnmatched mb go) := by
  unfold State.showUnmatched
  dsimp only
  exact .setMb (h.dropOrder.congr rfl)

theorem Keeps.judgePartner {edge message : Bool} (h : Keeps s t) : Keeps s (t.judgePartner edge message) := by
  unfold State.judgePartner
  dsimp only
  split
  · exact h
  · exact .ite h.raise.leavePair h.raise.takeOver
  · exact h.raise
  · exact .takeOver (h.raise.congr rfl)

theorem Keeps.endPass (h : Keeps s t) : Keeps s t.endPass := by
  unfold State.endPass
  dsimp only
  exact h.congr rfl

theorem Keeps.answerRejoin {code : Nat} (h : Keeps s t) : Keeps s (t.answerRejoin code) :=
  h.release

theorem Keeps.enterShadow {role : Nat} (h : Keeps s t) : Keeps s (t.enterShadow role) := by
  unfold State.enterShadow
  dsimp only
  exact .setRole (h.congr rfl)

theorem Keeps.sendOn (h : Keeps s t) : Keeps s t.sendOn := by
  unfold State.sendOn
  dsimp only
  exact .ite (h.endPass.congr rfl) (.ite (.ite (h.congr rfl) (h.endPass.congr rfl)) (.answerRejoin (.enterShadow
      (h.congr rfl))))

theorem Keeps.sendLost (h : Keeps s t) : Keeps s t.sendLost := by
  unfold State.sendLost
  dsimp only
  exact .answerRejoin (h.congr rfl)

theorem Keeps.joinOn (h : Keeps s t) : Keeps s t.joinOn := by
  unfold State.joinOn
  dsimp only
  exact .ite (.setRole (h.congr rfl)) (.ite (h.congr rfl) (.enterShadow (h.foldl fun _ _ h => h.takePart)))

theorem Keeps.joinLost (h : Keeps s t) : Keeps s t.joinLost := by
  unfold State.joinLost
  dsimp only
  exact .setRole (h.congr rfl)

theorem Keeps.takeCheckpoint {x : Sess} (h : Keeps s t) : Keeps s (t.takeCheckpoint x) := by
  unfold State.takeCheckpoint
  dsimp only
  exact h.congr rfl

theorem Keeps.coreAttest {g : Go} (h : Keeps s t) : Keeps s (coreAttest g t).2 := by
  unfold Machine.coreAttest
  dsimp only
  exact .ite2 h h.signId

theorem Keeps.coreCertificates {g : Go} (h : Keeps s t) : Keeps s (coreCertificates g t).2 := by
  unfold Machine.coreCertificates
  exact .ite2 h h

theorem Keeps.coreFwStage {g : Go} {signed flashOk : Bool} (h : Keeps s t) :
    Keeps s (coreFwStage g signed flashOk t).2 := by
  unfold Machine.coreFwStage
  dsimp only
  split
  · exact h
  · exact .ite2 h (h.congr rfl)

theorem Keeps.coreFwActivate {g : Go} (h : Keeps s t) : Keeps s (coreFwActivate g t).2 := by
  unfold Machine.coreFwActivate
  split
  · exact h
  · exact .ite2 h (.ite2 h (.ite2 h h))

theorem Keeps.say {code p1 p2 : Nat} {body : List Byte} (h : Keeps s t) : Keeps s (t.say code p1 p2 body) := by
  unfold State.say
  dsimp only
  exact h.congr rfl

theorem Keeps.spdmError {code : Nat} (h : Keeps s t) : Keeps s (t.spdmError code) :=
  h.say

theorem Keeps.negotiate {level : Nat} {f : State → State} (h : Keeps s t) (hf : Keeps s (f t)) :
    Keeps s (t.negotiate level f) :=
  .ite h (.ite h.spdmError (.ite h.spdmError hf))

theorem Keeps.serve {f : State → State} (h : Keeps s t) (hf : Keeps s (f t)) : Keeps s (t.serve f) :=
  h.negotiate (.ite h.spdmError (.ite h.spdmError hf))

theorem Keeps.setSpdm {n : Nat} (h : Keeps s t) : Keeps s (t.setSpdm n) := by
  unfold State.setSpdm
  dsimp only
  exact h.congr rfl

theorem Keeps.signed {transcript : List Byte} (h : Keeps s t) : Keeps s (t.signed transcript).2 :=
  (h.drawBytes (len := 32)).signId

theorem Keeps.setSpdmSess {l : List SpdmSess} (h : Keeps s t) : Keeps s (t.setSpdmSess l) := by
  unfold State.setSpdmSess
  dsimp only
  exact h.congr rfl

theorem Keeps.keyStream {k : Nat} (h : Keeps s t) : Keeps s (t.keyStream k) := by
  unfold State.keyStream
  dsimp only
  exact .flushVectors (h.congr rfl)

theorem Keeps.sendRb {b : List Byte} (h : Keeps s t) : Keeps s (t.sendRb b) := by
  unfold State.sendRb
  dsimp only
  exact h.congr rfl

theorem Keeps.bootRead {nonce : List Byte} {a : Option RbAnswer} (h : Keeps s t) :
    Keeps s (t.bootRead nonce a) := by
  unfold State.bootRead
  dsimp only
  split
  · exact h.congr rfl
  · exact h.congr rfl

theorem Keeps.enrol {nonce : List Byte} {a : Option RbAnswer} (h : Keeps s t) : Keeps s (t.enrol nonce a) := by
  unfold State.enrol
  dsimp only
  split
  · exact .ite (h.congr rfl) (h.congr rfl)
  · exact h.congr rfl

theorem Keeps.advanceRb {nonce : List Byte} {a : Option RbAnswer} (h : Keeps s t) :
    Keeps s (t.advanceRb nonce a) := by
  unfold State.advanceRb
  dsimp only
  split
  · exact h.congr rfl
  · exact h.raise

theorem Keeps.putSeal {k : Nat} {x : SealSlot} (h : Keeps s t) : Keeps s (t.putSeal k x) := by
  unfold State.putSeal
  dsimp only
  exact h.congr rfl

theorem Keeps.sealOp {flashOk : Bool} {act : List Byte → Except Nat State} (h : Keeps s t)
    (hact : ∀ u, act t.envelope = .ok u → Keeps s u) : Keeps s (t.sealOp flashOk act) := by
  unfold State.sealOp
  split
  · exact h.sealEnd
  · split
    · exact h.sealEnd
    · exact .ite (hact _ ‹_›).sealEnd h.sealEnd

theorem Keeps.sealWrite {env : List Byte} {u : State} (h : Keeps s t) (e : t.sealWrite env = .ok u) : Keeps s u := by
  unfold State.sealWrite at e
  split at e
  · cases e
  · cases e
    exact h.putSeal

theorem Keeps.sealErase {env : List Byte} {u : State} (h : Keeps s t) (e : t.sealErase env = .ok u) : Keeps s u := by
  cases e
  exact h.putSeal

theorem Keeps.sealRemove {env : List Byte} {u : State} (h : Keeps s t) (e : t.sealRemove env = .ok u) : Keeps s u := by
  cases e
  exact h.congr rfl

theorem tabWf_nil {α : Type} [DecidableEq α] (d : α) : tabWf d [] = true := rfl

theorem State.tables_bare (t : State) : t.bare.tables =
    ⟨t.pending, [], [], [], [], [], [], [], [], [], [], [], [], [], [(0, 0x01000000)], [], [], []⟩ := rfl

theorem Tables.wf_bare (t : State) : t.bare.tables.Wf := by
  rw [State.tables_bare]
  exact { mbx := rfl, regions := rfl, tiles := rfl, bufs := rfl, eng := rfl, mem := rfl, ctl := rfl, fab := rfl,
          ftx := rfl, lanes := rfl, flagCnt := rfl, place := tabWf_nil _, gateRegion := rfl, gateIsle := rfl,
          mux := rfl, muxNext := rfl, cdig := rfl, streams := List.forall_mem_nil _,
          fabric := List.forall_mem_nil _ }

theorem Keeps.bare (h : Keeps s t) : Keeps s t.bare := ⟨h.1, fun _ => Tables.wf_bare t⟩

theorem Keeps.down {held : Bool} (h : Keeps s t) : Keeps s (t.down held) := by
  unfold State.down
  dsimp only
  exact h.bare.congr rfl

theorem Keeps.restart {step3 : Bool} (h : Keeps s t) : Keeps s (t.restart step3) :=
  ⟨h.1, fun w => { Tables.wf_bare t with mem := (h.2 w).mem }⟩

theorem Keeps.identify {seed : Option (List Byte)} (h : Keeps s t) : Keeps s (t.identify seed) := by
  unfold State.identify
  dsimp only
  split
  · exact h.congr rfl
  · exact h.congr rfl

theorem Keeps.readSettings (h : Keeps s t) : Keeps s t.readSettings := by
  unfold State.readSettings
  dsimp only
  exact h.congr rfl

theorem Keeps.fillStaging (h : Keeps s t) : Keeps s t.fillStaging := by
  unfold State.fillStaging
  dsimp only
  exact h.congr rfl

theorem Keeps.handOver {slot fallback : Bool} {i : FwImage} {rom : List Byte} (h : Keeps s t) :
    Keeps s (t.handOver slot fallback i rom) := by
  unfold State.handOver
  dsimp only
  exact .fillStaging (.readSettings (h.congr rfl))

theorem Keeps.boot {rom : List Byte} (h : Keeps s t) : Keeps s (t.boot rom) := by
  unfold State.boot
  dsimp only
  split
  · exact h.handOver
  · split
    · exact h.handOver
    · exact h.congr rfl

theorem Keeps.bringUp (h : Keeps s t) : Keeps s t.bringUp := by
  unfold State.bringUp
  dsimp only
  exact .restRegions (.foldl (h.congr rfl) fun _ _ h => h.muxAsk)

theorem Keeps.trainMemory {fails : List Nat} (h : Keeps s t) : Keeps s (t.trainMemory fails) := by
  unfold State.trainMemory
  dsimp only
  exact .congr (.foldl (h.foldl fun _ _ h => h.setCtl) fun _ _ h => .ite h.setCtl h) rfl

theorem Keeps.enableClocks (h : Keeps s t) : Keeps s t.enableClocks := by
  have gates : tabWf 0 t.clk.gateRegion = true →
      tabWf 0 ((List.range 64).foldl (fun m r => put 0 m r regionGates) t.clk.gateRegion) = true :=
    tabWf_foldl (fun m r => tabWf_put 0 m r regionGates) _
  generalize e : (List.range 64).foldl (fun m r => put 0 m r regionGates) t.clk.gateRegion = m at gates
  have gated : Keeps s { t with clk := { t.clk with gateRegion := m } } := h.withClk gates id id id
  unfold State.enableClocks
  rw [e]
  refine gated.foldl fun v i h => ?_
  refine h.withClk id ?_ id id
  exact tabWf_put (0 : Word) v.clk.gateIsle i _

theorem Keeps.dropPc {stack pc addr : Nat} (h : Keeps s t) : Keeps s (t.dropPc stack pc addr) := by
  unfold State.dropPc
  dsimp only
  exact .ite h (.ite h.freezeCtl (.setCtl (h.draw.congr rfl)))

theorem Keeps.testHbm {fails : List (Nat × Nat × Nat)} (h : Keeps s t) : Keeps s (t.testHbm fails) := by
  unfold State.testHbm
  exact .foldl (h.withMem (tabWf_filter 0 _ _)) fun _ _ h => .ite h.dropPc h

theorem Keeps.placeCluster {c : Nat} {fails : List Nat} (h : Keeps s t) : Keeps s (t.placeCluster c fails) := by
  unfold State.placeCluster
  refine .ite h ?_
  split
  · exact h.retireCluster
  · exact h.withUnits (tabWf_put _ _ _ _)

theorem Keeps.testDies {e : Stage1Env} (h : Keeps s t) : Keeps s (t.testDies e) := by
  unfold State.testDies
  dsimp only
  exact .congr (.foldl (.foldl (h.foldl fun _ _ h => h.placeCluster) fun _ _ h => h.fenceDie) fun _ _ h =>
      h.fenceRegion) rfl

theorem Keeps.listed {kind id : Nat} (h : Keeps s t) : Keeps s (t.listed kind id) := by
  unfold State.listed
  dsimp only
  refine .ite h (.ite (h.congr rfl) (.ite (.ite h ?_) (.ite h.retireCluster (.ite h.fenceRegion (.ite h.fenceDie
    (.ite h.draw.dropPc h.retireLane))))))
  split
  · exact h.congr rfl
  · exact h.moveIdentityD h.retireCluster

theorem Keeps.applyList (h : Keeps s t) : Keeps s t.applyList := by
  unfold State.applyList
  exact h.foldl fun _ _ h => h.listed

theorem Keeps.startTicks {e : Stage1Env} (h : Keeps s t) : Keeps s (t.startTicks e) := by
  unfold State.startTicks
  dsimp only
  exact .newNonce (h.congr rfl)

theorem Keeps.startUp {e : Stage1Env} (h : Keeps s t) : Keeps s (t.startUp e) := by
  have up : Keeps s (((t.readSettings.bringUp).trainMemory e.lpFail).enableClocks) :=
    .enableClocks (.trainMemory h.readSettings.bringUp)
  unfold State.startUp
  generalize ((t.readSettings.bringUp).trainMemory e.lpFail).enableClocks = u at up
  have tested : Keeps s ((u.testHbm e.pcFail).testDies e).applyList := .applyList (.testDies (.testHbm up))
  dsimp only
  generalize ((u.testHbm e.pcFail).testDies e).applyList = v at tested
  exact .startTicks (tested.congr rfl)

theorem Keeps.stage2Tests {lanes : List Nat} (h : Keeps s t) : Keeps s (t.stage2Tests lanes) := by
  unfold State.stage2Tests
  exact .foldl (h.withMem (tabWf_filter 0 _ _)) fun _ _ h => h.retireLane

theorem Keeps.loadFlash {bad : Bool} (h : Keeps s t) : Keeps s (t.loadFlash bad) := by
  unfold State.loadFlash
  dsimp only
  split
  · exact .note (.rejectFabric (h.congr rfl))
  · exact .addLoad (h.congr rfl)

theorem Keeps.gateTiles {on : Bool} (h : Keeps s t) : Keeps s (t.gateTiles on) := by
  unfold State.gateTiles
  exact h.foldl fun _ _ h => h.withClk (tabWf_put 0 _ _ _) id id id

theorem Keeps.park (h : Keeps s t) : Keeps s t.park := by
  unfold State.park
  dsimp only
  exact .idleStrait (.fixLanes (.foldl (.gateTier (.gateTier (.setTier (.setTier (.gateTiles (h.congr rfl)))))) fun
      _ _ h => h.holdFabric))

theorem Keeps.unpark (h : Keeps s t) : Keeps s t.unpark := by
  unfold State.unpark
  dsimp only
  exact .fixLanes (.restartFabrics (.wakeTiers (.gateTiles (h.congr rfl))))

theorem Keeps.enterStage2 {partner : Option PartnerFit} (h : Keeps s t) : Keeps s (t.enterStage2 partner) := by
  unfold State.enterStage2
  dsimp only
  refine .when ?_ fun h => h.park
  split
  · exact .formPair (h.congr rfl)
  · exact h.congr rfl

theorem Keeps.runStage2 {e : Stage2Env} (h : Keeps s t) : Keeps s (t.runStage2 e) := by
  unfold State.runStage2
  dsimp only
  exact .unless (.when (.ite h h.stage2Tests) fun h => h.loadFlash) fun h => h.enterStage2

theorem Keeps.ack (h : Keeps s t) : Keeps s t.ack := by
  unfold State.ack
  dsimp only
  exact h.congr rfl

theorem Keeps.nak (h : Keeps s t) : Keeps s t.nak := by
  unfold State.nak
  dsimp only
  exact h.congr rfl

theorem Keeps.smbReads {b : List Byte} (h : Keeps s t) : Keeps s (t.smbReads b) := by
  unfold State.smbReads
  dsimp only
  exact h.ack.congr rfl

theorem Keeps.smbWrites {pec ok : Bool} {f : State → State} (h : Keeps s t) (hf : ∀ u, Keeps s u → Keeps s (f u)) :
    Keeps s (t.smbWrites pec ok f) := by
  unfold State.smbWrites
  exact .ite h.nak (.ite (hf _ h.ack) h.ack.raise)

theorem Keeps.commitSettings {flashOk : Bool} (h : Keeps s t) : Keeps s (t.commitSettings flashOk) := by
  unfold State.commitSettings
  refine .fillStaging ?_
  split
  · exact h.raise
  · rename_i e
    have stored := h.writeSettings e
    exact .ite stored (stored.congr rfl)

theorem Keeps.afterResponse {x : WaitFor} (h : Keeps s t) : Keeps s (t.afterResponse x) := by
  unfold State.afterResponse
  dsimp only
  split
  · exact h.dropSession
  · exact h.restart.congr rfl
  · exact h

theorem Keeps.complete {b : BusyCmd} (h : Keeps s t) : Keeps s (t.complete b) := by
  unfold State.complete
  exact .ite h.postStatus h.postResult

end
end Sys2Proof.Machine
end

section
/-! PROOFS. The outcome of every command, and from it the statements O1 to O6. -/

namespace Sys2Proof.Machine

/-- The outcome is a next state, and it keeps what `Keeps` says. -/
def Yields (s : State) (o : Host.Outcome State Fault Refusal) : Prop := ∃ t, o = .next t ∧ Keeps s t

section
variable {s t : State}

theorem Yields.next (h : Keeps s t) : Yields s (.next t) := ⟨t, rfl, h⟩

theorem Yields.ite {c : Prop} [Decidable c] {a b : Host.Outcome State Fault Refusal} (ha : Yields s a)
    (hb : Yields s b) : Yields s (if c then a else b) := by
  split
  · exact ha
  · exact hb

theorem Yields.icura {c : Cmd} {g : Go} {own : State → Option Fail × State} {core : State → Reply × State}
    (h : Keeps s t) (hown : ∀ u, Keeps s u → Keeps s (own u).2) (hcore : ∀ u, Keeps s u → Keeps s (core u).2) :
    Yields s (icura c g own core t) := .next (h.runCmd hown hcore)

theorem Keeps.runOp {slot word : Nat} (h : Keeps s t) : Yields s (t.runOp slot word) := by
  unfold State.runOp
  exact .ite (.next h.runWord) (.next h)

theorem Keeps.execNop {b : Bundle} {f : BitVec 15} (h : Keeps s t) : Yields s (execNop b f t) := h.runOp

theorem Keeps.execJmp {b : Bundle} {f : BitVec 15} (h : Keeps s t) : Yields s (execJmp b f t) := h.runOp

theorem Keeps.execCall {b : Bundle} {f : BitVec 15} (h : Keeps s t) : Yields s (execCall b f t) := h.runOp

theorem Keeps.execJmpr {b : Bundle} {f : BitVec 15} (h : Keeps s t) : Yields s (execJmpr b f t) := h.runOp

theorem Keeps.execBranch {b : Bundle} {f : BitVec 15} (h : Keeps s t) : Yields s (execBranch b f t) := h.runOp

theorem Keeps.execRepeatN {b : Bundle} {f : BitVec 15} (h : Keeps s t) : Yields s (execRepeatN b f t) := h.runOp

theorem Keeps.execRepeatA {b : Bundle} {f : BitVec 15} (h : Keeps s t) : Yields s (execRepeatA b f t) := h.runOp

theorem Keeps.execDoLoop {b : Bundle} {f : BitVec 15} (h : Keeps s t) : Yields s (execDoLoop b f t) := h.runOp

theorem Keeps.execDoLoopA {b : Bundle} {f : BitVec 15} (h : Keeps s t) : Yields s (execDoLoopA b f t) := h.runOp

theorem Keeps.execExitLoop {b : Bundle} {f : BitVec 15} (h : Keeps s t) : Yields s (execExitLoop b f t) := h.runOp

theorem Keeps.execPassOp {b : Bundle} {f : BitVec 15} (h : Keeps s t) : Yields s (execPassOp b f t) := h.runOp

theorem Keeps.execWaitp {b : Bundle} {f : BitVec 15} (h : Keeps s t) : Yields s (execWaitp b f t) := h.runOp

theorem Keeps.execYield {b : Bundle} {f : BitVec 15} (h : Keeps s t) : Yields s (execYield b f t) := h.runOp

theorem Keeps.execEndTask {b : Bundle} {f : BitVec 15} (h : Keeps s t) : Yields s (execEndTask b f t) := h.runOp

theorem Keeps.execRte {b : Bundle} {f : BitVec 15} (h : Keeps s t) : Yields s (execRte b f t) := h.runOp

theorem Keeps.execSetal {b : Bundle} {f : BitVec 15} (h : Keeps s t) : Yields s (execSetal b f t) := h.runOp

theorem Keeps.execSetah {b : Bundle} {f : BitVec 15} (h : Keeps s t) : Yields s (execSetah b f t) := h.runOp

theorem Keeps.execInca {b : Bundle} {f : BitVec 15} (h : Keeps s t) : Yields s (execInca b f t) := h.runOp

theorem Keeps.execMovr {b : Bundle} {f : BitVec 15} (h : Keeps s t) : Yields s (execMovr b f t) := h.runOp

theorem Keeps.execLdcr {b : Bundle} {f : BitVec 15} (h : Keeps s t) : Yields s (execLdcr b f t) := h.runOp

theorem Keeps.execStcr {b : Bundle} {f : BitVec 15} (h : Keeps s t) : Yields s (execStcr b f t) := h.runOp

theorem Keeps.execBxclr {b : Bundle} {f : BitVec 15} (h : Keeps s t) : Yields s (execBxclr b f t) := h.runOp

theorem Keeps.execSetsat {b : Bundle} {f : BitVec 15} (h : Keeps s t) : Yields s (execSetsat b f t) := h.runOp

theorem Keeps.execVexpa {b : Bundle} {f : BitVec 15} (h : Keeps s t) : Yields s (execVexpa b f t) := h.runOp

theorem Keeps.execVnop {b : Bundle} {f : BitVec 14} (h : Keeps s t) : Yields s (execVnop b f t) := h.runOp

theorem Keeps.execPrd {b : Bundle} {f : BitVec 14} (h : Keeps s t) : Yields s (execPrd b f t) := h.runOp

theorem Keeps.execPra {b : Bundle} {f : BitVec 14} (h : Keeps s t) : Yields s (execPra b f t) := h.runOp

theorem Keeps.execPrs {b : Bundle} {f : BitVec 14} (h : Keeps s t) : Yields s (execPrs b f t) := h.runOp

theorem Keeps.execAcld {b : Bundle} {f : BitVec 14} (h : Keeps s t) : Yields s (execAcld b f t) := h.runOp

theorem Keeps.execAcad {b : Bundle} {f : BitVec 14} (h : Keeps s t) : Yields s (execAcad b f t) := h.runOp

theorem Keeps.execAcsb {b : Bundle} {f : BitVec 14} (h : Keeps s t) : Yields s (execAcsb b f t) := h.runOp

theorem Keeps.execAcsh {b : Bundle} {f : BitVec 14} (h : Keeps s t) : Yields s (execAcsh b f t) := h.runOp

theorem Keeps.execAcrd {b : Bundle} {f : BitVec 14} (h : Keeps s t) : Yields s (execAcrd b f t) := h.runOp

theorem Keeps.execExpo {b : Bundle} {f : BitVec 14} (h : Keeps s t) : Yields s (execExpo b f t) := h.runOp

theorem Keeps.execNorm {b : Bundle} {f : BitVec 14} (h : Keeps s t) : Yields s (execNorm b f t) := h.runOp

theorem Keeps.execVadd {b : Bundle} {f : BitVec 14} (h : Keeps s t) : Yields s (execVadd b f t) := h.runOp

theorem Keeps.execVsub {b : Bundle} {f : BitVec 14} (h : Keeps s t) : Yields s (execVsub b f t) := h.runOp

theorem Keeps.execVneg {b : Bundle} {f : BitVec 14} (h : Keeps s t) : Yields s (execVneg b f t) := h.runOp

theorem Keeps.execVasr {b : Bundle} {f : BitVec 14} (h : Keeps s t) : Yields s (execVasr b f t) := h.runOp

theorem Keeps.execVmov {b : Bundle} {f : BitVec 14} (h : Keeps s t) : Yields s (execVmov b f t) := h.runOp

theorem Keeps.execCrd {b : Bundle} {f : BitVec 14} (h : Keeps s t) : Yields s (execCrd b f t) := h.runOp

theorem Keeps.execBfc {b : Bundle} {f : BitVec 14} (h : Keeps s t) : Yields s (execBfc b f t) := h.runOp

theorem Keeps.execFlt {b : Bundle} {f : BitVec 14} (h : Keeps s t) : Yields s (execFlt b f t) := h.runOp

theorem Keeps.execCst {b : Bundle} {f : BitVec 14} (h : Keeps s t) : Yields s (execCst b f t) := h.runOp

theorem Keeps.execLoadX {b : Bundle} {f : BitVec 10} (h : Keeps s t) : Yields s (execLoadX b f t) := h.runOp

theorem Keeps.execStoreX {b : Bundle} {f : BitVec 10} (h : Keeps s t) : Yields s (execStoreX b f t) := h.runOp

theorem Keeps.execLoadOperandStore {b : Bundle} {f : BitVec 10} (h : Keeps s t) :
    Yields s (execLoadOperandStore b f t) :=
  h.runOp

theorem Keeps.execLoadY {b : Bundle} {f : BitVec 10} (h : Keeps s t) : Yields s (execLoadY b f t) := h.runOp

theorem Keeps.execStoreY {b : Bundle} {f : BitVec 10} (h : Keeps s t) : Yields s (execStoreY b f t) := h.runOp

theorem Keeps.execStoreOperandStore {b : Bundle} {f : BitVec 10} (h : Keeps s t) :
    Yields s (execStoreOperandStore b f t) :=
  h.runOp

theorem Keeps.execContextSwitch {slot : Nat} (h : Keeps s t) : Yields s (execContextSwitch slot t) := by
  unfold Machine.execContextSwitch
  exact .ite (.next h.runTile) (.next h)

theorem Keeps.execEventTaken {slot : Nat} (h : Keeps s t) : Yields s (execEventTaken slot t) := by
  unfold Machine.execEventTaken
  split
  · exact .next h.runTile
  · exact .next h

theorem Keeps.execPassStart {slot : Nat} (h : Keeps s t) : Yields s (execPassStart slot t) := by
  unfold Machine.execPassStart
  split
  · exact .next h.startNow
  · exact .next h

theorem Keeps.execArrayResume {slot : Nat} (h : Keeps s t) : Yields s (execArrayResume slot t) := by
  unfold Machine.execArrayResume
  dsimp only
  exact .ite (.ite (.next h.runTile.markLate) (.next h.runTile)) (.next h)

theorem Keeps.execPassCommit {slot : Nat} (h : Keeps s t) : Yields s (execPassCommit slot t) := by
  unfold Machine.execPassCommit
  exact .ite (.next h.commit) (.next h)

theorem Keeps.execColumnResultDelivery {slot : Nat} (h : Keeps s t) :
    Yields s (execColumnResultDelivery slot t) := by
  unfold Machine.execColumnResultDelivery
  exact .ite (.next h.runTile) (.next h)

theorem Keeps.execSheepdogGrant {r cyclesLeft : Nat} (h : Keeps s t) :
    Yields s (execSheepdogGrant r cyclesLeft t) := by
  unfold Machine.execSheepdogGrant
  exact .ite (.next h.sheepdog) (.next h)

theorem Keeps.execBurstDelivery {r n : Nat} (h : Keeps s t) : Yields s (execBurstDelivery r n t) := by
  unfold Machine.execBurstDelivery
  exact .ite (.next h.deliverOrHold) (.next h)

theorem Keeps.execRingComplete {r n : Nat} (h : Keeps s t) : Yields s (execRingComplete r n t) := by
  unfold Machine.execRingComplete
  exact .ite (.next h.completeRing) (.next h)

theorem Keeps.execStallWatchdog {r : Nat} {reached : List Nat} (h : Keeps s t) :
    Yields s (execStallWatchdog r reached t) := by
  unfold Machine.execStallWatchdog
  exact .ite (.next h.watchdog) (.next h)

theorem Keeps.execTickDue (h : Keeps s t) : Yields s (execTickDue t) := by
  unfold Machine.execTickDue
  exact .ite (.next h.due) (.next h)

theorem Keeps.execRegionDone {r : Nat} {busy : List (Nat × Nat)} (h : Keeps s t) :
    Yields s (execRegionDone r busy t) := by
  unfold Machine.execRegionDone
  exact .ite (.next h.reportDone) (.next h)

theorem Keeps.execTickBoundary {late : Nat} {b : BoundarySample} (h : Keeps s t) :
    Yields s (execTickBoundary late b t) := by
  unfold Machine.execTickBoundary
  exact .ite (.next h.reach) (.next h)

theorem Keeps.execIdentityCopyComplete {late : Nat} (h : Keeps s t) :
    Yields s (execIdentityCopyComplete late t) := by
  unfold Machine.execIdentityCopyComplete
  exact .ite (.next h.endCopy) (.next h)

theorem Keeps.execChangeoverEnd {r : Nat} (h : Keeps s t) : Yields s (execChangeoverEnd r t) := by
  unfold Machine.execChangeoverEnd
  exact .ite (.next h.endChangeover) (.next h)

theorem Keeps.execTickWarning {r : Nat} (h : Keeps s t) : Yields s (execTickWarning r t) := by
  unfold Machine.execTickWarning
  exact .ite (.next h.warn) (.next h)

theorem Keeps.execHeartbeatToggle (h : Keeps s t) : Yields s (execHeartbeatToggle t) := by
  unfold Machine.execHeartbeatToggle
  dsimp only
  exact .ite (.next (.sendPair (h.congr rfl))) (.next h)

theorem Keeps.execHang {r slot : Nat} (h : Keeps s t) : Yields s (execHang r slot t) := by
  unfold Machine.execHang
  dsimp only
  exact .ite (.ite (.next h.raise.tileFails) (.next h.raise)) (.next h)

theorem Keeps.execTileUncorrectableError {slot : Nat} (h : Keeps s t) :
    Yields s (execTileUncorrectableError slot t) := by
  unfold Machine.execTileUncorrectableError
  exact .ite (.next h.tileFails) (.next h)

theorem Keeps.execStepStart {sess : Nat} (h : Keeps s t) : Yields s (execStepStart sess t) := by
  unfold Machine.execStepStart
  split
  · exact .next h
  · split
    · exact .next h
    · exact .ite (.next h.startItem) (.next h)

theorem Keeps.execStepComplete {sess : Nat} (h : Keeps s t) : Yields s (execStepComplete sess t) := by
  unfold Machine.execStepComplete
  split
  · exact .next h
  · split
    · exact .next h
    · split
      · exact .next h.completeRun
      · exact .next h

theorem Keeps.execCompletionRecordWrite {sess : Nat} (h : Keeps s t) :
    Yields s (execCompletionRecordWrite sess t) := by
  unfold Machine.execCompletionRecordWrite
  dsimp only
  split
  · exact .next h
  · split
    · exact .next h
    · exact .ite (.next h.setSess.putRecord.endCloses) (.next h)

theorem Keeps.execClaimRead {n : Nat} (h : Keeps s t) : Yields s (execClaimRead n t) := by
  unfold Machine.execClaimRead
  dsimp only
  exact .ite (.next h) (.next (h.readClaim.congr rfl))

theorem Keeps.execClaimRelease {n : Nat} {tag : Word} (h : Keeps s t) : Yields s (execClaimRelease n tag t) := by
  unfold Machine.execClaimRelease
  exact .ite (.next h.writeClaim) (.next h)

theorem Keeps.execClaimLapse {n : Nat} (h : Keeps s t) : Yields s (execClaimLapse n t) := by
  unfold Machine.execClaimLapse
  exact .ite (.next h.setMb) (.next h)

theorem Keeps.execRingConsumerWrite {n : Nat} {v : Word} (h : Keeps s t) :
    Yields s (execRingConsumerWrite n v t) := by
  unfold Machine.execRingConsumerWrite
  exact .ite (.next h.writeConsumer) (.next h)

theorem Keeps.execLeaseExpiry {sess : Nat} (h : Keeps s t) : Yields s (execLeaseExpiry sess t) := by
  unfold Machine.execLeaseExpiry
  split
  · exact .next h
  · exact .ite (.next h.beginClose.note) (.next h)

theorem Keeps.execHealthRecordRewrite (h : Keeps s t) : Yields s (execHealthRecordRewrite t) := by
  unfold Machine.execHealthRecordRewrite
  exact .ite (.next h.rewriteHealth) (.next h)

theorem Keeps.execEventPendingClear {n : Nat} {w hwSet : Word} (h : Keeps s t) :
    Yields s (execEventPendingClear n w hwSet t) := by
  unfold Machine.execEventPendingClear
  exact .ite (.next h.clearEvents) (.next h)

theorem Keeps.execGoWriteIgnored {n : Nat} {v : Word} (h : Keeps s t) : Yields s (execGoWriteIgnored n v t) := by
  unfold Machine.execGoWriteIgnored
  exact .ite (.next h.ignoreGo) (.next h)

theorem Keeps.execOpenSession {g : Go} (h : Keeps s t) : Yields s (execOpenSession g t) :=
  .icura h (fun _ h => h.ownOpen) (fun _ h => h.coreOpen)

theorem Keeps.execCloseSession {g : Go} (h : Keeps s t) : Yields s (execCloseSession g t) :=
  .icura h (fun _ h => h) (fun _ h => h.coreClose)

theorem Keeps.execSetSessionLimits {g : Go} (h : Keeps s t) : Yields s (execSetSessionLimits g t) :=
  .icura h (fun _ h => h.ownLimits) (fun _ h => h.coreLimits)

theorem Keeps.execAllocMemory {g : Go} (h : Keeps s t) : Yields s (execAllocMemory g t) :=
  .icura h (fun _ h => h) (fun _ h => h.coreAlloc)

theorem Keeps.execFreeMemory {g : Go} (h : Keeps s t) : Yields s (execFreeMemory g t) :=
  .icura h (fun _ h => h) (fun _ h => h.coreFree)

theorem Keeps.execLoadSchedule {g : Go} (h : Keeps s t) : Yields s (execLoadSchedule g t) :=
  .icura h (fun _ h => h) (fun _ h => h.coreLoad)

theorem Keeps.execUnloadSchedule {g : Go} (h : Keeps s t) : Yields s (execUnloadSchedule g t) :=
  .icura h (fun _ h => h) (fun _ h => h.coreUnload)

theorem Keeps.execBindTensor {g : Go} (h : Keeps s t) : Yields s (execBindTensor g t) :=
  .icura h (fun _ h => h) (fun _ h => h.coreBind)

theorem Keeps.execSubmitSteps {g : Go} (h : Keeps s t) : Yields s (execSubmitSteps g t) :=
  .icura h (fun _ h => h.ownSubmit) (fun _ h => h.coreSubmit)

theorem Keeps.execCancelSteps {g : Go} (h : Keeps s t) : Yields s (execCancelSteps g t) :=
  .icura h (fun _ h => h) (fun _ h => h.coreCancel)

theorem Keeps.execReplayIntermediate {g : Go} (h : Keeps s t) : Yields s (execReplayIntermediate g t) :=
  .icura h (fun _ h => h.ownReplay) (fun _ h => h.coreReplay)

theorem Keeps.execLoadFabric {g : Go} {partner : Option Nat} (h : Keeps s t) :
    Yields s (execLoadFabric g partner t) :=
  .icura h (fun _ h => h.ownFabric) (fun _ h => h.coreFabric)

theorem Keeps.execLoadFabricRegion {g : Go} {partner : Option Nat} (h : Keeps s t) :
    Yields s (execLoadFabricRegion g partner t) :=
  .icura h (fun _ h => h.ownFabric) (fun _ h => h.coreFabric)

theorem Keeps.execQuerySteps {g : Go} (h : Keeps s t) : Yields s (execQuerySteps g t) :=
  .icura h (fun _ h => h) (fun _ h => h.coreQuery)

theorem Keeps.execUndefinedOpcode {g : Go} {opcode : BitVec 16} (h : Keeps s t) :
    Yields s (execUndefinedOpcode g opcode t) := by
  unfold Machine.execUndefinedOpcode
  exact .ite (.next h) (.next h.badOpcode)

theorem Keeps.execDeviceInfo {g : Go} (h : Keeps s t) : Yields s (execDeviceInfo g t) :=
  .icura h (fun _ h => h) (fun _ h => h.coreInfo)

theorem Keeps.execHealth {g : Go} (h : Keeps s t) : Yields s (execHealth g t) :=
  .icura h (fun _ h => h) (fun _ h => h)

theorem Keeps.execFabricStatus {g : Go} (h : Keeps s t) : Yields s (execFabricStatus g t) :=
  .icura h (fun _ h => h) (fun _ h => h.coreFabStatus)

theorem Keeps.execTelemetryRead {g : Go} (h : Keeps s t) : Yields s (execTelemetryRead g t) :=
  .icura h (fun _ h => h) (fun _ h => h.coreTelemetry)

theorem Keeps.execEventLogRead {g : Go} (h : Keeps s t) : Yields s (execEventLogRead g t) :=
  .icura h (fun _ h => h) (fun _ h => h.coreLogRead)

theorem Keeps.execSettingsWrite {g : Go} {flashOk : Bool} (h : Keeps s t) :
    Yields s (execSettingsWrite g flashOk t) :=
  .icura h (fun _ h => h) (fun _ h => h.coreSettingsWrite)

theorem Keeps.execSettingsRead {g : Go} (h : Keeps s t) : Yields s (execSettingsRead g t) :=
  .icura h (fun _ h => h) (fun _ h => h.coreSettingsRead)

theorem Keeps.execRetireUnit {g : Go} (h : Keeps s t) : Yields s (execRetireUnit g t) :=
  .icura h (fun _ h => h.ownUnit) (fun _ h => h.coreRetire)

theorem Keeps.execRestoreUnit {g : Go} {x : SelfTest} (h : Keeps s t) : Yields s (execRestoreUnit g x t) :=
  .icura h (fun _ h => h.ownUnit) (fun _ h => h.coreRestore)

theorem Keeps.execRunSelfTest {g : Go} {x : SelfTest} (h : Keeps s t) : Yields s (execRunSelfTest g x t) :=
  .icura h (fun _ h => h.ownUnit) (fun _ h => h.coreSelfTest)

theorem Keeps.execRegRead {g : Go} (h : Keeps s t) : Yields s (execRegRead g t) :=
  .icura h (fun _ h => h.ownReg) (fun _ h => h.coreRegRead)

theorem Keeps.execRegWrite {g : Go} (h : Keeps s t) : Yields s (execRegWrite g t) :=
  .icura h (fun _ h => h.ownReg) (fun _ h => h.coreRegWrite)

theorem Keeps.execControllerFreeze {n addr : Nat} {cmd : Bool} {reader : Option (Nat × Nat)} (h : Keeps s t) :
    Yields s (execControllerFreeze n addr cmd reader t) := by
  unfold Machine.execControllerFreeze
  exact .ite (.next h.readerStops.freezeCtl) (.next h)

theorem Keeps.execPseudoChannelRetirement {stack pc addr : Nat} (h : Keeps s t) :
    Yields s (execPseudoChannelRetirement stack pc addr t) := by
  unfold Machine.execPseudoChannelRetirement
  dsimp only
  exact .ite (.ite (.next h.setCtl.freezeCtl) (.next h.setCtl.beginRetire)) (.next h)

theorem Keeps.execRetirePageCopy {stack pc : Nat} (h : Keeps s t) : Yields s (execRetirePageCopy stack pc t) := by
  unfold Machine.execRetirePageCopy
  dsimp only
  split
  · exact .next h
  · exact .ite (.next h.copyPage.endRetire) (.next h.copyPage)

theorem Keeps.execRefresh {n : Nat} (h : Keeps s t) : Yields s (execRefresh n t) := by
  unfold Machine.execRefresh
  exact .ite (.next h.setCtl) (.next h)

theorem Keeps.execSelfRefreshExitComplete {lp : Bool} (h : Keeps s t) :
    Yields s (execSelfRefreshExitComplete lp t) := by
  unfold Machine.execSelfRefreshExitComplete
  exact .ite (.next h.setTier.gateTier.serveReady) (.next h)

theorem Keeps.execSelfRefreshReentry {lp : Bool} (h : Keeps s t) : Yields s (execSelfRefreshReentry lp t) := by
  unfold Machine.execSelfRefreshReentry
  exact .ite (.next h.setTier.gateTier) (.next h)

theorem Keeps.execHostMemRead {hpa len : Nat} (h : Keeps s t) : Yields s (execHostMemRead hpa len t) := by
  unfold Machine.execHostMemRead
  exact .ite (.next h.hostRead) (.next h)

theorem Keeps.execHostMemWrite {hpa : Nat} {data : List Byte} (h : Keeps s t) :
    Yields s (execHostMemWrite hpa data t) := by
  unfold Machine.execHostMemWrite
  exact .ite (.next h.hostWrite.completeWrite) (.next h)

theorem Keeps.execIngressDrain (h : Keeps s t) : Yields s (execIngressDrain t) := by
  unfold Machine.execIngressDrain
  dsimp only
  split
  · exact .next h
  · exact .ite (.next h.startExit) (.next (.serveReady (.leavePanic (.hostStore (h.congr rfl)))))

theorem Keeps.execClusterBufferUncorrectable {c : Nat} (h : Keeps s t) :
    Yields s (execClusterBufferUncorrectable c t) := by
  unfold Machine.execClusterBufferUncorrectable
  dsimp only
  exact .ite (.next (.addChange (h.putBuf.stopUsers.congr rfl))) (.next h)

theorem Keeps.execWatchdogExpiry {core : Nat} (h : Keeps s t) : Yields s (execWatchdogExpiry core t) := by
  unfold Machine.execWatchdogExpiry
  dsimp only
  exact .ite (.next (.leavePair (h.congr rfl))) (.next h)

theorem Keeps.execDieLinkFailure {die : Nat} (h : Keeps s t) : Yields s (execDieLinkFailure die t) := by
  unfold Machine.execDieLinkFailure
  exact .ite (.next h.fenceDie.afterFence) (.next h)

theorem Keeps.execRegionUnitFailure {r : Nat} (h : Keeps s t) : Yields s (execRegionUnitFailure r t) := by
  unfold Machine.execRegionUnitFailure
  exact .ite (.next h.fenceRegion.afterFence) (.next h)

theorem Keeps.execIsleMeshOrBridgeFault {isle : Nat} (h : Keeps s t) :
    Yields s (execIsleMeshOrBridgeFault isle t) := by
  unfold Machine.execIsleMeshOrBridgeFault
  dsimp only
  exact .ite (.next (.leavePair (h.congr rfl))) (.next h)

theorem Keeps.execTickSourceFault (h : Keeps s t) : Yields s (execTickSourceFault t) := by
  unfold Machine.execTickSourceFault
  dsimp only
  exact .ite (.next (.leavePair (h.congr rfl))) (.next h)

theorem Keeps.execReferenceLoss {xtal ref : Bool} (h : Keeps s t) : Yields s (execReferenceLoss xtal ref t) := by
  unfold Machine.execReferenceLoss
  exact .ite (.next h.loseReference) (.next h)

theorem Keeps.execReferenceQualification {ok : Bool} {ppm : Int} {late : Bool} (h : Keeps s t) :
    Yields s (execReferenceQualification ok ppm late t) := by
  unfold Machine.execReferenceQualification
  dsimp only
  exact .ite (.next (.window (h.congr rfl))) (.next h)

theorem Keeps.execClockHoldExit (h : Keeps s t) : Yields s (execClockHoldExit t) := by
  unfold Machine.execClockHoldExit
  exact .ite (.next h.exitHold) (.next h)

theorem Keeps.execMuxSwitchComplete {domain unit : Nat} (h : Keeps s t) :
    Yields s (execMuxSwitchComplete domain unit t) := by
  unfold Machine.execMuxSwitchComplete
  exact .ite (.next h.muxDone) (.next h)

theorem Keeps.execMuxForcedSwitch {domain unit : Nat} (h : Keeps s t) :
    Yields s (execMuxForcedSwitch domain unit t) := by
  unfold Machine.execMuxForcedSwitch
  dsimp only
  exact .ite (.next (.domainReset (.muxDone (h.raise.congr rfl)))) (.next h)

theorem Keeps.execStepReady {r : Nat} (h : Keeps s t) : Yields s (execStepReady r t) := by
  unfold Machine.execStepReady
  exact .ite (.next h.setRegion) (.next h)

theorem Keeps.execStepApply {r : Nat} (h : Keeps s t) : Yields s (execStepApply r t) := by
  unfold Machine.execStepApply
  exact .ite (.next h.applyStep) (.next h)

theorem Keeps.execPowerSample {p : PowerReading} (h : Keeps s t) : Yields s (execPowerSample p t) := by
  unfold Machine.execPowerSample
  dsimp only
  exact .ite (.ite (.next h.readDies.meter) (.next h.readDies)) (.next h)

theorem Keeps.execThermalTrip {die temp : Nat} (h : Keeps s t) : Yields s (execThermalTrip die temp t) := by
  unfold Machine.execThermalTrip
  exact .ite (.next h.readDies.tripNow) (.next h)

theorem Keeps.execThermalTripRelease (h : Keeps s t) : Yields s (execThermalTripRelease t) := by
  unfold Machine.execThermalTripRelease
  dsimp only
  exact .ite (.next (.fixLanes (.restRegions (h.congr rfl)))) (.next h)

theorem Keeps.execTickCtrlWrite {w : Word} (h : Keeps s t) : Yields s (execTickCtrlWrite w t) := by
  unfold Machine.execTickCtrlWrite
  exact .ite (.next h.writeReg) (.next h)

theorem Keeps.execFlagSelectWrite {w : Word} (h : Keeps s t) : Yields s (execFlagSelectWrite w t) := by
  unfold Machine.execFlagSelectWrite
  exact .ite (.next h.writeReg) (.next h)

theorem Keeps.execClockGateWrite {isle : Bool} {n : Nat} {w : Word} (h : Keeps s t) :
    Yields s (execClockGateWrite isle n w t) := by
  unfold Machine.execClockGateWrite
  dsimp only
  exact .ite (.next h.putGate.noteGate) (.next h)

theorem Keeps.execLatchingLowWordRead {span : ReadSpan} (h : Keeps s t) :
    Yields s (execLatchingLowWordRead span t) :=
  .next h.latchRead

theorem Keeps.execRegisterWrite {addr : Nat} {data : List Byte} {hwSet : Word} (h : Keeps s t) :
    Yields s (execRegisterWrite addr data hwSet t) :=
  .next h.plainWrite

theorem Keeps.execSegmentVerify {slot : Nat} (h : Keeps s t) : Yields s (execSegmentVerify slot t) := by
  unfold Machine.execSegmentVerify
  split
  · exact .next h
  · exact .ite (.next h.verifySegment.endLoads) (.next h)

theorem Keeps.execRecordDispatch {slot : Nat} {intact : Bool} (h : Keeps s t) :
    Yields s (execRecordDispatch slot intact t) := by
  unfold Machine.execRecordDispatch
  split
  · exact .next h
  · exact .ite (.next h.dispatch.endLoads) (.next h)

theorem Keeps.execStartupAction {r : Nat} (h : Keeps s t) : Yields s (execStartupAction r t) := by
  unfold Machine.execStartupAction
  exact .ite (.next h.act) (.next h)

theorem Keeps.execStartupTimeout {r : Nat} (h : Keeps s t) : Yields s (execStartupTimeout r t) := by
  unfold Machine.execStartupTimeout
  exact .ite (.next h.startupLate) (.next h)

theorem Keeps.execClearComplete {r : Nat} (h : Keeps s t) : Yields s (execClearComplete r t) := by
  unfold Machine.execClearComplete
  exact .ite (.next h.clearFabric.endLoads) (.next h)

theorem Keeps.execTreeLoad {r x : Nat} {sel div : BitVec 4} (h : Keeps s t) :
    Yields s (execTreeLoad r x sel div t) := by
  unfold Machine.execTreeLoad
  refine .ite (.next (h.runDesign.setFab fun _ ⟨ports, trees, delays, cps⟩ => ⟨ports, ?_, delays, cps⟩)) (.next h)
  dsimp only
  exact tabWf_modify _ _ _ _ trees

theorem Keeps.execPllLockLoss {r k : Nat} (h : Keeps s t) : Yields s (execPllLockLoss r k t) := by
  unfold Machine.execPllLockLoss
  exact .ite (.next (h.setFab fun _ ⟨ports, trees, delays, cps⟩ =>
    ⟨ports, tabWf_mapTab _ _ _ trees, delays, cps⟩)) (.next h)

theorem Keeps.execPllLock {r k : Nat} (h : Keeps s t) : Yields s (execPllLock r k t) := by
  unfold Machine.execPllLock
  exact .ite (.next (h.setFab fun _ => id)) (.next h)

theorem FabRegion.wf_setDelay {f : FabRegion} {pin : Nat} {g : DelayLine → DelayLine} (h : f.wf) :
    (f.setDelay pin g).wf := by
  obtain ⟨ports, trees, delays, cps⟩ := h
  exact ⟨ports, trees, tabWf_modify _ _ _ _ delays, cps⟩

theorem Keeps.execDlyLoad {r pin : Nat} {tap : BitVec 9} (h : Keeps s t) : Yields s (execDlyLoad r pin tap t) := by
  unfold Machine.execDlyLoad
  exact .ite (.next (h.runDesign.setFab fun _ => FabRegion.wf_setDelay)) (.next h)

theorem Keeps.execDelayLineMove {r pin : Nat} (h : Keeps s t) : Yields s (execDelayLineMove r pin t) := by
  unfold Machine.execDelayLineMove
  exact .ite (.next (h.runDesign.setFab fun _ => FabRegion.wf_setDelay)) (.next h)

theorem Keeps.execRxCred {r p : Nat} (h : Keeps s t) : Yields s (execRxCred r p t) := by
  unfold Machine.execRxCred
  exact .ite (.next h.runDesign.creditBack) (.next h)

theorem Keeps.execTxValid {r p : Nat} {beat : List Byte} (h : Keeps s t) : Yields s (execTxValid r p beat t) := by
  unfold Machine.execTxValid
  exact .ite (.next h.runDesign.takeBeat) (.next h)

theorem Keeps.execCpReq {r c : Nat} {fab : Bool} {addr : BitVec 12} (h : Keeps s t) :
    Yields s (execCpReq r c fab addr t) := by
  unfold Machine.execCpReq
  exact .ite (.next (h.runDesign.setFab fun _ ⟨ports, trees, delays, cps⟩ =>
    ⟨ports, trees, delays, tabWf_put _ _ _ _ cps⟩)) (.next h)

theorem Keeps.execCpAck {r c : Nat} (h : Keeps s t) : Yields s (execCpAck r c t) := by
  unfold Machine.execCpAck
  split
  · exact .next h.runDesign.cpAnswer
  · exact .next h

theorem Keeps.execTxCoefLoad {lane : Nat} {pre : BitVec 4} {post : BitVec 5} (h : Keeps s t) :
    Yields s (execTxCoefLoad lane pre post t) := by
  unfold Machine.execTxCoefLoad
  exact .ite (.ite (.next h.setLane) (.next h.raise)) (.next h)

theorem Keeps.execRxSlip {lane : Nat} (h : Keeps s t) : Yields s (execRxSlip lane t) := by
  unfold Machine.execRxSlip
  exact .ite (.next h.setLane) (.next h)

theorem Keeps.execTxIdle {lane : Nat} {idle : Bool} (h : Keeps s t) : Yields s (execTxIdle lane idle t) := by
  unfold Machine.execTxIdle
  exact .ite (.next h.designIdles) (.next h)

theorem Keeps.execRxLockLoss {lane : Nat} (h : Keeps s t) : Yields s (execRxLockLoss lane t) := by
  unfold Machine.execRxLockLoss
  exact .ite (.next h.setLane.raise) (.next h)

theorem Keeps.execRxLockAcquired {lane : Nat} (h : Keeps s t) : Yields s (execRxLockAcquired lane t) := by
  unfold Machine.execRxLockAcquired
  exact .ite (.next h.setLane) (.next h)

theorem Keeps.execRxIdleChange {lane : Nat} {idle : Bool} (h : Keeps s t) :
    Yields s (execRxIdleChange lane idle t) := by
  unfold Machine.execRxIdleChange
  exact .ite (.next h.setLane) (.next h)

theorem Keeps.execStraitLaneTraining {lane : Nat} {ok : Bool} {found : LaneTrial} (h : Keeps s t) :
    Yields s (execStraitLaneTraining lane ok found t) := by
  unfold Machine.execStraitLaneTraining
  exact .ite (.next h.trainLane.linkTrained) (.next h)

theorem Keeps.execEqualisationRequest {lane : Nat} {q : EqRequest} (h : Keeps s t) :
    Yields s (execEqualisationRequest lane q t) := by
  unfold Machine.execEqualisationRequest
  dsimp only
  exact .ite (.ite (.next h.setStrLane) (.ite (.next (h.setStrLane.congr rfl)) (.next h))) (.next h)

theorem Keeps.execStraitFrame {seq : Nat} {x : BitVec 8} {body : List Byte} {intact : Bool} (h : Keeps s t) :
    Yields s (execStraitFrame seq x body intact t) := by
  unfold Machine.execStraitFrame
  dsimp only
  exact .ite (.ite (.next h.acceptFrame) (.ite (.next h) (.next (h.congr rfl)))) (.next h)

theorem Keeps.execLaneRemoval {lane codewords : Nat} (h : Keeps s t) :
    Yields s (execLaneRemoval lane codewords t) := by
  unfold Machine.execLaneRemoval
  exact .ite (.next h.removeLane) (.next h)

theorem Keeps.execLinkTraining {rate width : Nat} (h : Keeps s t) : Yields s (execLinkTraining rate width t) := by
  unfold Machine.execLinkTraining
  exact .ite (.next h.trainLink) (.next h)

theorem Keeps.execLinkDown (h : Keeps s t) : Yields s (execLinkDown t) := .next h.dropLink

theorem Keeps.execLinkRecovery {fromL1 : Bool} {replays : Nat} (h : Keeps s t) :
    Yields s (execLinkRecovery fromL1 replays t) := by
  unfold Machine.execLinkRecovery
  dsimp only
  exact .ite (.next (.unless (h.congr rfl) fun h => h.raise)) (.next h)

theorem Keeps.execL1Entry (h : Keeps s t) : Yields s (execL1Entry t) := by
  unfold Machine.execL1Entry
  dsimp only
  exact .ite (.next (h.congr rfl)) (.next h)

theorem Keeps.execPerst (h : Keeps s t) : Yields s (execPerst t) := by
  unfold Machine.execPerst
  dsimp only
  exact .ite (.next (h.dropLink.congr rfl)) (.next h)

theorem Keeps.execHdmDecoderCommit {dec base size ways : Nat} (h : Keeps s t) :
    Yields s (execHdmDecoderCommit dec base size ways t) := by
  unfold Machine.execHdmDecoderCommit
  dsimp only
  exact .ite (.next (.ite (h.congr rfl) (h.congr rfl))) (.next h)

theorem Keeps.execIdeFailure {k : Nat} (h : Keeps s t) : Yields s (execIdeFailure k t) := by
  unfold Machine.execIdeFailure
  dsimp only
  exact .ite (.next (.raise (h.congr rfl))) (.next h)

theorem Keeps.execDStateChange {d3 : Bool} (h : Keeps s t) : Yields s (execDStateChange d3 t) := by
  unfold Machine.execDStateChange
  dsimp only
  exact .ite (.next (.flushVectors (h.congr rfl))) (.next h)

theorem Keeps.execPairConfigure {g : Go} {fit : PairTrial} (h : Keeps s t) :
    Yields s (execPairConfigure g fit t) :=
  .icura h (fun _ h => h.ownConfigure) (fun _ h => h.coreConfigure)

theorem Keeps.execPairStatus {g : Go} (h : Keeps s t) : Yields s (execPairStatus g t) :=
  .icura h (fun _ h => h) (fun _ h => h.corePairStatus)

theorem Keeps.execPairPromote {g : Go} (h : Keeps s t) : Yields s (execPairPromote g t) :=
  .icura h (fun _ h => h) (fun _ h => h.corePromote)

theorem Keeps.execPairRejoin {g : Go} {fit : PartnerFit} (h : Keeps s t) : Yields s (execPairRejoin g fit t) :=
  .icura h (fun _ h => h) (fun _ h => h.coreRejoin)

theorem Keeps.execPairMessage {m : PairMsg} (h : Keeps s t) : Yields s (execPairMessage m t) := by
  unfold Machine.execPairMessage
  refine .ite (.next h) (.ite (.next h.quitPair) (.ite (.next h.hear) ?_))
  split
  · exact .next h.formPair
  · exact .next h

theorem Keeps.execForwardedInput {i : Forwarded} (h : Keeps s t) : Yields s (execForwardedInput i t) := by
  unfold Machine.execForwardedInput
  exact .ite (.next h) (.ite (.next h.takeInput) (.ite (.next h.receive) (.next h)))

theorem Keeps.execOrderMatchTimeout {mb go : Nat} (h : Keeps s t) : Yields s (execOrderMatchTimeout mb go t) := by
  unfold Machine.execOrderMatchTimeout
  dsimp only
  exact .ite (.next h.unmatch) (.ite (.next h.showUnmatched) (.next h))

theorem Keeps.execPartnerJudgement {edge message : Bool} (h : Keeps s t) :
    Yields s (execPartnerJudgement edge message t) := by
  unfold Machine.execPartnerJudgement
  dsimp only
  exact .ite (.next (.when (h.congr rfl) fun h => h.judgePartner)) (.next h)

theorem Keeps.execLeaveNotice (h : Keeps s t) : Yields s (execLeaveNotice t) := by
  unfold Machine.execLeaveNotice
  exact .ite (.next h.takeOver) (.next h)

theorem Keeps.execRejoinPhase {lost : Bool} (h : Keeps s t) : Yields s (execRejoinPhase lost t) := by
  unfold Machine.execRejoinPhase
  exact .ite (.next (.ite h.sendLost h.sendOn)) (.ite (.next (.ite h.joinLost h.joinOn)) (.ite (.next h.joinOn)
      (.next h)))

theorem Keeps.execCheckpoint {sess : Nat} (h : Keeps s t) : Yields s (execCheckpoint sess t) := by
  unfold Machine.execCheckpoint
  split
  · exact .next h
  · exact .ite (.next h.takeCheckpoint) (.next h)

theorem Keeps.execAttestReport {g : Go} (h : Keeps s t) : Yields s (execAttestReport g t) :=
  .icura h (fun _ h => h) (fun _ h => h.coreAttest)

theorem Keeps.execGetCertificates {g : Go} (h : Keeps s t) : Yields s (execGetCertificates g t) :=
  .icura h (fun _ h => h) (fun _ h => h.coreCertificates)

theorem Keeps.execFwStage {g : Go} {signed flashOk : Bool} (h : Keeps s t) :
    Yields s (execFwStage g signed flashOk t) :=
  .icura h (fun _ h => h) (fun _ h => h.coreFwStage)

theorem Keeps.execFwActivate {g : Go} (h : Keeps s t) : Yields s (execFwActivate g t) :=
  .icura h (fun _ h => h) (fun _ h => h.coreFwActivate)

theorem Keeps.execGetVersion (h : Keeps s t) : Yields s (execGetVersion t) := .next (h.negotiate h.setSpdm.say)

theorem Keeps.execGetCapabilities (h : Keeps s t) : Yields s (execGetCapabilities t) :=
  .next (h.negotiate h.setSpdm.say)

theorem Keeps.execNegotiateAlgorithms {supported : Bool} (h : Keeps s t) :
    Yields s (execNegotiateAlgorithms supported t) :=
  .next (h.negotiate (.ite h.setSpdm.say h.spdmError))

theorem Keeps.execGetDigests (h : Keeps s t) : Yields s (execGetDigests t) := .next (h.serve (.ite h.say h.say))

theorem Keeps.execGetCertificate {slot off len : Nat} (h : Keeps s t) :
    Yields s (execGetCertificate slot off len t) :=
  .next (h.serve (.ite h.spdmError (.ite h.spdmError h.say)))

theorem Keeps.execChallenge {slot : Nat} {transcript : List Byte} (h : Keeps s t) :
    Yields s (execChallenge slot transcript t) :=
  .next (h.serve (.ite h.spdmError h.signed.say))

theorem Keeps.execGetMeasurements {index : Nat} {transcript : List Byte} (h : Keeps s t) :
    Yields s (execGetMeasurements index transcript t) :=
  .next (h.serve (.ite h.spdmError h.signed.say))

theorem Keeps.execKeyExchange {transcript : List Byte} (h : Keeps s t) : Yields s (execKeyExchange transcript t) :=
  .next (h.serve (.ite h.spdmError h.signed.setSpdmSess.say))

theorem Keeps.execFinish {sid : Nat} {ok : Bool} (h : Keeps s t) : Yields s (execFinish sid ok t) := by
  refine .next (h.serve ?_)
  split
  · exact h.spdmError
  · exact .ite h.spdmError (.ite h.setSpdmSess.say h.setSpdmSess.spdmError)

theorem Keeps.execKeyUpdate {sid : Nat} (h : Keeps s t) : Yields s (execKeyUpdate sid t) :=
  .next (h.serve (.ite h.setSpdmSess.say h.spdmError))

theorem Keeps.execEndSession {sid : Nat} (h : Keeps s t) : Yields s (execEndSession sid t) :=
  .next (h.serve (.ite h.setSpdmSess.say h.spdmError))

theorem Keeps.execIdeKmRequest {sid k : Nat} (h : Keeps s t) : Yields s (execIdeKmRequest sid k t) :=
  .next (h.serve (.ite h.keyStream.say h.spdmError))

theorem Keeps.execRbPubkey {key : Option (List Byte)} (h : Keeps s t) : Yields s (execRbPubkey key t) := by
  unfold Machine.execRbPubkey
  dsimp only
  exact .ite (.next (h.sendRb.congr rfl)) (.next h)

theorem Keeps.execRbRead {a : Option RbAnswer} (h : Keeps s t) : Yields s (execRbRead a t) := by
  have drawn : Keeps s (t.drawBytes 32).2 := h.drawBytes
  unfold Machine.execRbRead
  generalize t.drawBytes 32 = d at drawn
  exact .ite (.next drawn.sendRb.bootRead) (.ite (.next drawn.sendRb.enrol) (.next h))

theorem Keeps.execRbAdvance {a : Option RbAnswer} (h : Keeps s t) : Yields s (execRbAdvance a t) := by
  have drawn : Keeps s (t.drawBytes 32).2 := h.drawBytes
  unfold Machine.execRbAdvance
  generalize t.drawBytes 32 = d at drawn
  exact .ite (.next drawn.sendRb.advanceRb) (.next h)

theorem Keeps.execSealWriteSlot {flashOk : Bool} (h : Keeps s t) : Yields s (execSealWriteSlot flashOk t) := by
  unfold Machine.execSealWriteSlot
  exact .ite (.next (h.sealOp fun _ => h.sealWrite)) (.next h)

theorem Keeps.execSealEraseSlot {flashOk : Bool} (h : Keeps s t) : Yields s (execSealEraseSlot flashOk t) := by
  unfold Machine.execSealEraseSlot
  exact .ite (.next (h.sealOp fun _ => h.sealErase)) (.next h)

theorem Keeps.execSealRemoveEnrolment {flashOk : Bool} (h : Keeps s t) :
    Yields s (execSealRemoveEnrolment flashOk t) := by
  unfold Machine.execSealRemoveEnrolment
  exact .ite (.next (h.sealOp fun _ => h.sealRemove)) (.next h)

theorem Keeps.execPwrGoodRise {strap : BitVec 3} {board : Option BoardFlash} (h : Keeps s t) :
    Yields s (execPwrGoodRise strap board t) := by
  unfold Machine.execPwrGoodRise
  dsimp only
  refine .ite (.next h) (.next (.congr (.bare ?_) rfl))
  split
  · exact h.congr rfl
  · exact h

theorem Keeps.execPwrGoodFall (h : Keeps s t) : Yields s (execPwrGoodFall t) := by
  unfold Machine.execPwrGoodFall
  exact .ite (.next h.down) (.next h)

theorem Keeps.execRailUndervoltage {rail : BitVec 13} (h : Keeps s t) : Yields s (execRailUndervoltage rail t) := by
  unfold Machine.execRailUndervoltage
  dsimp only
  exact .ite (.next (h.down.congr rfl)) (.next h)

theorem Keeps.execBootFirmware {e : BootEnv} (h : Keeps s t) : Yields s (execBootFirmware e t) := by
  unfold Machine.execBootFirmware
  exact .ite (.next h.identify.boot) (.next h)

theorem Keeps.execStage1 {e : Stage1Env} (h : Keeps s t) : Yields s (execStage1 e t) := by
  unfold Machine.execStage1
  exact .ite (.next h.startUp) (.next h)

theorem Keeps.execStage2 {e : Stage2Env} (h : Keeps s t) : Yields s (execStage2 e t) := by
  unfold Machine.execStage2
  exact .ite (.next h.runStage2) (.next h)

theorem Keeps.execReadHealth (h : Keeps s t) : Yields s (execReadHealth t) := by
  unfold Machine.execReadHealth
  exact .ite (.next h.smbReads) (.next h.nak)

theorem Keeps.execReadStatus (h : Keeps s t) : Yields s (execReadStatus t) := by
  unfold Machine.execReadStatus
  exact .ite (.next h.smbReads) (.next h.nak)

theorem Keeps.execPark {data : Byte} {pec : Bool} (h : Keeps s t) : Yields s (execPark data pec t) :=
  .next (h.smbWrites fun _ h => h.park)

theorem Keeps.execUnpark {data : Byte} {pec : Bool} (h : Keeps s t) : Yields s (execUnpark data pec t) :=
  .next (h.smbWrites fun _ h => h.unpark)

theorem Keeps.execSmbReset {data : Byte} {pec : Bool} (h : Keeps s t) : Yields s (execSmbReset data pec t) :=
  .next (h.smbWrites fun _ h => h.restart.ack)

theorem Keeps.execSettingsStage {off : BitVec 16} {data : List Byte} {pec : Bool} (h : Keeps s t) :
    Yields s (execSettingsStage off data pec t) :=
  .next (h.smbWrites fun _ h => h.congr rfl)

theorem Keeps.execSettingsCommit {data : Byte} {pec flashOk : Bool} (h : Keeps s t) :
    Yields s (execSettingsCommit data pec flashOk t) :=
  .next (h.smbWrites fun _ h => h.commitSettings)

theorem Keeps.execBoundaryScanInstruction {i : ScanInstr} (h : Keeps s t) :
    Yields s (execBoundaryScanInstruction i t) := by
  unfold Machine.execBoundaryScanInstruction
  dsimp only
  exact .ite (.next (h.congr rfl)) (.next h)

theorem Keeps.execCommandCompletion {n : Nat} (h : Keeps s t) : Yields s (execCommandCompletion n t) := by
  unfold Machine.execCommandCompletion
  split
  · exact .next h
  · exact .next h.complete.afterResponse

/-- Every command answers a next state that keeps the queue and the canonical form. -/
theorem exec_yields (i : Instr) (s : State) : Yields s (exec i s) := by
  have h := Keeps.refl s
  cases i with
  | deviceInfo => exact h.execDeviceInfo
  | health => exact h.execHealth
  | openSession => exact h.execOpenSession
  | closeSession => exact h.execCloseSession
  | setSessionLimits => exact h.execSetSessionLimits
  | allocMemory => exact h.execAllocMemory
  | freeMemory => exact h.execFreeMemory
  | loadSchedule => exact h.execLoadSchedule
  | unloadSchedule => exact h.execUnloadSchedule
  | bindTensor => exact h.execBindTensor
  | submitSteps => exact h.execSubmitSteps
  | cancelSteps => exact h.execCancelSteps
  | querySteps => exact h.execQuerySteps
  | replayIntermediate => exact h.execReplayIntermediate
  | loadFabric => exact h.execLoadFabric
  | loadFabricRegion => exact h.execLoadFabricRegion
  | fabricStatus => exact h.execFabricStatus
  | pairConfigure => exact h.execPairConfigure
  | pairStatus => exact h.execPairStatus
  | pairPromote => exact h.execPairPromote
  | pairRejoin => exact h.execPairRejoin
  | fwStage => exact h.execFwStage
  | fwActivate => exact h.execFwActivate
  | attestReport => exact h.execAttestReport
  | getCertificates => exact h.execGetCertificates
  | settingsRead => exact h.execSettingsRead
  | settingsWrite => exact h.execSettingsWrite
  | telemetryRead => exact h.execTelemetryRead
  | eventLogRead => exact h.execEventLogRead
  | retireUnit => exact h.execRetireUnit
  | restoreUnit => exact h.execRestoreUnit
  | runSelfTest => exact h.execRunSelfTest
  | regRead => exact h.execRegRead
  | regWrite => exact h.execRegWrite
  | commandCompletion => exact h.execCommandCompletion
  | claimRead => exact h.execClaimRead
  | claimRelease => exact h.execClaimRelease
  | claimLapse => exact h.execClaimLapse
  | ringConsumerWrite => exact h.execRingConsumerWrite
  | leaseExpiry => exact h.execLeaseExpiry
  | healthRecordRewrite => exact h.execHealthRecordRewrite
  | tickDue => exact h.execTickDue
  | regionDone => exact h.execRegionDone
  | tickBoundary => exact h.execTickBoundary
  | identityCopyComplete => exact h.execIdentityCopyComplete
  | changeoverEnd => exact h.execChangeoverEnd
  | tickWarning => exact h.execTickWarning
  | heartbeatToggle => exact h.execHeartbeatToggle
  | hang => exact h.execHang
  | stepStart => exact h.execStepStart
  | stepComplete => exact h.execStepComplete
  | completionRecordWrite => exact h.execCompletionRecordWrite
  | passStart => exact h.execPassStart
  | arrayResume => exact h.execArrayResume
  | passCommit => exact h.execPassCommit
  | thermalTrip => exact h.execThermalTrip
  | thermalTripRelease => exact h.execThermalTripRelease
  | tileUncorrectableError => exact h.execTileUncorrectableError
  | clusterBufferUncorrectable => exact h.execClusterBufferUncorrectable
  | controllerFreeze => exact h.execControllerFreeze
  | watchdogExpiry => exact h.execWatchdogExpiry
  | referenceLoss => exact h.execReferenceLoss
  | clockHoldExit => exact h.execClockHoldExit
  | referenceQualification => exact h.execReferenceQualification
  | contextSwitch => exact h.execContextSwitch
  | eventTaken => exact h.execEventTaken
  | nop => exact h.execNop
  | jmp => exact h.execJmp
  | call => exact h.execCall
  | jmpr => exact h.execJmpr
  | branch => exact h.execBranch
  | repeatN => exact h.execRepeatN
  | repeatA => exact h.execRepeatA
  | doLoop => exact h.execDoLoop
  | doLoopA => exact h.execDoLoopA
  | exitLoop => exact h.execExitLoop
  | passOp => exact h.execPassOp
  | waitp => exact h.execWaitp
  | yield => exact h.execYield
  | endTask => exact h.execEndTask
  | rte => exact h.execRte
  | setal => exact h.execSetal
  | setah => exact h.execSetah
  | inca => exact h.execInca
  | movr => exact h.execMovr
  | ldcr => exact h.execLdcr
  | stcr => exact h.execStcr
  | bxclr => exact h.execBxclr
  | setsat => exact h.execSetsat
  | vexpa => exact h.execVexpa
  | vnop => exact h.execVnop
  | prd => exact h.execPrd
  | pra => exact h.execPra
  | prs => exact h.execPrs
  | acld => exact h.execAcld
  | acad => exact h.execAcad
  | acsb => exact h.execAcsb
  | acsh => exact h.execAcsh
  | acrd => exact h.execAcrd
  | expo => exact h.execExpo
  | norm => exact h.execNorm
  | vadd => exact h.execVadd
  | vsub => exact h.execVsub
  | vneg => exact h.execVneg
  | vasr => exact h.execVasr
  | vmov => exact h.execVmov
  | crd => exact h.execCrd
  | bfc => exact h.execBfc
  | flt => exact h.execFlt
  | cst => exact h.execCst
  | loadX => exact h.execLoadX
  | storeX => exact h.execStoreX
  | loadOperandStore => exact h.execLoadOperandStore
  | loadY => exact h.execLoadY
  | storeY => exact h.execStoreY
  | storeOperandStore => exact h.execStoreOperandStore
  | sheepdogGrant => exact h.execSheepdogGrant
  | burstDelivery => exact h.execBurstDelivery
  | ringComplete => exact h.execRingComplete
  | stallWatchdog => exact h.execStallWatchdog
  | refresh => exact h.execRefresh
  | selfRefreshExitComplete => exact h.execSelfRefreshExitComplete
  | selfRefreshReentry => exact h.execSelfRefreshReentry
  | hostMemRead => exact h.execHostMemRead
  | hostMemWrite => exact h.execHostMemWrite
  | pseudoChannelRetirement => exact h.execPseudoChannelRetirement
  | retirePageCopy => exact h.execRetirePageCopy
  | segmentVerify => exact h.execSegmentVerify
  | recordDispatch => exact h.execRecordDispatch
  | startupAction => exact h.execStartupAction
  | startupTimeout => exact h.execStartupTimeout
  | clearComplete => exact h.execClearComplete
  | treeLoad => exact h.execTreeLoad
  | dlyLoad => exact h.execDlyLoad
  | rxCred => exact h.execRxCred
  | txValid => exact h.execTxValid
  | cpReq => exact h.execCpReq
  | pllLockLoss => exact h.execPllLockLoss
  | muxForcedSwitch => exact h.execMuxForcedSwitch
  | txCoefLoad => exact h.execTxCoefLoad
  | rxSlip => exact h.execRxSlip
  | txIdle => exact h.execTxIdle
  | rxLockLoss => exact h.execRxLockLoss
  | straitLaneTraining => exact h.execStraitLaneTraining
  | equalisationRequest => exact h.execEqualisationRequest
  | straitFrame _ kind => exact h.execStraitFrame (x := kind)
  | laneRemoval => exact h.execLaneRemoval
  | linkTraining => exact h.execLinkTraining
  | linkDown => exact h.execLinkDown
  | perst => exact h.execPerst
  | hdmDecoderCommit => exact h.execHdmDecoderCommit
  | ideFailure => exact h.execIdeFailure
  | getVersion => exact h.execGetVersion
  | getCapabilities => exact h.execGetCapabilities
  | negotiateAlgorithms => exact h.execNegotiateAlgorithms
  | getDigests => exact h.execGetDigests
  | getCertificate => exact h.execGetCertificate
  | challenge => exact h.execChallenge
  | getMeasurements => exact h.execGetMeasurements
  | keyExchange => exact h.execKeyExchange
  | finish => exact h.execFinish
  | keyUpdate => exact h.execKeyUpdate
  | endSession => exact h.execEndSession
  | pairMessage => exact h.execPairMessage
  | forwardedInput => exact h.execForwardedInput
  | orderMatchTimeout => exact h.execOrderMatchTimeout
  | partnerJudgement => exact h.execPartnerJudgement
  | leaveNotice => exact h.execLeaveNotice
  | rejoinPhase => exact h.execRejoinPhase
  | checkpoint => exact h.execCheckpoint
  | pwrGoodRise => exact h.execPwrGoodRise
  | pwrGoodFall => exact h.execPwrGoodFall
  | railUndervoltage => exact h.execRailUndervoltage
  | bootFirmware => exact h.execBootFirmware
  | stage1 => exact h.execStage1
  | stage2 => exact h.execStage2
  | readHealth => exact h.execReadHealth
  | readStatus => exact h.execReadStatus
  | park => exact h.execPark
  | unpark => exact h.execUnpark
  | smbReset => exact h.execSmbReset
  | settingsStage => exact h.execSettingsStage
  | settingsCommit => exact h.execSettingsCommit
  | rbPubkey => exact h.execRbPubkey
  | rbRead => exact h.execRbRead
  | rbAdvance => exact h.execRbAdvance
  | sealWriteSlot => exact h.execSealWriteSlot
  | sealEraseSlot => exact h.execSealEraseSlot
  | sealRemoveEnrolment => exact h.execSealRemoveEnrolment
  | boundaryScanInstruction => exact h.execBoundaryScanInstruction
  | powerSample => exact h.execPowerSample
  | stepReady => exact h.execStepReady
  | stepApply => exact h.execStepApply
  | tickCtrlWrite => exact h.execTickCtrlWrite
  | flagSelectWrite => exact h.execFlagSelectWrite
  | clockGateWrite => exact h.execClockGateWrite
  | latchingLowWordRead => exact h.execLatchingLowWordRead
  | registerWrite => exact h.execRegisterWrite
  | rxLockAcquired => exact h.execRxLockAcquired
  | rxIdleChange => exact h.execRxIdleChange
  | pllLock => exact h.execPllLock
  | goWriteIgnored => exact h.execGoWriteIgnored
  | undefinedOpcode => exact h.execUndefinedOpcode
  | linkRecovery => exact h.execLinkRecovery
  | l1Entry => exact h.execL1Entry
  | dStateChange => exact h.execDStateChange
  | cpAck => exact h.execCpAck
  | delayLineMove => exact h.execDelayLineMove
  | muxSwitchComplete => exact h.execMuxSwitchComplete
  | ingressDrain => exact h.execIngressDrain
  | columnResultDelivery => exact h.execColumnResultDelivery
  | eventPendingClear => exact h.execEventPendingClear
  | ideKmRequest => exact h.execIdeKmRequest
  | dieLinkFailure => exact h.execDieLinkFailure
  | regionUnitFailure => exact h.execRegionUnitFailure
  | isleMeshOrBridgeFault => exact h.execIsleMeshOrBridgeFault
  | tickSourceFault => exact h.execTickSourceFault
end

theorem State.canon_of_keeps {s t : State} (h : Keeps s t) : s.canon → t.canon := fun c =>
  t.canon_iff.mpr (h.2 (s.canon_iff.mp c))

/-- A step's outcome: the queue without its front, and the canonical form kept. -/
theorem step_yields (s : State) : Yields { s with pending := s.pending.tail } (step s) := by
  unfold step
  cases e : s.pending with
  | nil =>
    refine .next ?_
    rw [List.tail_nil, ← e]
    exact .refl s
  | cons c rest => exact exec_yields c _

/-- Settles O3: no command's meaning touches the queue (`exec_yields`), and a step runs the front with the rest. -/
theorem stepTakesOnlyTheFront : Obligations.StepTakesOnlyTheFront := by
  unfold Obligations.StepTakesOnlyTheFront
  intro s t c rest hq hs
  obtain ⟨u, hu, queue, -⟩ := step_yields s
  obtain rfl : t = u := by simpa using hs.symm.trans hu
  exact queue.trans (congrArg List.tail hq)

/-- Settles O4: `exec_yields` and the canonical form of every state operation (`Keeps`). -/
theorem tablesStayCanonical : Obligations.TablesStayCanonical := by
  unfold Obligations.TablesStayCanonical
  intro s t canon hs
  obtain ⟨u, hu, kept⟩ := step_yields s
  obtain rfl : t = u := by simpa using hs.symm.trans hu
  exact State.canon_of_keeps kept canon

/-- Settles O6: every arm of `exec` is a next state (`exec_yields`). -/
theorem everyCommandAnswers : Obligations.EveryCommandAnswers := by
  unfold Obligations.EveryCommandAnswers
  intro c s
  obtain ⟨t, ht, -⟩ := exec_yields c s
  exact ⟨t, ht⟩

/-- Settles O1: a step's definition with the front command named. -/
theorem stepRunsTheFrontCommand : Obligations.StepRunsTheFrontCommand := by
  unfold Obligations.StepRunsTheFrontCommand
  intro s c rest hq
  rw [step, hq]

/-- Settles O2: a step's definition with an empty queue. -/
theorem emptyQueueIdles : Obligations.EmptyQueueIdles := by
  unfold Obligations.EmptyQueueIdles
  intro s hq
  rw [step, hq]

/-- Settles O5: at reset the tables are those of a bare state. -/
theorem resetIsCanonical : Obligations.ResetIsCanonical := by
  unfold Obligations.ResetIsCanonical
  exact ⟨State.reset.canon_iff.mpr (Tables.wf_bare {}), rfl, rfl⟩

end Sys2Proof.Machine
end

section
/-! PROOFS. Reading a table at the key just written where the value is not the default; a mailbox's flags, its events and
its answers. -/

namespace Sys2Proof.Machine

/-- A value that is not the default reads back in any table. -/
theorem look_put_of_ne_default {α : Type} [DecidableEq α] {d v : α} (t : Tab α) (i : Nat) (hv : v ≠ d) :
    look d (put d t i v) i = v := by
  induction t with
  | nil => simp [put, look, hv]
  | cons c r ih =>
    obtain ⟨k, w⟩ := c
    simp only [put, if_neg hv]
    split
    · simp [look]
    · split
      · simp [look]
      · rename_i hne
        simp only [look, if_neg hne, ih]

theorem State.mb_setMb_of_ne_default {s : State} {n : Nat} {f : Mailbox → Mailbox} (hf : f (s.mb n) ≠ {}) :
    (s.setMb n f).mb n = f (s.mb n) := look_put_of_ne_default s.mbx n hf

theorem State.mb_setMb_ne {s : State} {n k : Nat} (f : Mailbox → Mailbox) (hk : k ≠ n) :
    (s.setMb n f).mb k = s.mb k := look_modify_ne _ _ _ hk

/-- The three parts of a state that the posting of an answer or an event may change. -/
def State.withPost (s : State) (mbx : Tab Mailbox) (cnt : Tab Nat) (out : Outputs) : State :=
  { s with mbx := mbx, flagCnt := cnt, out := out }

theorem State.setEvent_frame (s : State) (n bit : Nat) :
    ∃ cnt out, s.setEvent n bit = s.withPost (modify {} s.mbx n (fun m =>
      { m with pend := m.pend ||| (bitW bit true &&& 0xF) })) cnt out := by
  unfold State.setEvent
  dsimp only
  split
  · unfold State.raiseVector
    split
    · exact ⟨_, _, rfl⟩
    · exact ⟨_, _, rfl⟩
  · exact ⟨_, _, rfl⟩

/-- The mailbox after its response and its status word are written, before its event (R283, R284). -/
def Mailbox.answered (m : Mailbox) (opcode : Nat) (g : Go) (o : Outcome) : Mailbox :=
  { m with resp := responseOf opcode g o, state := if o.code = 0 then 2 else 3, code := o.code,
           statusSeq := g.go.toNat % 256, busy := none }

theorem Mailbox.ne_default_of_state {m : Mailbox} (h : m.state ≠ 0) : m ≠ {} := fun e => h (e ▸ rfl)

theorem Mailbox.answered_state_ne (m : Mailbox) (opcode : Nat) (g : Go) (o : Outcome) :
    (m.answered opcode g o).state ≠ 0 := by
  simp only [Mailbox.answered]
  split <;> decide

theorem State.postStatus_frame (s : State) (opcode : Nat) (g : Go) (o : Outcome) :
    ∃ cnt out, s.postStatus opcode g o = s.withPost (modify {} (modify {} s.mbx g.mb
      (fun m => m.answered opcode g o)) g.mb (fun m => { m with pend := m.pend ||| 1 })) cnt out :=
  (s.setMb g.mb (fun m => m.answered opcode g o)).setEvent_frame g.mb 0

theorem State.postStatus_shows (s : State) (opcode : Nat) (g : Go) (o : Outcome) :
    Shows ((s.postStatus opcode g o).mb g.mb) opcode g o := by
  obtain ⟨cnt, out, e⟩ := s.postStatus_frame opcode g o
  have posted : look {} (modify {} s.mbx g.mb (fun m => m.answered opcode g o)) g.mb =
      (s.mb g.mb).answered opcode g o :=
    look_put_of_ne_default _ _ (Mailbox.ne_default_of_state (Mailbox.answered_state_ne _ _ _ _))
  have shown : (s.postStatus opcode g o).mb g.mb =
      { (s.mb g.mb).answered opcode g o with pend := (s.mb g.mb).pend ||| 1 } := by
    rw [e]
    simp only [State.mb, State.withPost]
    rw [modify, posted]
    exact look_put_of_ne_default _ _
      (Mailbox.ne_default_of_state ((s.mb g.mb).answered_state_ne opcode g o))
  rw [shown]
  refine ⟨rfl, rfl, rfl, rfl, rfl, ?_⟩
  simp

theorem State.postStatus_mb_ne (s : State) (opcode : Nat) (g : Go) (o : Outcome) {k : Nat} (hk : k ≠ g.mb) :
    (s.postStatus opcode g o).mb k = s.mb k := by
  obtain ⟨cnt, out, e⟩ := s.postStatus_frame opcode g o
  rw [e]
  simp only [State.mb, State.withPost, look_modify_ne _ _ _ hk]

/-- What the posting of an answer leaves alone outside its own mailbox. -/
def State.postLeaves (s t : State) : Prop :=
  SameWork s t ∧ t.sess = s.sess ∧ t.pair = s.pair ∧ t.dev = s.dev

theorem State.postStatus_leaves (s : State) (opcode : Nat) (g : Go) (o : Outcome) :
    s.postLeaves (s.postStatus opcode g o) := by
  obtain ⟨cnt, out, e⟩ := s.postStatus_frame opcode g o
  rw [e]
  exact ⟨⟨rfl, rfl, rfl, rfl, rfl, rfl, rfl, rfl, rfl, rfl, rfl⟩, rfl, rfl, rfl⟩

/-- An answer without output on a mailbox none of whose accesses is held goes out at once (R198, R275). -/
theorem State.postResult_of_noOutput {s : State} {opcode : Nat} {g : Go} {o : Outcome} (ho : o.out = [])
    (hh : s.mbHeld g.mb = false) : s.postResult opcode g o = s.postStatus opcode g o := by
  unfold State.postResult State.placeOutput State.postPlaced
  simp [ho, hh]

end Sys2Proof.Machine
end

section
/-! PROOFS. The mailboxes (11): the flags (O8), the consumer index (O13), the events of a mailbox (O14), go writes (O15), the
checks before a command (O16) and the completion of one (O17). -/

namespace Sys2Proof.Machine

/-- Settles O8: as O9, with nothing cleared. -/
theorem hardwareSetsFlags : Obligations.HardwareSetsFlags := by
  unfold Obligations.HardwareSetsFlags
  intro s g m hs set
  refine ⟨?flags, fun i hi => ?counters⟩
  case flags =>
    have set_kept : set &&& g.kept = set := by rw [BitVec.and_assoc, Reg.flagMask_and_kept]
    calc (s.raise g m).flags g
        = (s.putFlags g (s.flags g ||| set)).flags g := State.flags_withCounters _ _ g
      _ = (s.flags g ||| set) &&& g.kept := State.flags_putFlags hs g _
      _ = s.flags g ||| set := by rw [BitVec.and_or_distrib_right, State.flags_and_kept, set_kept]
  case counters =>
    rw [← State.look_bumpFlags_bitsOfWord hs g set hi, State.flagCount, State.raise, State.putFlags_flagCnt]

/-- Settles O13: the window that `CRing.mayConsume` tests is the statement's. -/
theorem consumerIndex : Obligations.ConsumerIndex := by
  unfold Obligations.ConsumerIndex
  intro s n v x reachable serving bound
  simp [exec, execRingConsumerWrite, State.writeConsumer, reachable, serving, bound, CRing.mayConsume]

/-- Two choices with equivalent tests and the same outcomes. -/
theorem ite_of_iff {α : Type} {b c : Prop} [Decidable b] [Decidable c] {x y u v : α} (test : b ↔ c) (yes : x = u)
    (no : y = v) : (if b then x else y) = if c then u else v := by
  by_cases h : c
  · rw [if_pos h, if_pos (test.mpr h), yes]
  · rw [if_neg h, if_neg (fun k => h (test.mp k)), no]

/-- A fold that does something for some items only is a fold over those. -/
theorem foldl_ite_eq_foldl_filter {α β : Type} (p : α → Bool) (f : β → α → β) (l : List α) (b : β) :
    l.foldl (fun b a => if p a then f b a else b) b = (l.filter p).foldl f b := by
  induction l generalizing b with
  | nil => rfl
  | cons a r ih =>
    by_cases h : p a
    · simp [h, ih]
    · simp [h, ih]

theorem ofLe_leBytes (n v : Nat) (h : v < 256 ^ n) : ofLe (leBytes n v) = v := by
  induction n generalizing v with
  | zero => simp at h; simp [h, leBytes, ofLe]
  | succ n ih =>
    have : v / 256 < 256 ^ n := by rw [Nat.pow_succ] at h; omega
    simp [leBytes, ofLe, ih _ this]; omega

theorem length_leBytes (n v : Nat) : (leBytes n v).length = n := by
  induction n generalizing v with
  | zero => rfl
  | succ n ih => simp [leBytes, ih]

theorem ofNat_ofLe_leBytes (w : Word) : BitVec.ofNat 32 (ofLe (leBytes 4 w.toNat)) = w := by
  rw [ofLe_leBytes 4 _ (by have := w.isLt; omega), BitVec.ofNat_toNat, BitVec.setWidth_eq]

theorem fld_leBytes_four (w : Word) : BitVec.ofNat 32 (fld (leBytes 4 w.toNat) 0 4) = w := by
  have whole : slice (leBytes 4 w.toNat) 0 4 = leBytes 4 w.toNat :=
    List.take_of_length_le (by simp [length_leBytes])
  rw [fld, whole, ofNat_ofLe_leBytes]

/-- An address of the mailbox window is no register's, and names its mailbox and its offset in it. -/
theorem regOf_window {n off : Nat} (hn : n < 256) (ho : off < 0x1000) : regOf (bar0 + 0x1000 * n + off) = none := by
  unfold regOf bar0
  rw [if_neg (by omega)]

theorem mailboxAt_window {n off len : Nat} (hn : n < 256) (hl : 0 < len) (ho : off + len ≤ 0x1000) :
    mailboxAt (bar0 + 0x1000 * n + off) len = some (n, off) := by
  unfold mailboxAt
  have number : (bar0 + 0x1000 * n + off - bar0) / 0x1000 = n := by omega
  have offset : (bar0 + 0x1000 * n + off - bar0) % 0x1000 = off := by omega
  rw [if_pos (by omega), number, offset]

/-- A host's write of an aligned word of the window, outside the inline payload. -/
theorem State.plainWrite_window {s : State} {n off : Nat} {w hw : Word} (reachable : s.reachable = true) (hn : n < 256)
    (outside : off < 0x200 ∨ 0xF00 ≤ off) (aligned : off % 4 = 0) (ho : off + 4 ≤ 0x1000) :
    s.plainWrite (bar0 + 0x1000 * n + off) (leBytes 4 w.toNat) hw = s.putWord hw n off w := by
  have inline : inlineAt off 4 = false := by simp [inlineAt]; omega
  have takes : windowTakes off 4 = true := by simp [windowTakes, aligned]
  have named : mailboxAt (bar0 + 0x1000 * n + off) 4 = some (n, off) := mailboxAt_window hn (by decide) ho
  unfold State.plainWrite
  rw [regOf_window hn (by omega)]
  simp only [reachable, if_true, State.writeBar, State.writeMailbox, length_leBytes, named, inline, takes]
  simp only [Bool.false_eq_true, if_false, Nat.reduceDiv, List.range_one, List.foldl_cons, List.foldl_nil, Nat.mul_zero,
    Nat.add_zero, fld_leBytes_four]

/-! Which sessions are open. -/

/-- The numbers of the open sessions, in order. -/
def State.ids (s : State) : List Nat := s.sess.map (fun x => x.id)

theorem State.ids_of_sess {s t : State} (h : t.sess = s.sess) : t.ids = s.ids := by rw [State.ids, h, State.ids]

theorem State.ids_setSess (s : State) (id : Nat) {f : Sess → Sess} (hf : ∀ x, (f x).id = x.id) :
    (s.setSess id f).ids = s.ids := by
  simp only [State.ids, State.setSess, List.map_map]
  refine List.map_congr_left fun x _ => ?_
  simp only [Function.comp]
  split
  · exact hf x
  · rfl

theorem State.isSome_session_iff (s : State) (id : Nat) : (s.session id).isSome ↔ id ∈ s.ids := by
  simp [State.session, State.ids]

theorem State.session_setSess_self (s : State) (id : Nat) {f : Sess → Sess} (hf : ∀ x, (f x).id = x.id) :
    (s.setSess id f).session id = (s.session id).map f := by
  simp only [State.session, State.setSess]
  induction s.sess with
  | nil => rfl
  | cons x r ih =>
    by_cases hx : x.id = id
    · simp [hx, hf]
    · simp [hx, ih]

theorem State.sess_finishBusy (s : State) (n : Nat) (o : Outcome) : (s.finishBusy n o).sess = s.sess := rfl

theorem State.sess_endReplay (s : State) (n id : Nat) (o : Outcome) : (s.endReplay n id o).sess = s.sess := by
  unfold State.endReplay
  split
  · split <;> rfl
  · rfl

theorem State.sess_setEvents (s : State) (l : List Nat) (bit : Nat) :
    (l.foldl (fun s n => s.setEvent n bit) s).sess = s.sess :=
  foldl_keeps State.sess _ (fun s n => s.setEvent_sess n bit) l s

theorem State.ids_dropWritten (s : State) (id : Nat) : (s.dropWritten id).ids = s.ids := by
  unfold State.dropWritten
  split
  · rfl
  · exact State.ids_setSess _ _ fun _ => rfl

theorem State.ids_putRecord (s : State) (x : Sess) (rec : Record) : (s.putRecord x rec).ids = s.ids := by
  unfold State.putRecord
  dsimp only
  rw [State.ids_of_sess (State.sess_setEvents _ _ _), State.ids_setSess]
  · refine State.ids_of_sess ?_
    split
    · exact State.devStore_sess _ _ _ _
    · rfl
  · exact fun _ => rfl

theorem State.ids_postRecord (s : State) (id : Nat) (own : Bool) (rec : Record) :
    (s.postRecord id own rec).ids = s.ids := by
  unfold State.postRecord
  split
  · rfl
  · extract_lets _ x u
    have begun : u.ids = s.ids := by
      unfold u
      split
      · exact State.ids_setSess _ _ fun _ => rfl
      · rfl
    clear_value x u
    split
    · exact (State.ids_dropWritten _ _).trans begun
    · split
      · exact (State.ids_putRecord _ _ _).trans begun
      · exact (State.ids_setSess _ _ (by exact fun _ => rfl)).trans begun

theorem State.ids_removeQueued (s : State) (id : Nat) (hit : QItem → Bool) (code : Nat) :
    (s.removeQueued id hit code).2.ids = s.ids := by
  unfold State.removeQueued
  split
  · rfl
  · dsimp only
    refine (foldl_keeps State.ids _ (fun s q => ?_) _ _).trans (State.ids_setSess _ _ fun _ => rfl)
    split
    · exact State.ids_postRecord _ _ _ _
    · exact State.ids_of_sess (State.sess_endReplay _ _ _ _)

theorem State.ids_stopStep (s : State) (id code : Nat) : (s.stopStep id code).ids = s.ids := by
  refine State.ids_setSess _ _ fun x => ?_
  split
  · rfl
  · split <;> rfl

theorem State.sess_endLoads (s : State) : s.endLoads.sess = s.sess := by
  unfold State.endLoads
  refine foldl_keeps State.sess _ (fun s l => ?_) _ { s with loads := _ }
  dsimp only
  split <;> rfl

theorem State.sess_recordFail (s : State) (cause region seg : Nat) : (s.recordFail cause region seg).sess = s.sess := by
  unfold State.recordFail
  split
  · exact State.raise_sess _ _ _
  · exact State.raise_sess _ _ _

theorem State.sess_runDesign (s : State) (r : Nat) : (s.runDesign r).sess = s.sess := by
  unfold State.runDesign
  dsimp only
  split <;> rfl

theorem State.sess_fixLane (s : State) (l : Nat) : (s.fixLane l).sess = s.sess := rfl

theorem State.sess_isolate (s : State) (r : Nat) : (s.isolate r).sess = s.sess := by
  unfold State.isolate
  extract_lets was a b c d e
  have ha : a.sess = s.sess := by
    unfold a
    split
    · rfl
    · exact State.sess_runDesign _ _
  have hb : b.sess = s.sess := by
    refine (foldl_keeps State.sess _ (fun _ _ => ?_) _ a).trans ha
    rfl
  clear_value b
  have hd : d.sess = s.sess := hb
  clear_value d
  have he : e.sess = s.sess := by
    unfold e
    split
    · exact (State.raise_sess _ _ _).trans hd
    · exact hd
  split
  · exact (State.sess_fixLane _ _).trans he
  · exact he

theorem State.sess_beginClear (s : State) (r : Nat) : (s.beginClear r).sess = s.sess := State.sess_isolate s r

theorem State.sess_failLoad (s : State) (slot bit cause region seg code : Nat) :
    (s.failLoad slot bit cause region seg code).sess = s.sess := by
  unfold State.failLoad
  split
  · rfl
  · refine (foldl_keeps State.sess _ (fun s r => ?_) _ _).trans
      ((State.sess_recordFail _ _ _ _).trans (State.raise_sess _ _ _))
    split
    · rfl
    · exact State.sess_beginClear _ _

theorem State.sess_abortLoads (s : State) (hit : Load → Bool) : (s.abortLoads hit).sess = s.sess := by
  refine (State.sess_endLoads _).trans (foldl_keeps State.sess _ (fun s l => ?_) _ s)
  split
  · split
    · exact State.sess_failLoad _ _ _ _ _ _ _
    · rfl
  · rfl

/-- A session that begins to close is open still, closing and with no grant to come (R289, R291). -/
theorem State.session_beginClose {s : State} {id : Nat} (own : Option Nat) (h : id ∈ s.ids) :
    ∃ y, (s.beginClose id own).2.session id = some y ∧ y.closing = true ∧ y.grant = 0 := by
  obtain ⟨x, hx⟩ := Option.isSome_iff_exists.mp ((s.isSome_session_iff id).mpr h)
  unfold State.beginClose
  rw [hx]
  dsimp only
  rw [State.session_setSess_self _ _ (f := fun x => { x with closing := true, grant := 0 }) fun _ => rfl]
  generalize hu : State.abortLoads _ _ = u
  have ids : u.ids = s.ids := by
    rw [← hu, State.ids_of_sess (State.sess_abortLoads _ _)]
    refine (foldl_keeps State.ids _ (fun s n => ?_) _ _).trans
      ((State.ids_stopStep _ _ _).trans (State.ids_removeQueued _ _ _ _))
    split
    · rfl
    · split
      · split
        · rfl
        · split
          · rfl
          · exact State.ids_of_sess (State.sess_finishBusy _ _ _)
      · rfl
  obtain ⟨y, hy⟩ := Option.isSome_iff_exists.mp ((u.isSome_session_iff id).mpr (ids ▸ h))
  rw [hy]
  exact ⟨_, rfl, rfl, rfl⟩

/-- Settles O14: each event's definition, and the session that a run-out lease leaves (`State.session_beginClose`). -/
theorem mailboxEvents : Obligations.MailboxEvents := by
  unfold Obligations.MailboxEvents
  refine ⟨?mask, ?pending, ?health, ?lease⟩
  case mask =>
    intro s n w hw reachable hn
    simp only [exec, execRegisterWrite]
    rw [State.plainWrite_window reachable hn (by omega) (by decide) (by decide)]
    simp [State.putWord]
  case pending =>
    intro s n w hw reachable hn m raised
    simp only [exec, execEventPendingClear, reachable, hn, decide_true, Bool.and_self, if_true]
    exact congrArg _ (foldl_ite_eq_foldl_filter _ _ _ _)
  case health =>
    intro s good held u h
    simp only [exec, execHealthRecordRewrite, good, held]
    rfl
  case lease =>
    intro s id x open_ leased notClosing
    obtain ⟨y, found, closing, grant⟩ := State.session_beginClose (s := s) (id := id) none
      ((s.isSome_session_iff id).mp (open_ ▸ rfl))
    refine ⟨(s.beginClose id none).2.note .lease 0 id [], ?_, y, found, closing, grant⟩
    simp [exec, execLeaseExpiry, open_, leased, notClosing]

theorem State.ignoreGo_of_not_accepts {s : State} {n : Nat} {v : Word} (reachable : s.reachable = true) (hn : n < 256)
    (h : s.accepts n v.toNat = false) : exec (.goWriteIgnored n v) s = .next (s.ignoreGo n) := by
  simp [exec, execGoWriteIgnored, reachable, hn, h]

theorem State.accepts_iff {s : State} {n v : Nat} (reachable : s.reachable = true) (hn : n < 256) :
    s.accepts n v = true ↔ s.serving = true ∧ 1 ≤ n ∧ (s.mb n).claimed = true ∧ (s.mb n).busy = none ∧
      v = if (s.mb n).seq + 1 = 2 ^ 32 then 1 else (s.mb n).seq + 1 := by
  simp [State.accepts, Mailbox.takes, Mailbox.nextSeq, reachable, hn, and_assoc]

@[simp] theorem State.accept_pair (s : State) (opcode : Nat) (g : Go) : (s.accept opcode g).pair = s.pair := rfl

theorem State.accept_mb_ne (s : State) (opcode : Nat) (g : Go) {k : Nat} (hk : k ≠ g.mb) :
    (s.accept opcode g).mb k = s.mb k := State.mb_setMb_ne _ hk

theorem State.leftOut_of_not_left {s : State} (c : Cmd) (g : Go) (h : s.pair.left = false) : s.leftOut c g = false := by
  simp [State.leftOut, h]

/-- An accepted command answered at once, without output, by a state that only its acceptance has changed. -/
theorem State.postResult_accept {s : State} {opcode : Nat} {g : Go} {o : Outcome} (ho : o.out = [])
    (hh : s.mbHeld g.mb = false) :
    let t := (s.accept opcode g).postResult opcode g o
    Shows (t.mb g.mb) opcode g o ∧ s.postLeaves t ∧ ∀ k, k ≠ g.mb → t.mb k = s.mb k := by
  dsimp only
  rw [State.postResult_of_noOutput (s := s.accept opcode g) ho hh]
  refine ⟨State.postStatus_shows _ _ _ _, ?_, fun k hk => ?_⟩
  · exact (s.accept opcode g).postStatus_leaves opcode g o
  · rw [State.postStatus_mb_ne _ _ _ _ hk, State.accept_mb_ne _ _ _ hk]

/-- Settles O15: `State.accepts` case by case, and the answer of an opcode that no table lists. -/
theorem goWrites : Obligations.GoWrites := by
  unfold Obligations.GoWrites
  refine ⟨?ignored, ?unlisted⟩
  case ignored =>
    intro s n v reachable hn why
    have refused : s.accepts n v.toNat = false := by
      rw [Bool.eq_false_iff, Ne, State.accepts_iff reachable hn]
      rintro ⟨serving, pos, claimed, idle, next⟩
      rcases why with rfl | off | unclaimed | busy | other
      · exact absurd pos (by decide)
      · simp [serving] at off
      · simp [claimed] at unclaimed
      · exact busy idle
      · exact other next
    rw [State.ignoreGo_of_not_accepts reachable hn refused]
    rfl
  case unlisted =>
    intro s g op taken held unlisted
    obtain ⟨wf, accepts, notLeft, -⟩ := taken
    have reachable : s.reachable = true := by
      simp only [State.accepts, Bool.and_eq_true] at accepts
      exact accepts.1.1.1.1
    have bad : s.badOpcode g op.toNat = (s.accept op.toNat g).postResult op.toNat g { code := 1 } := by
      have notOut := State.leftOut_of_not_left { opcode := op.toNat } g
        (show (s.accept op.toNat g).pair.left = false from notLeft)
      simp [State.badOpcode, accepts, notOut]
    obtain ⟨shows_, ⟨work, sess, -, dev⟩, others⟩ := State.postResult_accept (s := s) (opcode := op.toNat) (g := g)
      (o := { code := 1 }) rfl held
    refine ⟨_, ?_, shows_, work, sess, dev, others⟩
    simp only [exec, execUndefinedOpcode, wf, reachable, unlisted, bad]
    rfl

theorem State.reachable_of_accepts {s : State} {n v : Nat} (h : s.accepts n v = true) : s.reachable = true := by
  simp only [State.accepts, Bool.and_eq_true] at h
  exact h.1.1.1.1

theorem State.leftOut_of_unbound {s : State} {c : Cmd} {g : Go} (left : s.pair.left = true)
    (unbound : (s.mb g.mb).sess = 0) (notOpen : c.opcode ≠ 0x10 ∨ bitAt (par g 0x20 4) 1 = false) :
    s.leftOut c g = true := by
  rcases notOpen with h | h
  · simp [State.leftOut, left, unbound, h]
  · simp [State.leftOut, left, unbound, h]

/-- The mailbox after its go write was accepted is bound as before. -/
theorem State.accept_mb (s : State) (opcode : Nat) (g : Go) : (s.accept opcode g).mb g.mb =
    { s.mb g.mb with
      seq := g.go.toNat, state := 1, statusSeq := g.go.toNat % 256
      hdr := wrBytes (s.mb g.mb).hdr 0 (goHeader g opcode), opened := (s.mb g.mb).opened || opcode == 0x10
      busy := some { opcode := opcode, go := g, wait := .ready }
      inl := if g.flags.getLsbD 0 then wrBytes (s.mb g.mb).inl 0 (g.payload.take 3328) else (s.mb g.mb).inl } :=
  State.mb_setMb_of_ne_default (Mailbox.ne_default_of_state (Nat.one_ne_zero))

/-- A taken go write runs its checks, and then its answer or its command's own meaning, unless a pair orders it. -/
theorem State.runCmd_of_accepts {s : State} {c : Cmd} {g : Go} {own : State → Option Fail × State}
    {core : State → Reply × State} (wf : g.wf = true) (accepts : s.accepts g.mb g.go.toNat = true) :
    s.runCmd c g own core =
      let u := (s.accept c.opcode g).check c g own
      if u.2.orders c && !u.2.leftOut c g then (u.2.holdOrder c g u.1).sendPair
      else match u.1 with
        | some f => u.2.postResult c.opcode g f.outcome
        | none => (core u.2).2.answer c.opcode g (core u.2).1 := by
  simp only [State.runCmd, wf, State.reachable_of_accepts accepts, accepts]
  rfl

/-- Settles O16: the checks of a command come before anything it does. -/
theorem failedChecksChangeNothing : Obligations.FailedChecksChangeNothing := by
  unfold Obligations.FailedChecksChangeNothing
  refine ⟨?failed, ?left⟩
  case failed =>
    intro s c g own core f taken held failed
    obtain ⟨wf, accepts, notLeft, notShadow⟩ := taken
    have checked : (s.accept c.opcode g).check c g own = (some f, s.accept c.opcode g) := by
      simp [State.check, State.leftOut_of_not_left (s := s.accept c.opcode g) c g notLeft, failed]
    have unordered : (s.accept c.opcode g).orders c = false := by simp [State.orders, notShadow]
    obtain ⟨shown, ⟨work, sess, pair, dev⟩, others⟩ := State.postResult_accept (s := s) (opcode := c.opcode) (g := g)
      (o := f.outcome) rfl held
    refine ⟨_, ?_, shown, work, sess, pair, dev, others⟩
    rw [icura, State.runCmd_of_accepts wf accepts, checked]
    simp [unordered]
  case left =>
    intro s c g own core wf accepts left unbound notOpen
    have out : (s.accept c.opcode g).leftOut c g = true :=
      State.leftOut_of_unbound left (by rw [State.accept_mb]; exact unbound) notOpen
    have checked : (s.accept c.opcode g).check c g own = (some { code := 0xD }, s.accept c.opcode g) := by
      simp [State.check, out]
    rw [icura, State.runCmd_of_accepts wf accepts, checked]
    simp [out]
    rfl

/-- What `State.answered` names: the command whose answer is ready and waits for no access. -/
theorem State.answered_of_ready {s : State} {n : Nat} {b : BusyCmd} (busy : (s.mb n).busy = some b)
    (held : s.mbHeld n = false) (ready : b.done = true ∨ b.wait = .restart) : s.answered n = some b := by
  rcases ready with h | h
  · simp [State.answered, busy, held, h]
  · simp [State.answered, busy, held, h]

theorem exec_commandCompletion {s : State} {n : Nat} {b : BusyCmd} (h : s.answered n = some b) :
    exec (.commandCompletion n) s = .next ((s.complete b).afterResponse b.wait) := by
  simp only [exec, execCommandCompletion, h]

theorem State.afterResponse_other {s : State} {w : WaitFor} (notClose : ∀ id, w ≠ .close id)
    (notRestart : w ≠ .restart) : s.afterResponse w = s := by
  cases w with
  | close id => exact absurd rfl (notClose id)
  | restart => exact absurd rfl notRestart
  | _ => rfl

theorem State.sess_freeMailboxesOf (s : State) (ns : List Nat) : (s.freeMailboxesOf ns).sess = s.sess :=
  foldl_keeps State.sess (fun s n => s.setMb n Mailbox.freed) (fun _ _ => rfl) ns s

theorem State.session_dropSession (s : State) (id : Nat) : (s.dropSession id).session id = none := by
  unfold State.dropSession
  split
  · assumption
  · dsimp only
    rw [State.session, State.sess_freeMailboxesOf]
    simp

theorem State.flash_postStatus (s : State) (opcode : Nat) (g : Go) (o : Outcome) :
    (s.postStatus opcode g o).flash = s.flash := by
  obtain ⟨⟨-, -, -, -, -, -, -, -, -, -, flash⟩, -⟩ := s.postStatus_leaves opcode g o
  exact flash

theorem State.flash_postResult (s : State) (opcode : Nat) (g : Go) (o : Outcome) :
    (s.postResult opcode g o).flash = s.flash := by
  have placed : (s.placeOutput g o).2.flash = s.flash := by
    unfold State.placeOutput State.putOutput
    split
    · rfl
    · split
      · rfl
      · dsimp only
        split
        · rfl
        · split
          · exact State.devStore_flash _ _ _ _
          · rfl
  unfold State.postResult State.postPlaced
  dsimp only
  split
  · exact placed
  · exact (State.flash_postStatus _ _ _ _).trans placed

/-- Settles O17: the answer of `State.complete`, and what `State.afterResponse` does after it. -/
theorem commandCompletion : Obligations.CommandCompletion := by
  unfold Obligations.CommandCompletion
  refine ⟨?answer, ?noOutput, ?close, ?restart⟩
  case answer =>
    intro s n b busy held done notClose notRestart
    rw [exec_commandCompletion (State.answered_of_ready busy held (.inl done)),
      State.afterResponse_other notClose notRestart]
    rfl
  case noOutput =>
    intro s n b busy held done notClose notRestart own empty
    have posted : s.complete b = s.postStatus b.opcode b.go b.acc := by
      unfold State.complete
      rw [State.postResult_of_noOutput empty (own ▸ held), ite_self]
    obtain ⟨work, sess, pair, dev⟩ := s.postStatus_leaves b.opcode b.go b.acc
    refine ⟨s.postStatus b.opcode b.go b.acc, ?_, own ▸ State.postStatus_shows _ _ _ _, work, sess, pair, dev,
      fun k hk => State.postStatus_mb_ne _ _ _ _ (own ▸ hk)⟩
    rw [exec_commandCompletion (State.answered_of_ready busy held (.inl done)),
      State.afterResponse_other notClose notRestart, posted]
  case close =>
    intro s n id b busy held done close
    refine ⟨_, exec_commandCompletion (State.answered_of_ready busy held (.inl done)), ?_⟩
    rw [close]
    exact State.session_dropSession _ _
  case restart =>
    intro s n b busy held restart
    refine ⟨_, exec_commandCompletion (State.answered_of_ready busy held (.inr restart)), ?_⟩
    have kept : (s.complete b).flash = s.flash := by
      unfold State.complete
      split
      · exact State.flash_postStatus _ _ _ _
      · exact State.flash_postResult _ _ _ _
    rw [restart]
    exact congrArg (fun f => !f.active) kept

end Sys2Proof.Machine
end

section
/-! PROOFS. A command past its checks (R275, R285): the one equation from which each command's answer follows, and the
commands that report (O18). -/

namespace Sys2Proof.Machine

/-- A correction of words read changes nothing but the controllers and the source of free values. -/
theorem State.correctRead_pair (s : State) (a n : Nat) : (s.correctRead a n).pair = s.pair := by
  unfold State.correctRead
  refine foldl_keeps State.pair _ (fun s i => ?_) _ s
  rfl

theorem State.fetchPayload_pair (s : State) (g : Go) : (s.fetchPayload g).pair = s.pair := by
  unfold State.fetchPayload
  extract_lets a n
  split
  · rfl
  · split
    · exact State.holdAccess_pair _ _
    · exact (State.correctRead_pair _ _ _).trans (State.touch_pair _ _ _ _)

theorem State.received_pair (s : State) (c : Cmd) (g : Go) : (s.received c g).pair = s.pair := by
  unfold State.received
  split
  · exact State.fetchPayload_pair _ _
  · rfl

/-- The common checks and the payload's transfer passed: the command's own checks run in the state that has received it. -/
theorem State.check_of_passes {s : State} {c : Cmd} {g : Go} (h : s.passes c g)
    (own : State → Option Fail × State) : (s.accept c.opcode g).check c g own = own (s.received c g) := by
  obtain ⟨⟨-, -, notLeft, -⟩, checked, paid⟩ := h
  have notOut := State.leftOut_of_not_left (s := s.accept c.opcode g) c g notLeft
  have fetched : (decide (c.pay = 1) && (s.accept c.opcode g).payFails g && c.opcode != 0x50 && c.opcode != 0x51) =
      false := by
    by_cases hp : c.pay = 1 <;> by_cases h50 : c.opcode = 0x50 <;> by_cases h51 : c.opcode = 0x51 <;>
      simp [hp, h50, h51, paid]
  simp only [State.check, notOut, checked, fetched]
  rfl

/-- What follows the checks: a failed one's answer, or the command's own meaning with its answer. -/
def concluded (c : Cmd) (g : Go) (core : State → Reply × State) : Option Fail × State → State
  | (some f, v) => v.postResult c.opcode g f.outcome
  | (none, v) => (core v).2.answer c.opcode g (core v).1

/-- A command whose own checks leave the pair as it is: a failed check's answer, or its meaning. -/
theorem icura_of_own {s : State} {c : Cmd} {g : Go} {own : State → Option Fail × State}
    (core : State → Reply × State) (h : s.passes c g)
    (hpair : (own (s.received c g)).2.pair = (s.received c g).pair) :
    icura c g own core s = .next (concluded c g core (own (s.received c g))) := by
  have unordered : (own (s.received c g)).2.orders c = false := by
    obtain ⟨⟨-, -, -, notShadow⟩, -⟩ := h
    simp [State.orders, hpair, State.received_pair, notShadow]
  obtain ⟨⟨wf, accepts, -, -⟩, -⟩ := id h
  rw [icura, State.runCmd_of_accepts wf accepts, State.check_of_passes h]
  dsimp only
  rw [unordered]
  generalize own (s.received c g) = r
  obtain ⟨_ | f, v⟩ := r
  · rfl
  · rfl

theorem icura_noCheck {s : State} {c : Cmd} {g : Go} (core : State → Reply × State) (h : s.passes c g) :
    icura c g noCheck core s =
      .next ((core (s.received c g)).2.answer c.opcode g (core (s.received c g)).1) :=
  icura_of_own core h rfl

/-- A command that does not fetch a payload is received as it is accepted. -/
theorem State.received_of_pay {c : Cmd} (h : c.pay ≠ 1) (s : State) (g : Go) :
    s.received c g = s.accept c.opcode g := if_neg h

/-- A command without own checks and without a payload to fetch. -/
theorem icura_plain {s : State} {c : Cmd} {g : Go} (core : State → Reply × State) (hc : c.pay ≠ 1) (h : s.passes c g) :
    icura c g noCheck core s =
      .next ((core (s.accept c.opcode g)).2.answer c.opcode g (core (s.accept c.opcode g)).1) := by
  rw [icura_noCheck core h, State.received_of_pay hc]

/-- Settles O18: each command's meaning, evaluated in the state in which its go write has been accepted. -/
theorem reportingCommands : Obligations.ReportingCommands := by
  unfold Obligations.ReportingCommands
  refine ⟨?info, ?health, ?idle, ?running, ?fabric, ?telemetry, ?log, ?pair⟩
  case info =>
    intro s g h
    exact icura_plain coreInfo (by decide) h
  case health =>
    intro s g h
    exact icura_plain _ (by decide) h
  case idle =>
    intro s g x h u open_ idle noImage
    refine (icura_plain (coreQuery g) (by decide) h).trans ?_
    change Host.Outcome.next ((coreQuery g u).2.answer 0x42 g (coreQuery g u).1) = _
    simp only [coreQuery, open_, idle, noImage]
    rfl
  case running =>
    intro s g x run h u open_ running noReplay
    refine (icura_plain (coreQuery g) (by decide) h).trans ?_
    change Host.Outcome.next ((coreQuery g u).2.answer 0x42 g (coreQuery g u).1) = _
    simp only [coreQuery, open_, running, noReplay]
    rfl
  case fabric =>
    intro s g h u r
    refine (icura_plain (coreFabStatus g) (by decide) h).trans ?_
    change Host.Outcome.next ((coreFabStatus g u).2.answer 0x52 g (coreFabStatus g u).1) = _
    by_cases named : r < 64 ∧ ((u.region r).owner = 0 ∨ (u.region r).owner = (u.mb g.mb).sess)
    · have may : u.mayName (u.mb g.mb).sess r = true := by simpa [State.mayName] using named
      rw [if_pos named]
      simp only [coreFabStatus, show par g 0x20 1 = r from rfl, may]
      rfl
    · have mayNot : u.mayName (u.mb g.mb).sess r = false := by simpa [State.mayName] using named
      rw [if_neg named]
      simp only [coreFabStatus, show par g 0x20 1 = r from rfl, mayNot]
      rfl
  case telemetry =>
    intro s g x h u group i open_
    refine (icura_plain (coreTelemetry g) (by decide) h).trans ?_
    change Host.Outcome.next ((coreTelemetry g u).2.answer 0xA0 g (coreTelemetry g u).1) = _
    simp only [coreTelemetry, open_]
    by_cases inGroups : group < 1 ∨ 7 < group
    · have out : (!(decide (1 ≤ group) && decide (group ≤ 7))) = true := by simp; omega
      rw [if_pos inGroups, if_pos out]
      rfl
    · have within : (!(decide (1 ≤ group) && decide (group ≤ 7))) = false := by simp; omega
      rw [if_neg inGroups, if_neg (by rw [within]; decide)]
      cases may : x.mayRead group i with
      | false => rfl
      | true => rfl
  case log =>
    intro s g x h u open_ l
    refine (icura_plain (coreLogRead g) (by decide) h).trans ?_
    change Host.Outcome.next ((coreLogRead g u).2.answer 0xA1 g (coreLogRead g u).1) = _
    simp only [coreLogRead, open_]
    rfl
  case pair =>
    intro s g h u v
    exact icura_plain corePairStatus (by decide) h
end Sys2Proof.Machine
end

section
/-! PROOFS. The commands that read the board's memory and the registers (O19). -/

namespace Sys2Proof.Machine

/-- A condition of R285 on one field: no failure when it holds, its code and place when not. -/
theorem badPar_true {ok : Bool} {code off : Nat} (h : ok = true) : badPar ok code off = none := if_pos h

theorem badPar_false {ok : Bool} {code off : Nat} (h : ok = false) :
    badPar ok code off = some { code := code, detail := detailOf 5 off } := if_neg (by simp [h])

/-- The length and the alignment of a register transfer (R315). -/
theorem ownReg_eq (limit : Nat) (g : Go) (s : State) : ownReg limit g s =
    (if par g 0x28 4 < 1 ∨ limit < par g 0x28 4 then some { code := 2, detail := detailOf 5 0x28 }
     else if par g 0x20 8 % 4 ≠ 0 then some { code := 4, detail := detailOf 5 0x20 } else none, s) := by
  unfold ownReg
  dsimp only
  split
  · rw [badPar_false (by simp; omega)]
    rfl
  · rw [badPar_true (by simp; omega)]
    split
    · rw [badPar_false (by simpa)]
      rfl
    · have aligned : par g 0x20 8 % 4 = 0 := Classical.not_not.mp ‹_›
      rw [badPar_true (by simp [aligned])]
      rfl

/-- Settles O19: the settings, certificates and attestation by their meanings, the registers by their own checks
(`ownReg_eq`) and the words in order. -/
theorem readingCommands : Obligations.ReadingCommands := by
  unfold Obligations.ReadingCommands
  refine ⟨?settings, ?certificates, ?attest, ?read, ?write⟩
  case settings =>
    intro s g h u copy off len
    refine (icura_plain (coreSettingsRead g) (by decide) h).trans ?_
    change Host.Outcome.next ((coreSettingsRead g u).2.answer 0x90 g (coreSettingsRead g u).1) = _
    by_cases hc : 2 < copy
    · simp only [coreSettingsRead, if_pos hc, if_pos (show par g 0x20 1 > 2 from hc)]
      rfl
    · by_cases hl : 8192 < off + len
      · simp only [coreSettingsRead, if_neg hc, if_neg (show ¬ par g 0x20 1 > 2 from hc), if_pos hl,
          if_pos (show par g 0x24 4 + par g 0x28 4 > 8192 from hl)]
        rfl
      · simp only [coreSettingsRead, if_neg hc, if_neg (show ¬ par g 0x20 1 > 2 from hc), if_neg hl,
          if_neg (show ¬ par g 0x24 4 + par g 0x28 4 > 8192 from hl)]
        rfl
  case certificates =>
    intro s g h u
    refine (icura_plain (coreCertificates g) (by decide) h).trans ?_
    change Host.Outcome.next ((coreCertificates g u).2.answer 0x81 g (coreCertificates g u).1) = _
    unfold coreCertificates
    cases u.sec.certOk with
    | false => rfl
    | true => rfl
  case attest =>
    intro s g h u
    refine (icura_plain (coreAttest g) (by decide) h).trans ?_
    change Host.Outcome.next ((coreAttest g u).2.answer 0x80 g (coreAttest g u).1) = _
    cases key : u.sec.idKey with
    | none =>
      simp only [coreAttest, key]
      rfl
    | some d =>
      simp only [coreAttest, State.signId, key]
      rfl
  case read =>
    intro s g h u a n
    refine (icura_of_own (coreRegRead g) h (by rw [ownReg_eq])).trans ?_
    rw [ownReg_eq]
    change Host.Outcome.next (concluded cmdRegRead g (coreRegRead g)
      (if n < 1 ∨ 52 < n then _ else if a % 4 ≠ 0 then _ else none, u)) = _
    split
    · rfl
    · split
      · rfl
      · rfl
  case write =>
    intro s g h u a n
    refine (icura_of_own (coreRegWrite g) h (by rw [ownReg_eq])).trans ?_
    rw [ownReg_eq]
    change Host.Outcome.next (concluded cmdRegWrite g (coreRegWrite g)
      (if n < 1 ∨ 48 < n then _ else if a % 4 ≠ 0 then _ else none, u)) = _
    split
    · rfl
    · split
      · rfl
      · rfl
end Sys2Proof.Machine
end

section
/-! PROOFS. The session commands (O20). -/

namespace Sys2Proof.Machine

/-- A command's own meaning with its answer. -/
def replied (opcode : Nat) (g : Go) (r : Reply × State) : State := r.2.answer opcode g r.1

theorem replied_ite (opcode : Nat) (g : Go) {p : Prop} [Decidable p] (a b : Reply × State) :
    replied opcode g (if p then a else b) = if p then replied opcode g a else replied opcode g b :=
  apply_ite (replied opcode g) p a b

/-- A command by the result of its own checks. -/
theorem icura_of_own_eq {s v : State} {c : Cmd} {g : Go} {own : State → Option Fail × State} {f : Option Fail}
    (core : State → Reply × State) (h : s.passes c g) (hown : own (s.received c g) = (f, v)) (hpair : v.pair = s.pair) :
    icura c g own core s = .next (concluded c g core (f, v)) := by
  have kept : (own (s.received c g)).2.pair = (s.received c g).pair := by rw [hown, State.received_pair, hpair]
  rw [icura_of_own core h kept, hown]

/-- The state after `OPEN_SESSION`'s own checks: a privileged open draws a new nonce (R288). -/
def State.nonced (s : State) (priv : Bool) : State := if priv then s.newNonce else s

theorem State.nonced_pair (s : State) (priv : Bool) : (s.nonced priv).pair = s.pair := by
  cases priv <;> rfl

theorem State.nonced_grantsBarred (s : State) (priv : Bool) : (s.nonced priv).grantsBarred = s.grantsBarred := by
  cases priv <;> rfl

theorem State.nonced_heldElsewhere (s : State) (priv : Bool) (id : Nat) :
    (s.nonced priv).heldElsewhere id = s.heldElsewhere id := by
  cases priv <;> rfl

theorem State.nonced_lowestFree (s : State) (priv : Bool) (size : Nat) :
    (s.nonced priv).lowestFree false size (s.nonced priv).occupied = s.lowestFree false size s.occupied := by
  cases priv <;> rfl

theorem State.nonced_openCount (s : State) (priv : Bool) : (s.nonced priv).dev.openCount = s.dev.openCount := by
  cases priv <;> rfl

/-- `OPEN_SESSION` without `ATTACH`, its parameters right, up to the operator's signature (R288, R300, R301). -/
theorem ownOpen_of_params {s : State} {g : Go} (notAttach : bitAt (par g 0x20 4) 0 = false)
    (well : s.dev.pkgFault = false ∨ bitAt (par g 0x20 4) 1 = true) (unbound : (s.mb g.mb).sess = 0)
    (lease : leaseOk (par g 0x24 4) = true)
    (ring : if bitAt (par g 0x20 4) 2 then par g 0x38 8 = 0 else par g 0x38 8 % 4096 = 0)
    (entries : ringOk (par g 0x40 4) = true) :
    ownOpen g s = (if bitAt (par g 0x20 4) 1 then
      need (match s.operKey with
        | some k => ecdsaVerify k (sha256 (s.dev.nonce ++ leBytes 8 (par g 0x28 8) ++ leBytes 4 g.mb)) (raw g 0x50 64)
        | none => false) 9 (detailOf 5 0x50) else none, s.nonced (bitAt (par g 0x20 4) 1)) := by
  have ring' : (if bitAt (par g 0x20 4) 2 then par g 0x38 8 == 0 else par g 0x38 8 % 4096 == 0) = true := by
    cases dev : bitAt (par g 0x20 4) 2 with
    | false => simpa [dev] using ring
    | true => simpa [dev] using ring
  have well' : (!s.dev.pkgFault || bitAt (par g 0x20 4) 1) = true := by
    rcases well with h | h
    · simp [h]
    · simp [h]
  have params : (badPar (leaseOk (par g 0x24 4)) 2 0x24 <|>
      badPar (if bitAt (par g 0x20 4) 2 then par g 0x38 8 == 0 else par g 0x38 8 % 4096 == 0) 2 0x38 <|>
      badPar (ringOk (par g 0x40 4)) 2 0x40) = none := by
    rw [badPar_true lease, badPar_true ring', badPar_true entries]
    rfl
  have free : (need (!s.dev.pkgFault || bitAt (par g 0x20 4) 1) 8 <|> need ((s.mb g.mb).sess == 0) 7) = none := by
    simp [need, well', unbound]
  unfold ownOpen
  simp only [free, notAttach, params]
  cases bitAt (par g 0x20 4) 1 with
  | false => rfl
  | true => rfl

/-- `ATTACH` with its other parameters 0, to a session that is open: only the owner tag is left to check (R287). -/
theorem ownOpen_attach {s : State} {g : Go} {x : Sess} (fl : par g 0x20 4 = 1) (well : s.dev.pkgFault = false)
    (unbound : (s.mb g.mb).sess = 0) (lease : par g 0x24 4 = 0) (seed : par g 0x28 8 = 0) (regions : par g 0x30 8 = 0)
    (ring : par g 0x38 8 = 0) (entries : par g 0x40 4 = 0) (signature : (raw g 0x50 64).all (fun b => b == 0) = true)
    (open_ : s.session (par g 0x44 4) = some x) (notClosing : x.closing = false) :
    ownOpen g s = (badPar (x.mbs.any (fun n => (s.mb n).tag == par g 0x48 4)) 4 0x48, s) := by
  have attach : bitAt 1 0 = true := rfl
  have notPriv : bitAt 1 1 = false := rfl
  have free : (need (!s.dev.pkgFault || false) 8 <|> need ((s.mb g.mb).sess == 0) 7) = none := by
    simp [need, well, unbound]
  simp only [ownOpen, fl, attach, notPriv, free, lease, seed, regions, ring, entries, signature, open_, notClosing]
  rfl

theorem State.id_of_session {s : State} {id : Nat} {x : Sess} (h : s.session id = some x) : x.id = id := by
  simpa using List.find?_some h

theorem Mailbox.ne_default_of_busy {m : Mailbox} (h : m.busy ≠ none) : m ≠ {} := fun e => h (e ▸ rfl)

/-- Settles O20: the own checks of `OPEN_SESSION` and `SET_SESSION_LIMITS`, then each command's meaning;
`State.session_beginClose` for a close. -/
theorem sessionCommands : Obligations.SessionCommands := by
  unfold Obligations.SessionCommands
  refine ⟨?opens, ?unsigned, ?attach, ?limits, ?close⟩
  case opens =>
    intro s g a h u fl regions ents priv dev v hfl notAttach well unbound lease ring entries signed granted place
    have signedOk : (if priv then need (match u.operKey with
        | some k => ecdsaVerify k (sha256 (u.dev.nonce ++ leBytes 8 (par g 0x28 8) ++ leBytes 4 g.mb)) (raw g 0x50 64)
        | none => false) 9 (detailOf 5 0x50) else none) = none := by
      split
      · obtain ⟨k, key, ok⟩ := signed ‹_›
        simp only [key, need, ok, if_true]
      · rfl
    have own := (ownOpen_of_params (s := u) (g := g) notAttach well unbound lease ring entries).trans
      (congrArg (·, u.nonced priv) signedOk)
    refine (icura_of_own_eq (coreOpen g) h own (State.nonced_pair u priv)).trans ?_
    change Host.Outcome.next (replied 0x10 g (coreOpen g v)) = _
    have barred : (regions != 0 && v.grantsBarred) = false := by
      rw [show v.grantsBarred = u.grantsBarred from State.nonced_grantsBarred u priv]
      rcases granted with h | h
      · simp [h]
      · simp [h]
    have held : v.heldElsewhere 0 = u.heldElsewhere 0 := State.nonced_heldElsewhere u priv 0
    have ringAt : (if bitAt (par g 0x20 4) 2 then v.lowestFree false (up64k (par g 0x40 4 * 64)) v.occupied
        else some (par g 0x38 8)) = some a := by
      rw [show v.lowestFree false (up64k (par g 0x40 4 * 64)) v.occupied =
        u.lowestFree false (up64k (par g 0x40 4 * 64)) u.occupied from State.nonced_lowestFree u priv _]
      by_cases inDevice : bitAt (par g 0x20 4) 2 = true
      · rw [if_pos inDevice]
        exact (if_pos inDevice).mp place
      · rw [if_neg inDevice]
        exact congrArg some ((if_neg inDevice).mp place).symm
    have count : v.dev.openCount = u.dev.openCount := State.nonced_openCount u priv
    have without : bitAt (par g 0x20 4) 0 = false := notAttach
    simp only [coreOpen, without, ringAt, nextSession, count, held]
    rw [if_neg (by decide : ¬ false = true)]
    rw [if_neg (by rw [barred]; decide)]
    rw [replied_ite]
    rfl
  case unsigned =>
    intro s g h u fl unbound lease ring entries unsigned
    have priv : bitAt (par g 0x20 4) 1 = true := by rw [fl]; rfl
    have refused : need (match u.operKey with
        | some k => ecdsaVerify k (sha256 (u.dev.nonce ++ leBytes 8 (par g 0x28 8) ++ leBytes 4 g.mb)) (raw g 0x50 64)
        | none => false) 9 (detailOf 5 0x50) = some { code := 9, detail := detailOf 5 0x50 } := by
      cases key : u.operKey with
      | none => rfl
      | some k => simp only [need, unsigned k key, Bool.false_eq_true, if_false]
    have own := ownOpen_of_params (s := u) (g := g) (by rw [fl]; rfl) (.inr priv) unbound lease
      (by rw [fl]; exact ring) entries
    rw [priv, if_pos rfl, refused] at own
    exact icura_of_own_eq (coreOpen g) h own (State.nonced_pair u true)
  case attach =>
    intro s g x h u id fl well unbound lease seed regions ring entries signature open_ notClosing
    have own := ownOpen_attach fl well unbound lease seed regions ring entries signature open_ notClosing
    refine (icura_of_own_eq (coreOpen g) h own rfl).trans ?_
    have attach : bitAt (par g 0x20 4) 0 = true := by rw [fl]; rfl
    cases tagged : x.mbs.any (fun n => (u.mb n).tag == par g 0x48 4) with
    | false => rfl
    | true =>
      have open_ : u.session (par g 0x44 4) = some x := open_
      change Host.Outcome.next (replied 0x10 g (coreOpen g u)) = _
      simp only [coreOpen, attach, coreAttach, open_, Bool.true_eq_false, if_false, if_true, replied_ite]
      rfl
  case limits =>
    intro s g x h u fl grant release open_ hfl disjoint lease barred
    have own : ownLimits g u = (none, u) := by
      have disjoint' : (!bitAt (par g 0x20 4) 0 || Nat.land (par g 0x28 8) (par g 0x30 8) == 0) = true := by
        cases asked : bitAt (par g 0x20 4) 0 with
        | false => rfl
        | true => simpa using disjoint asked
      have lease' : (!bitAt (par g 0x20 4) 2 || leaseOk (par g 0x38 4)) = true := by
        cases asked : bitAt (par g 0x20 4) 2 with
        | false => rfl
        | true => simpa using lease asked
      unfold ownLimits
      dsimp only
      rw [badPar_true disjoint', badPar_true lease']
      rfl
    refine (icura_of_own_eq (coreLimits g) h own rfl).trans ?_
    change Host.Outcome.next (replied 0x12 g (coreLimits g u)) = _
    have notBarred : (grant != 0 && u.grantsBarred) = false := by
      rcases barred with h | h
      · simp [h]
      · simp [h]
    simp only [coreLimits, open_]
    rw [if_neg (by rw [notBarred]; decide), replied_ite, replied_ite]
    rfl
  case close =>
    intro s g x h open_
    have isOpen := (State.isSome_session_iff _ _).mp (Option.isSome_of_eq_some open_)
    have number : ((s.accept 0x11 g).mb g.mb).sess = x.id := (State.id_of_session open_).symm
    obtain ⟨y, found, closing, grant⟩ := State.session_beginClose (some g.mb) isOpen
    let b : BusyCmd := {
      opcode := 0x11, go := g, wait := .close ((s.accept 0x11 g).mb g.mb).sess
      acc := { fields := [(0x120, leBytes 4 ((s.accept 0x11 g).beginClose ((s.accept 0x11 g).mb g.mb).sess (some g.mb)).1)] } }
    refine ⟨_, icura_plain (coreClose g) (by decide) h, y, b, number ▸ found, closing, grant, ?_, rfl, rfl, rfl⟩
    exact congrArg Mailbox.busy (State.mb_setMb_of_ne_default (Mailbox.ne_default_of_busy (Option.some_ne_none _)))
end Sys2Proof.Machine
end

section
/-! PROOFS. The commands on device memory (O21), schedule images (O22) and steps (O23). -/

namespace Sys2Proof.Machine

/-- Settles O21: the conditions of each command's meaning are the statement's, one by one. -/
theorem memoryCommands : Obligations.MemoryCommands := by
  unfold Obligations.MemoryCommands
  refine ⟨?alloc, ?free⟩
  case alloc =>
    intro s g x h u bytes tier size hbm lp open_
    refine (icura_plain (coreAlloc g) (by decide) h).trans ?_
    change Host.Outcome.next (replied 0x20 g (coreAlloc g u)) = _
    simp only [coreAlloc, open_, replied_ite]
    refine congrArg Host.Outcome.next (ite_of_iff ?bytes rfl (ite_of_iff Iff.rfl rfl (ite_of_iff Iff.rfl rfl
      (ite_of_iff ?stage rfl ?placed))))
    case bytes =>
      rw [Bool.or_eq_true, decide_eq_true_eq, decide_eq_true_eq]
    case stage =>
      rw [Bool.and_eq_true, Bool.and_eq_true, decide_eq_true_eq, decide_eq_true_eq, Option.isNone_iff_eq_none, and_assoc]
    case placed =>
      change replied 0x20 g (match (match hbm with | some a => some a | none => lp) with
        | none => _
        | some a => _) = _
      have place : (match hbm with | some a => some a | none => lp) = hbm.or lp := by cases hbm <;> rfl
      rw [place]
      cases hbm.or lp with
      | none => rfl
      | some a => rfl
  case free =>
    intro s g x h u open_
    refine (icura_plain (coreFree g) (by decide) h).trans ?_
    change Host.Outcome.next (replied 0x21 g (coreFree g u)) = _
    simp only [coreFree, open_]
    cases x.allocs.find? (fun r => r.addr == par g 0x20 8 && !r.ring) with
    | none => rfl
    | some r =>
      dsimp only
      rw [replied_ite]
      rfl

/-- Settles O22: each answer by the condition that the statement names for it. -/
theorem scheduleCommands : Obligations.ScheduleCommands := by
  unfold Obligations.ScheduleCommands
  refine ⟨?load, ?unload, ?bind⟩
  case load =>
    intro s g x h u i live open_
    have run : exec (.loadSchedule g) s = .next (replied 0x30 g (coreLoad g u)) := icura_noCheck (coreLoad g) h
    rw [run]
    refine ⟨fun frozen => ?_, fun f thawed bad other => ?_, fun handle p thawed good free admitted room => ?_⟩
    · simp only [coreLoad, open_, frozen]
      rfl
    · have other : (decide (f.code = 9) && decide (f.detail = detailOf 1 0xC0)) = false := by simpa using other
      simp only [coreLoad, open_, thawed, live, i] at bad ⊢
      rw [if_neg (by decide), bad]
      dsimp only
      rw [if_neg (by rw [other]; decide)]
      rfl
    · have stage : (decide (u.dev.stage < 2) && decide (0 < i.placedIn true p)) = false := by
        simp; omega
      have good : u.checkImage { bytes := u.payload g } g.payLen.toNat (u.live x.regions) = none := good
      have admitted : u.admission { bytes := u.payload g } = .ok p := admitted
      simp only [coreLoad, open_, thawed, good, free, admitted]
      rw [if_neg (by decide), if_neg (by rw [stage]; decide)]
      rfl
  case unload =>
    intro s g x h u k open_
    refine (icura_plain (coreUnload g) (by decide) h).trans ?_
    change Host.Outcome.next (replied 0x31 g (coreUnload g u)) = _
    simp only [coreUnload, open_]
    cases found : x.image (par g 0x20 1) with
    | none => rfl
    | some i =>
      dsimp only
      rw [replied_ite]
      rfl
  case bind =>
    intro s g x h u k t a open_
    refine (icura_plain (coreBind g) (by decide) h).trans ?_
    change Host.Outcome.next (replied 0x32 g (coreBind g u)) = _
    simp only [coreBind, open_]
    cases found : x.image (par g 0x20 1) with
    | none => rfl
    | some i =>
      dsimp only
      rw [replied_ite, replied_ite]
      refine congrArg Host.Outcome.next (ite_of_iff ?kind rfl (ite_of_iff ?range rfl rfl))
      case kind =>
        rw [Bool.not_eq_true', ← Bool.not_eq_true, Bool.and_eq_true, decide_eq_true_eq, beq_iff_eq]
      case range => rw [Bool.not_eq_true']

/-- `REPLAY_INTERMEDIATE` with every parameter in range puts the replay behind the queue (R308). -/
theorem coreReplay_of_params {s : State} {g : Go} {x : Sess} {i : Image} (open_ : s.session (s.mb g.mb).sess = some x)
    (loaded : x.image (par g 0x20 1) = some i) (unit : par g 0x22 2 < i.targetUnits (par g 0x21 1))
    (tick : par g 0x24 4 < i.stepTicks)
    (range : par g 0x30 8 + par g 0x38 8 ≤ i.targetSize (par g 0x21 1) (par g 0x22 2))
    (place : bitAt (par g 0x48 4) 0 = true → s.devRangeOk (some x) (par g 0x40 8) (par g 0x38 8) = true)
    (room : x.queue.length < 65536) :
    coreReplay g s = (.wait (.replay (s.mb g.mb).sess), s.setSess (s.mb g.mb).sess (fun x => { x with
      queue := x.queue ++ [{ image := par g 0x20 1, counter := par g 0x28 8, cookie := 0, replay := some {
        mb := g.mb, target := par g 0x21 1, unit := par g 0x22 2, tick := par g 0x24 4, offset := par g 0x30 8
        length := par g 0x38 8, dest := par g 0x40 8, devDest := bitAt (par g 0x48 4) 0 } }] })) := by
  have placed : (bitAt (par g 0x48 4) 0 && !s.devRangeOk (some x) (par g 0x40 8) (par g 0x38 8)) = false := by
    cases dev : bitAt (par g 0x48 4) 0 with
    | false => rfl
    | true => simp [place dev]
  simp only [coreReplay, open_, loaded, placed]
  rw [if_neg (by omega), if_neg (by omega), if_neg (by omega), if_neg (by decide), if_neg (by omega)]

/-- Settles O23: the queue of the session as each command leaves it. -/
theorem stepCommands : Obligations.StepCommands := by
  unfold Obligations.StepCommands
  refine ⟨?submit, ?cancel, ?replay⟩
  case submit =>
    intro s g x h u k n open_ some_ most
    have own : ownSubmit g u = (none, u) := by
      unfold ownSubmit
      dsimp only
      rw [badPar_true (by simp; omega)]
    have pair : u.pair = s.pair := State.received_pair s cmdSubmit g
    refine (icura_of_own_eq (coreSubmit g) h own pair).trans ?_
    change Host.Outcome.next (replied 0x40 g (coreSubmit g u)) = _
    simp only [coreSubmit, open_, replied_ite]
    refine congrArg Host.Outcome.next (ite_of_iff Iff.rfl rfl ?_)
    cases found : x.image (par g 0x20 1) with
    | none => rfl
    | some i =>
      rw [if_neg (Option.some_ne_none i)]
      change replied 0x40 g (match readEntries k (u.payload g) 0 n x.next with | .error j => _ | .ok (l, next) => _) = _
      cases readEntries k (u.payload g) 0 n x.next with
      | error j => rfl
      | ok r =>
        dsimp only
        rw [replied_ite]
        rfl
  case cancel =>
    intro s g x h u fl id hit open_
    refine (icura_plain (coreCancel g) (by decide) h).trans ?_
    change Host.Outcome.next (replied 0x41 g (coreCancel g u)) = _
    simp only [coreCancel, show u.session (u.mb g.mb).sess = some x from open_, replied_ite]
    refine congrArg Host.Outcome.next (ite_of_iff ?live rfl rfl)
    case live =>
      rw [Bool.and_eq_true]
      refine and_congr Iff.rfl ?_
      cases x.running with
      | none => simp
      | some run => simp
  case replay =>
    intro s g x i h u target unit len dev open_ loaded known pos most unitOk tick range place room
    have own : ownReplay g u = (none, u) := by
      unfold ownReplay
      rw [badPar_true (by simpa using known), badPar_true (by simp; omega)]
      rfl
    refine (icura_of_own_eq (coreReplay g) h own rfl).trans ?_
    change Host.Outcome.next (replied 0xD0 g (coreReplay g u)) = _
    rw [coreReplay_of_params open_ loaded unitOk tick range place room]
    rfl
end Sys2Proof.Machine
end

section
/-! PROOFS. The commands that load the fabric (O24) and those of a pair (O25, O26). -/

namespace Sys2Proof.Machine

theorem State.received_shadow {s : State} {c : Cmd} {g : Go} (h : s.passes c g) :
    (s.received c g).pair.shadow = false := by
  obtain ⟨⟨-, -, -, notShadow⟩, -⟩ := h
  rw [State.received_pair, notShadow]

/-- The judgement of a load's header by the session's regions, outside shadow service (R252, R253). -/
theorem ownFabric_of_region {s : State} {g : Go} {x : Sess} {full : Bool} (p : Option Nat)
    (open_ : s.session (s.mb g.mb).sess = some x) (alone : s.pair.shadow = false)
    (region : (if full then 0xFF else par g 0x20 1) < 64 ∨ (if full then 0xFF else par g 0x20 1) = 0xFF) :
    ownFabric full p g s =
      match s.judgeFabric (s.fabStream g) full (if full then 0xFF else par g 0x20 1) (some x.regions) with
      | .error f => (some f, s.rejectFabric (s.fabStream g))
      | .ok _ => (none, s) := by
  have named : (!(decide ((if full then 0xFF else par g 0x20 1) < 64) || (if full then 0xFF else par g 0x20 1) == 0xFF)) =
      false := by
    rcases region with h | h
    · simp [h]
    · simp [h]
  unfold ownFabric
  dsimp only
  rw [named, open_]
  simp only [alone]
  rfl

/-- A load past its checks: entered on its chains, or refused with what the judgement found. -/
theorem icura_fabric {s : State} {c : Cmd} {g : Go} {x : Sess} {full : Bool} (p : Option Nat) (h : s.passes c g)
    (open_ : (s.received c g).session ((s.received c g).mb g.mb).sess = some x)
    (region : (if full then 0xFF else par g 0x20 1) < 64 ∨ (if full then 0xFF else par g 0x20 1) = 0xFF) :
    let u := s.received c g
    let b := u.fabStream g
    icura c g (ownFabric full p g) (coreFabric full g) s = .next (
      match u.judgeFabric b full (if full then 0xFF else par g 0x20 1) (some x.regions) with
      | .error f => (u.rejectFabric b).postResult c.opcode g f.outcome
      | .ok key =>
        let (slot, v) := u.addLoad b (u.payFails g) key (some g.mb) (u.mb g.mb).sess
        v.answer c.opcode g (.wait (.load slot))) := by
  intro u b
  have own := ownFabric_of_region p open_ (State.received_shadow h) region
  have pair : u.pair = s.pair := State.received_pair s c g
  cases judged : u.judgeFabric b full (if full then 0xFF else par g 0x20 1) (some x.regions) with
  | error f =>
    rw [judged] at own
    exact icura_of_own_eq (coreFabric full g) h own pair
  | ok key =>
    rw [judged] at own
    refine (icura_of_own_eq (coreFabric full g) h own pair).trans ?_
    change Host.Outcome.next (replied c.opcode g (coreFabric full g u)) = _
    unfold coreFabric
    dsimp only
    rw [open_]
    dsimp only
    rw [judged]
    rfl

/-- Settles O24: the judgement of a load's header (`icura_fabric`). -/
theorem fabricCommands : Obligations.FabricCommands := by
  unfold Obligations.FabricCommands
  refine ⟨?full, ?region⟩
  case full =>
    intro s g p x h u b open_
    refine (icura_fabric (full := true) p h open_ (.inr rfl)).trans ?_
    refine congrArg Host.Outcome.next ?_
    change (match u.judgeFabric b true 0xFF (some x.regions) with | .error f => _ | .ok key => _) = _
    cases u.judgeFabric b true 0xFF (some x.regions) with
    | error f => rfl
    | ok key => rfl
  case region =>
    intro s g p x h u b r open_
    by_cases named : r < 64 ∨ r = 0xFF
    · rw [if_neg (not_not_intro named)]
      refine (icura_fabric (full := false) p h open_ named).trans ?_
      refine congrArg Host.Outcome.next ?_
      change (match u.judgeFabric b false r (some x.regions) with | .error f => _ | .ok key => _) = _
      cases u.judgeFabric b false r (some x.regions) with
      | error f => rfl
      | ok key => rfl
    · rw [if_pos named]
      have own : ownFabric false p g u = (badPar false 4 0x20, u) := by
        unfold ownFabric
        exact if_pos (by simpa using named)
      exact icura_of_own_eq (coreFabric false g) h own (State.received_pair s _ g)

/-- A check before others: its failure, or theirs. -/
theorem need_orElse (ok : Bool) (code detail : Nat) (r : Option Fail) :
    (need ok code detail <|> r) = if ok = false then some { code := code, detail := detail } else r := by
  cases ok <;> rfl

theorem need_eq (ok : Bool) (code detail : Nat) :
    need ok code detail = if ok = false then some { code := code, detail := detail } else none := by
  cases ok <;> rfl

/-- The checks of `PAIR_CONFIGURE`, in order (R310, R319). -/
theorem ownConfigure_eq (g : Go) (fit : PartnerFit) (s : State) : ownConfigure g fit s =
    (if 2 < par g 0x20 1 then some { code := 4, detail := detailOf 5 0x20 }
     else if 1 < par g 0x21 1 then some { code := 4, detail := detailOf 5 0x21 }
     else if ¬ (par g 0x24 4 = 0 ∨ (par g 0x20 1 = 2 ∧ par g 0x24 4 ≤ 3600000)) then
       some { code := 2, detail := detailOf 5 0x24 }
     else if s.pair.mode + par g 0x20 1 = 3 ∧ s.pair.mode ≠ 0 ∧ par g 0x20 1 ≠ 0 then some { code := 0xD }
     else if raw g 0x28 16 = s.deviceId then some { code := 0xD }
     else if par g 0x20 1 ≠ 0 ∧ s.namedBy fit = true ∧ s.fitsAs (par g 0x20 1) (raw g 0x28 16) fit = false then
       some { code := 0xD }
     else none, s) := by
  simp only [ownConfigure, badPar, need_orElse]
  rw [need_eq]
  refine congrArg (·, s) (ite_of_iff ?_ rfl (ite_of_iff ?_ rfl (ite_of_iff ?_ rfl (ite_of_iff ?_ rfl (ite_of_iff ?_ rfl
    (ite_of_iff ?_ rfl rfl))))))
  · simp
  · simp
  · simp
  · simp [and_assoc]
  · simp
  · simp [and_assoc]

/-- Settles O25: the checks in order (`ownConfigure_eq`), then each command's meaning. -/
theorem pairCommands : Obligations.PairCommands := by
  unfold Obligations.PairCommands
  refine ⟨?configure, ?promote, ?rejoin⟩
  case configure =>
    intro s g fit flashOk h u mode v w
    refine (icura_of_own (coreConfigure g fit flashOk) h (by rw [ownConfigure_eq])).trans ?_
    rw [ownConfigure_eq]
    refine congrArg Host.Outcome.next ?_
    have order {p : Prop} [Decidable p] (a b : Option Fail) :
        concluded cmdConfigure g (coreConfigure g fit flashOk) (if p then a else b, u) =
          if p then concluded cmdConfigure g (coreConfigure g fit flashOk) (a, u)
          else concluded cmdConfigure g (coreConfigure g fit flashOk) (b, u) :=
      apply_ite (fun f => concluded cmdConfigure g (coreConfigure g fit flashOk) (f, u)) p a b
    change concluded cmdConfigure g (coreConfigure g fit flashOk) (_, u) = _
    simp only [order]
    refine ite_of_iff Iff.rfl rfl (ite_of_iff Iff.rfl rfl (ite_of_iff Iff.rfl rfl (ite_of_iff Iff.rfl rfl
      (ite_of_iff Iff.rfl rfl (ite_of_iff Iff.rfl rfl ?_)))))
    change replied 0x60 g (coreConfigure g fit flashOk u) = _
    cases flashOk with
    | false => rfl
    | true => rfl
  case promote =>
    intro s g h
    refine (icura_plain corePromote (by decide) h).trans ?_
    obtain ⟨⟨-, -, -, notShadow⟩, -⟩ := h
    have alone : (s.accept 0x62 g).pair.shadow = false := notShadow
    change Host.Outcome.next (replied 0x62 g (corePromote (s.accept 0x62 g))) = _
    simp only [corePromote, alone]
    rfl
  case rejoin =>
    intro s g fit h u
    refine (icura_plain (coreRejoin fit) (by decide) h).trans ?_
    change Host.Outcome.next (replied 0x63 g (coreRejoin fit u)) = _
    simp only [coreRejoin, replied_ite]
    refine congrArg Host.Outcome.next (ite_of_iff ?_ rfl rfl)
    simp [and_assoc]

/-- Settles O26: the promotion is not ordered through the pair, and its count begins. -/
theorem promotionStarts : Obligations.PromotionStarts := by
  unfold Obligations.PromotionStarts
  intro s g wf accepts notLeft checked shadow role phase idle u
  have notOut := State.leftOut_of_not_left (s := u) cmdPromote g notLeft
  have own : (s.accept cmdPromote.opcode g).check cmdPromote g noCheck = (none, u) := by
    have notOut : (s.accept cmdPromote.opcode g).leftOut cmdPromote g = false := notOut
    have checked : (s.accept cmdPromote.opcode g).preCheck cmdPromote g = none := checked
    simp only [State.check, notOut, checked]
    rfl
  have core : corePromote u = (.wait .pairPromote, { u with pair := { u.pair with promoteIn := 2 } }) := by
    unfold corePromote
    exact if_pos (by simp [u, shadow, role, phase, idle])
  change Host.Outcome.next (s.runCmd cmdPromote g noCheck corePromote) = _
  rw [State.runCmd_of_accepts wf accepts, own]
  change Host.Outcome.next (replied 0x62 g (corePromote u)) = _
  rw [core]
  rfl
end Sys2Proof.Machine
end

section
/-! PROOFS. The commands on firmware, settings and units (O27, O28). -/

namespace Sys2Proof.Machine

theorem length_rdBytes (m : Mem) (a n : Nat) : (rdBytes m a n).length = n := by
  induction n generalizing a with
  | zero => rfl
  | succ n ih => simp [rdBytes, ih]

theorem length_zeroBytes (n : Nat) : (zeroBytes n).length = n := List.length_replicate

theorem length_fit (n : Nat) (l : List Byte) : (fit n l).length = n := by
  simp [fit, length_zeroBytes]; omega

theorem State.length_payload (s : State) (g : Go) : (s.payload g).length = g.payLen.toNat := by
  unfold State.payload
  split
  · exact length_rdBytes _ _ _
  · exact length_fit _ _

theorem orElse_eq_none_iff {α : Type} (a b : Option α) : (a <|> b) = none ↔ a = none ∧ b = none := by
  cases a <;> simp

/-- A command that passes keeps its own rule for the lengths of its fields (R285 item 4). -/
theorem State.form_of_passes {s : State} {c : Cmd} {g : Go} (h : s.passes c g) : c.form g = none := by
  obtain ⟨-, checked, -⟩ := h
  unfold State.preCheck at checked
  simp only [orElse_eq_none_iff] at checked
  exact checked.2.2.2.2.2.2.1

/-- The order of the checks on a firmware image (R421). -/
theorem State.fwFault_eq (s : State) (b : List Byte) (len : Nat) (signed : Bool) : s.fwFault b len signed =
    if fwKnown (fit 512 b) = false then some 0xA else if fwShaped (fit 512 b) len = false then some 2
    else if signed = false ∨ fwBodyOk b = false then some 9
    else if fwFresh (fit 512 b) s.rollback = false then some 9 else none := by
  unfold State.fwFault
  refine ite_of_iff ?_ rfl (ite_of_iff ?_ rfl (ite_of_iff ?_ rfl (ite_of_iff ?_ rfl rfl)))
  · simp
  · simp
  · simp
  · simp

/-- Settles O27: the checks on an image in order (`State.fwFault_eq`), then each command's meaning. -/
theorem firmwareAndSettings : Obligations.FirmwareAndSettings := by
  unfold Obligations.FirmwareAndSettings
  refine ⟨?stage, ?activate, ?settings⟩
  case stage =>
    intro s g signed flashOk h u b
    refine (icura_noCheck (coreFwStage g signed flashOk) h).trans ?_
    change Host.Outcome.next (replied 0x70 g (coreFwStage g signed flashOk u)) = _
    refine congrArg Host.Outcome.next ?_
    simp only [coreFwStage, State.fwFault_eq, b]
    by_cases unknown : fwKnown (fit 512 (u.payload g)) = false
    · rw [if_pos unknown, if_pos unknown]
      rfl
    by_cases misshapen : fwShaped (fit 512 (u.payload g)) g.payLen.toNat = false
    · rw [if_neg unknown, if_neg unknown, if_pos misshapen, if_pos misshapen]
      rfl
    by_cases forged : signed = false ∨ fwBodyOk (u.payload g) = false
    · rw [if_neg unknown, if_neg unknown, if_neg misshapen, if_neg misshapen, if_pos forged, if_pos forged]
      rfl
    by_cases stale : fwFresh (fit 512 (u.payload g)) u.rollback = false
    · rw [if_neg unknown, if_neg unknown, if_neg misshapen, if_neg misshapen, if_neg forged, if_neg forged,
        if_pos stale, if_pos stale]
      rfl
    · rw [if_neg unknown, if_neg unknown, if_neg misshapen, if_neg misshapen, if_neg forged, if_neg forged,
        if_neg stale, if_neg stale]
      cases flashOk <;> rfl
  case activate =>
    intro s g h u
    refine (icura_plain (coreFwActivate g) (by decide) h).trans ?_
    change Host.Outcome.next (replied 0x71 g (coreFwActivate g u)) = _
    unfold coreFwActivate
    cases u.flash.staged with
    | none => rfl
    | some i =>
      simp only [replied_ite]
      refine congrArg Host.Outcome.next (ite_of_iff Iff.rfl rfl (ite_of_iff Iff.rfl rfl (ite_of_iff ?_ rfl rfl)))
      simp
  case settings =>
    intro s g flashOk h u b
    refine (icura_noCheck (coreSettingsWrite g flashOk) h).trans ?_
    change Host.Outcome.next (replied 0x91 g (coreSettingsWrite g flashOk u)) = _
    have whole : ¬ b.length ≠ 8192 := by
      have rule : payRule (fun g => g.payLen == 8192) g = none := State.form_of_passes h
      have len : g.payLen = 8192 := by simpa [payRule, need] using rule
      rw [State.length_payload, len]
      decide
    refine congrArg Host.Outcome.next ?_
    simp only [coreSettingsWrite, State.writeSettings, b, if_neg whole]
    cases fieldFault (u.payload g) false with
    | some o => rfl
    | none =>
      simp only [Bool.and_eq_true, decide_eq_true_eq]
      by_cases held : fld (u.payload g) 0x10 2 ≠ u.tick.period ∧ u.imageLoaded = true
      · rw [if_pos held, if_pos held]
        rfl
      · rw [if_neg held, if_neg held]
        cases flashOk <;> rfl

/-- The checks of the commands on a unit: the kind, then the identifier (R314). -/
theorem ownUnit_eq (g : Go) (s : State) : ownUnit g s =
    (if 5 < par g 0x20 1 then some { code := 4, detail := detailOf 5 0x20 }
     else if unitId (par g 0x20 1) (par g 0x24 4) = false then some { code := 4, detail := detailOf 5 0x24 }
     else none, s) := by
  simp only [ownUnit, badPar, need_orElse]
  rw [need_eq]
  exact congrArg (·, s) (ite_of_iff (by simp) rfl (ite_of_iff (by simp) rfl rfl))

theorem ownUnit_none {g : Go} (s : State) (kind : par g 0x20 1 ≤ 5) (id : unitId (par g 0x20 1) (par g 0x24 4) = true) :
    ownUnit g s = (none, s) := by
  rw [ownUnit_eq, if_neg (by omega), id]
  rfl

theorem concluded_ite {p : Prop} [Decidable p] (c : Cmd) (g : Go) (core : State → Reply × State)
    (a b : Option Fail) (s : State) : concluded c g core (if p then a else b, s) =
      if p then concluded c g core (a, s) else concluded c g core (b, s) :=
  apply_ite (fun f => concluded c g core (f, s)) p a b

/-- Settles O28: the checks on the unit (`ownUnit_eq`), then each command's meaning. -/
theorem unitCommands : Obligations.UnitCommands := by
  unfold Obligations.UnitCommands
  refine ⟨?retire, ?restore, ?selfTest⟩
  case retire =>
    intro s g h u kind id
    refine (icura_of_own (coreRetire g) h (by rw [ownUnit_eq])).trans ?_
    rw [ownUnit_eq]
    refine congrArg Host.Outcome.next ?_
    change concluded cmdRetire g (coreRetire g) (_, u) = _
    simp only [concluded_ite]
    refine ite_of_iff Iff.rfl rfl (ite_of_iff Iff.rfl rfl ?_)
    change replied 0xB0 g (coreRetire g u) = _
    simp only [coreRetire, replied_ite, State.retirePc, State.pcsFull, decide_eq_true_eq]
    rfl
  case restore =>
    intro s g x h u kind id r f inKind inRange
    refine (icura_of_own_eq (coreRestore g x) h (ownUnit_none _ inKind inRange) rfl).trans ?_
    change Host.Outcome.next (replied 0xB1 g (coreRestore g x u)) = _
    refine congrArg Host.Outcome.next ?_
    simp only [coreRestore, replied_ite]
    refine ite_of_iff Iff.rfl rfl (ite_of_iff (by simp [kind, id]) rfl ?_)
    change (if (!u.unitOut kind id) = true then
      (if u.unitBusy kind id = true then u.fails 0xB1 g 7 else _) else if (!testPasses x kind id) = true then _ else _) = _
    cases out : u.unitOut kind id with
    | false => cases u.unitBusy kind id <;> rfl
    | true => cases testPasses x kind id <;> rfl
  case selfTest =>
    intro s g x h u kind id inKind inRange
    refine (icura_of_own_eq (coreSelfTest g x) h (ownUnit_none _ inKind inRange) rfl).trans ?_
    change Host.Outcome.next (replied 0xB2 g (coreSelfTest g x u)) = _
    simp only [coreSelfTest, replied_ite]
    rfl
end Sys2Proof.Machine
end

section
/-! PROOFS. Steps and their completion records (O32, O33). -/

namespace Sys2Proof.Machine

/-- What an access that need not wait leaves of memory: its bytes where the controllers serve, else nothing (R195). -/
theorem State.hostStore_mem (s : State) (a : Nat) (b : List Byte) :
    (s.hostStore a b).mem = if s.served a b.length = true then wrBytes s.mem a b else s.mem := by
  unfold State.hostStore
  split
  · rw [State.wrMem]
    simp
  · rfl

theorem State.devStore_mem (s : State) (a : Nat) (b : List Byte) (mb : Option Nat) : (s.devStore a b mb).mem =
    if s.holds a b.length = true then s.mem else if s.served a b.length = true then wrBytes s.mem a b else s.mem := by
  unfold State.devStore
  split
  · exact State.holdAccess_mem ..
  · exact State.hostStore_mem ..

theorem State.rdByte_devStore (s : State) {a : Nat} {b : List Byte} (mb : Option Nat) {x : Nat}
    (out : x < a ∨ a + b.length ≤ x) : rdByte (s.devStore a b mb).mem x = rdByte s.mem x := by
  rw [State.devStore_mem]
  repeat' split
  · rfl
  · exact rdByte_wrBytes_out b _ _ _ out
  · rfl

/-- Settles O33: a record is a device store at the producer's entry, then the index goes up and the events are raised. -/
theorem recordPlacement : Obligations.RecordPlacement := by
  unfold Obligations.RecordPlacement
  intro s x rec wf sess some dev len a t
  have ne : x.ring.entries ≠ 0 := by omega
  obtain ⟨bytes, hbytes⟩ : ∃ l, l = BitVec.ofNat 8 (1 - x.ring.prod / x.ring.entries % 2) :: rec.drop 1 := ⟨_, rfl⟩
  have size : bytes.length = 64 := by rw [hbytes, List.length_cons, List.length_drop, len]
  let u := s.devStore a bytes none
  have put : t = x.mbs.foldl (fun s n => s.setEvent n 1)
      (u.setSess x.id (fun x => { x with ring := { x.ring with prod := (x.ring.prod + 1) % 2 ^ 32 } })) := by
    simp only [t, u, a, State.putRecord, dev, if_neg ne, hbytes, if_true]
  have mem : t.mem = u.mem := by
    rw [put, foldl_keeps State.mem _ (fun s n => State.setEvent_mem s n 1)]
    rfl
  have sess' : t.sess = (u.setSess x.id
      (fun x => { x with ring := { x.ring with prod := (x.ring.prod + 1) % 2 ^ 32 } })).sess := by
    rw [put, foldl_keeps State.sess _ (fun s n => State.setEvent_sess s n 1)]
  refine ⟨?stored, ?outside, ?index⟩
  case stored =>
    intro free served
    have made : u.mem = wrBytes s.mem a bytes := by
      rw [State.devStore_mem, size, if_neg (by simp [State.holds, free]), if_pos served]
    rw [State.rdMem, mem, made, ← hbytes, ← size]
    exact rdBytes_wrBytes bytes s.mem a wf
  case outside =>
    intro b out
    rw [mem]
    exact State.rdByte_devStore s none (by rw [size]; exact out)
  case index =>
    have found : u.session x.id = Option.some x := by
      rw [State.session, State.devStore_sess]
      exact sess
    have moved := State.session_setSess_self u x.id
      (f := fun x => { x with ring := { x.ring with prod := (x.ring.prod + 1) % 2 ^ 32 } }) fun _ => rfl
    rw [found] at moved
    refine ⟨{ x with ring := { x.ring with prod := (x.ring.prod + 1) % 2 ^ 32 } }, ?_, rfl, rfl⟩
    rw [State.session, sess']
    exact moved

/-- Settles O32: each event's definition on the session's item. -/
theorem steps : Obligations.Steps := by
  unfold Obligations.Steps
  refine ⟨?start, ?complete, ?replay, ?waiting⟩
  case start =>
    intro s id x q rest boundary sess queue may plain
    change execStepStart id s = _
    unfold execStepStart
    rw [if_pos boundary, sess]
    simp only [queue, may, if_true]
    refine congrArg Host.Outcome.next ?_
    unfold State.startItem State.refuseStart
    simp only [plain]
    rfl
  case complete =>
    intro s id x run c sess running finish plain u v
    change execStepComplete id s = _
    unfold execStepComplete
    simp only [sess, running, finish]
    refine congrArg Host.Outcome.next ?_
    unfold State.completeRun State.dropImage
    simp only [plain]
    refine ite_of_iff ?_ rfl rfl
    simp
  case replay =>
    intro s id x run rp c sess running finish isReplay notFold u b src
    change execStepComplete id s = _
    unfold execStepComplete
    simp only [sess, running, finish]
    refine congrArg Host.Outcome.next ?_
    unfold State.completeRun State.dropImage
    simp only [isReplay]
    rw [if_neg (by simp [notFold])]
    unfold State.endRun
    refine ite_of_iff Iff.rfl rfl (ite_of_iff (by simp [b, u, src]) rfl ?_)
    simp only [Bool.and_eq_true, beq_iff_eq]
    rfl
  case waiting =>
    intro s id x rec more sess waiting free reach
    change execCompletionRecordWrite id s = _
    unfold execCompletionRecordWrite
    simp only [sess, waiting, free, reach]
    rfl
end Sys2Proof.Machine
end

section
/-! PROOFS. What a state operation leaves alone (`Only`), and tick boundaries (O31). -/

namespace Sys2Proof.Machine

/-- The parts of a state, by the names of its fields. -/
inductive Piece where
  | pending | free | dev | flash | log | health | mbx | sess | tick | units | regions | tiles | bufs | eng | mem | ctl
  | mpk | fab | fcfg | loads | cxl | strait | ftx | pair | clk | pwr | sec | out | flagCnt | latch
  deriving DecidableEq

/-- Two states have a part the same. -/
def Piece.same : Piece → State → State → Prop
  | pending, s, t => t.pending = s.pending
  | free, s, t => t.free = s.free
  | dev, s, t => t.dev = s.dev
  | flash, s, t => t.flash = s.flash
  | log, s, t => t.log = s.log
  | health, s, t => t.health = s.health
  | mbx, s, t => t.mbx = s.mbx
  | sess, s, t => t.sess = s.sess
  | tick, s, t => t.tick = s.tick
  | units, s, t => t.units = s.units
  | regions, s, t => t.regions = s.regions
  | tiles, s, t => t.tiles = s.tiles
  | bufs, s, t => t.bufs = s.bufs
  | eng, s, t => t.eng = s.eng
  | mem, s, t => t.mem = s.mem
  | ctl, s, t => t.ctl = s.ctl
  | mpk, s, t => t.mpk = s.mpk
  | fab, s, t => t.fab = s.fab
  | fcfg, s, t => t.fcfg = s.fcfg
  | loads, s, t => t.loads = s.loads
  | cxl, s, t => t.cxl = s.cxl
  | strait, s, t => t.strait = s.strait
  | ftx, s, t => t.ftx = s.ftx
  | pair, s, t => t.pair = s.pair
  | clk, s, t => t.clk = s.clk
  | pwr, s, t => t.pwr = s.pwr
  | sec, s, t => t.sec = s.sec
  | out, s, t => t.out = s.out
  | flagCnt, s, t => t.flagCnt = s.flagCnt
  | latch, s, t => t.latch = s.latch

/-- Going from `s` to `t` changes no part but those listed. -/
def Only (l : List Piece) (s t : State) : Prop := ∀ p, p ∉ l → p.same s t

/-- Every part of one list is in the other. -/
def within (k l : List Piece) : Bool := k.all fun p => l.contains p

section
variable {l : List Piece} {s t u : State}

/-- A part that is not listed is the same. -/
theorem Only.frame (h : Only l s t) (p : Piece) (free : l.contains p = false) : p.same s t :=
  h p (by simpa using free)

theorem Piece.same_refl (p : Piece) (s : State) : p.same s s := by cases p <;> rfl

theorem Piece.same_trans {p : Piece} (a : p.same s t) (b : p.same t u) : p.same s u := by
  cases p <;> exact Eq.trans b a

theorem Only.refl (s : State) : Only l s s := fun p _ => p.same_refl s

theorem Only.then {k : List Piece} (h : Only l s t) (g : Only k t u) (sub : within k l = true) : Only l s u :=
  fun p hp => Piece.same_trans (h p hp) (g p fun m => hp (by
    simpa using List.all_eq_true.mp sub p m))

theorem Only.ite {c : Prop} [Decidable c] {a b : State} (ha : Only l s a) (hb : Only l s b) :
    Only l s (if c then a else b) := by
  split
  · exact ha
  · exact hb

theorem Only.ite2 {α : Type} {c : Prop} [Decidable c] {a b : α × State} (ha : Only l s a.2) (hb : Only l s b.2) :
    Only l s (if c then a else b).2 := by
  split
  · exact ha
  · exact hb

/-- A state that is changed further under a condition. -/
theorem Only.when {c : Prop} [Decidable c] {a b : State} (hb : Only l s b) (ha : Only l s b → Only l s a) :
    Only l s (if c then a else b) := .ite (ha hb) hb

theorem Only.unless {c : Prop} [Decidable c] {a b : State} (ha : Only l s a) (hb : Only l s a → Only l s b) :
    Only l s (if c then a else b) := .ite ha (hb ha)

theorem Only.foldl {α : Type} {f : State → α → State} {xs : List α} (h : Only l s t)
    (hf : ∀ u a, Only l s u → Only l s (f u a)) : Only l s (xs.foldl f t) := by
  induction xs generalizing t with
  | nil => exact h
  | cons a r ih => exact ih (hf t a h)

theorem Only.of_one {p : Piece} (h : Only l s t) (sub : within [p] l = true) (same : ∀ q, q ≠ p → q.same t u) :
    Only l s u :=
  h.then (k := [p]) (fun q hq => same q fun e => hq (List.mem_singleton.mpr e)) sub

theorem Only.withFree {x : Nat} (h : Only l s t) (sub : within [.free] l = true) : Only l s { t with free := x } :=
  h.of_one sub fun q ne => by cases q <;> trivial

theorem Only.withDev {x : Dev} (h : Only l s t) (sub : within [.dev] l = true) : Only l s { t with dev := x } :=
  h.of_one sub fun q ne => by cases q <;> trivial

theorem Only.withLog {x : EventLog} (h : Only l s t) (sub : within [.log] l = true) : Only l s { t with log := x } :=
  h.of_one sub fun q ne => by cases q <;> trivial

theorem Only.withMbx {x : Tab Mailbox} (h : Only l s t) (sub : within [.mbx] l = true) : Only l s { t with mbx := x } :=
  h.of_one sub fun q ne => by cases q <;> trivial

theorem Only.withSess {x : List Sess} (h : Only l s t) (sub : within [.sess] l = true) : Only l s { t with sess := x } :=
  h.of_one sub fun q ne => by cases q <;> trivial

theorem Only.withTick {x : Tick} (h : Only l s t) (sub : within [.tick] l = true) : Only l s { t with tick := x } :=
  h.of_one sub fun q ne => by cases q <;> trivial

theorem Only.withUnits {x : Units} (h : Only l s t) (sub : within [.units] l = true) : Only l s { t with units := x } :=
  h.of_one sub fun q ne => by cases q <;> trivial

theorem Only.withRegions {x : Tab Region} (h : Only l s t) (sub : within [.regions] l = true) : Only l s { t with regions := x } :=
  h.of_one sub fun q ne => by cases q <;> trivial

theorem Only.withTiles {x : Tab Tile} (h : Only l s t) (sub : within [.tiles] l = true) : Only l s { t with tiles := x } :=
  h.of_one sub fun q ne => by cases q <;> trivial

theorem Only.withBufs {x : Tab ClusterBuf} (h : Only l s t) (sub : within [.bufs] l = true) : Only l s { t with bufs := x } :=
  h.of_one sub fun q ne => by cases q <;> trivial

theorem Only.withEng {x : Tab Engine} (h : Only l s t) (sub : within [.eng] l = true) : Only l s { t with eng := x } :=
  h.of_one sub fun q ne => by cases q <;> trivial

theorem Only.withMem {x : Mem} (h : Only l s t) (sub : within [.mem] l = true) : Only l s { t with mem := x } :=
  h.of_one sub fun q ne => by cases q <;> trivial

theorem Only.withCtl {x : Tab MemCtl} (h : Only l s t) (sub : within [.ctl] l = true) : Only l s { t with ctl := x } :=
  h.of_one sub fun q ne => by cases q <;> trivial

theorem Only.withMpk {x : MemPkg} (h : Only l s t) (sub : within [.mpk] l = true) : Only l s { t with mpk := x } :=
  h.of_one sub fun q ne => by cases q <;> trivial

theorem Only.withFab {x : Tab FabRegion} (h : Only l s t) (sub : within [.fab] l = true) : Only l s { t with fab := x } :=
  h.of_one sub fun q ne => by cases q <;> trivial

theorem Only.withFcfg {x : FabCfg} (h : Only l s t) (sub : within [.fcfg] l = true) : Only l s { t with fcfg := x } :=
  h.of_one sub fun q ne => by cases q <;> trivial

theorem Only.withLoads {x : List Load} (h : Only l s t) (sub : within [.loads] l = true) : Only l s { t with loads := x } :=
  h.of_one sub fun q ne => by cases q <;> trivial

theorem Only.withCxl {x : CxlPort} (h : Only l s t) (sub : within [.cxl] l = true) : Only l s { t with cxl := x } :=
  h.of_one sub fun q ne => by cases q <;> trivial

theorem Only.withStrait {x : StraitLink} (h : Only l s t) (sub : within [.strait] l = true) : Only l s { t with strait := x } :=
  h.of_one sub fun q ne => by cases q <;> trivial

theorem Only.withFtx {x : Tab FabLane} (h : Only l s t) (sub : within [.ftx] l = true) : Only l s { t with ftx := x } :=
  h.of_one sub fun q ne => by cases q <;> trivial

theorem Only.withPair {x : Pair} (h : Only l s t) (sub : within [.pair] l = true) : Only l s { t with pair := x } :=
  h.of_one sub fun q ne => by cases q <;> trivial

theorem Only.withClk {x : Clk} (h : Only l s t) (sub : within [.clk] l = true) : Only l s { t with clk := x } :=
  h.of_one sub fun q ne => by cases q <;> trivial

theorem Only.withPwr {x : Pwr} (h : Only l s t) (sub : within [.pwr] l = true) : Only l s { t with pwr := x } :=
  h.of_one sub fun q ne => by cases q <;> trivial

theorem Only.withSec {x : Sec} (h : Only l s t) (sub : within [.sec] l = true) : Only l s { t with sec := x } :=
  h.of_one sub fun q ne => by cases q <;> trivial

theorem Only.withOut {x : Outputs} (h : Only l s t) (sub : within [.out] l = true) : Only l s { t with out := x } :=
  h.of_one sub fun q ne => by cases q <;> trivial

theorem Only.withFlagCnt {x : Tab Nat} (h : Only l s t) (sub : within [.flagCnt] l = true) : Only l s { t with flagCnt := x } :=
  h.of_one sub fun q ne => by cases q <;> trivial

/-- The parts in which a register's flags lie. -/
def Reg.pieces : Reg → List Piece
  | .devStatus => [.dev]
  | .tickStatus => [.tick]
  | .clkStatus => [.clk]
  | .pwrStatus | .railStatus => [.pwr]
  | .strmLate _ | .strmStatus _ _ | .strmErr _ _ => [.eng]
  | .arrStatus _ | .arrOvf _ | .seqStatus _ | .seqErr _ => [.tiles]
  | .memStatus _ => [.ctl]
  | .rtStatus | .memPkg => [.mpk]
  | .fabStatus _ | .portErr _ _ | .cpErr _ => [.fab]
  | .cfg | .cfgFail => [.fcfg]
  | .cxlStatus => [.cxl]
  | .strStatus | .strLane _ => [.strait]
  | .ftxStatus _ => [.ftx]
  | .pairState => [.pair]
  | .secStatus => [.sec]
  | .mbStatus _ | .evPend _ => [.mbx]
  | _ => []

theorem Only.putFlags {g : Reg} {w : Word} (h : Only l s t) (sub : within g.pieces l = true) :
    Only l s (t.putFlags g w) := by
  refine h.then (k := g.pieces) ?_ sub
  cases g
  case devStatus => exact .withDev (.refl t) rfl
  case tickStatus => exact .withTick (.refl t) rfl
  case clkStatus => exact .withClk (.refl t) rfl
  case pwrStatus | railStatus => exact .withPwr (.refl t) rfl
  case strmLate | strmStatus | strmErr => exact .withEng (.refl t) rfl
  case arrStatus | arrOvf | seqStatus | seqErr => exact .withTiles (.refl t) rfl
  case memStatus => exact .withCtl (.refl t) rfl
  case rtStatus | memPkg => exact .withMpk (.refl t) rfl
  case fabStatus | portErr | cpErr => exact .withFab (.refl t) rfl
  case cfg | cfgFail => exact .withFcfg (.refl t) rfl
  case cxlStatus => exact .withCxl (.refl t) rfl
  case strStatus | strLane => exact .withStrait (.refl t) rfl
  case ftxStatus => exact .withFtx (.refl t) rfl
  case pairState => exact .withPair (.refl t) rfl
  case secStatus => exact .withSec (.refl t) rfl
  case mbStatus | evPend => exact .withMbx (.refl t) rfl
  all_goals exact .refl t

theorem Only.raise {g : Reg} {m : Word} (h : Only l s t) (sub : within (.flagCnt :: g.pieces) l = true) :
    Only l s (t.raise g m) :=
  h.then (k := .flagCnt :: g.pieces) (.withFlagCnt (.putFlags (.refl t) (List.all_eq_true.mpr fun _ h => List.contains_iff_mem.mpr (.tail _ h))) (by simp [within])) sub

theorem Only.setSess {id : Nat} {f : Sess → Sess} (h : Only l s t) (sub : within [.sess] l = true) :
    Only l s (t.setSess id f) := h.withSess sub

theorem Only.setRun {id : Nat} {f : Run → Run} (h : Only l s t) (sub : within [.sess] l = true) :
    Only l s (t.setRun id f) := h.withSess sub

theorem Only.stopStep {id code : Nat} (h : Only l s t) (sub : within [.sess] l = true) :
    Only l s (t.stopStep id code) := h.withSess sub

theorem Only.setMb {n : Nat} {f : Mailbox → Mailbox} (h : Only l s t) (sub : within [.mbx] l = true) :
    Only l s (t.setMb n f) := h.withMbx sub

theorem Only.finishBusy {n : Nat} {o : Outcome} (h : Only l s t) (sub : within [.mbx] l = true) :
    Only l s (t.finishBusy n o) := h.withMbx sub

theorem Only.note {k : LogKind} {source id : Nat} {data : List Byte} (h : Only l s t) (sub : within [.log] l = true) :
    Only l s (t.note k source id data) := h.withLog sub

theorem Only.setFab {r : Nat} {f : FabRegion → FabRegion} (h : Only l s t) (sub : within [.fab] l = true) :
    Only l s (t.setFab r f) := h.withFab sub

theorem Only.setPort {r p : Nat} {f : Port → Port} (h : Only l s t) (sub : within [.fab] l = true) :
    Only l s (t.setPort r p f) := h.withFab sub

theorem Only.setLane {n : Nat} {f : FabLane → FabLane} (h : Only l s t) (sub : within [.ftx] l = true) :
    Only l s (t.setLane n f) := h.withFtx sub

theorem Only.setStrLane {n : Nat} {f : StrLane → StrLane} (h : Only l s t) (sub : within [.strait] l = true) :
    Only l s (t.setStrLane n f) := h.withStrait sub

theorem Only.setCtl {n : Nat} {f : MemCtl → MemCtl} (h : Only l s t) (sub : within [.ctl] l = true) :
    Only l s (t.setCtl n f) := h.withCtl sub

theorem Only.setRegion {r : Nat} {f : Region → Region} (h : Only l s t) (sub : within [.regions] l = true) :
    Only l s (t.setRegion r f) := h.withRegions sub

theorem Only.setLoad {slot : Nat} {f : Load → Load} (h : Only l s t) (sub : within [.loads] l = true) :
    Only l s (t.setLoad slot f) := h.withLoads sub

theorem Only.setStream {r n : Nat} {f : Stream → Stream} (h : Only l s t) (sub : within [.eng] l = true) :
    Only l s (t.setStream r n f) := h.withEng sub

theorem Only.placeTile {x : Sess} {run : Run} {n : Nat} (h : Only l s t) (sub : within [.tiles] l = true) :
    Only l s (t.placeTile x run n) := h.withTiles sub

theorem Only.putTile {i : Nat} {x : Tile} (h : Only l s t) (sub : within [.tiles] l = true) :
    Only l s (t.putTile i x) := h.withTiles sub

theorem Only.runTile {i : Nat} {f : Tile → Tile} (h : Only l s t) (sub : within [.tiles, .flagCnt] l = true) :
    Only l s (t.runTile i f) := h.then (k := [.tiles, .flagCnt]) (.withFlagCnt (.withTiles (.refl t) rfl) rfl) sub

theorem Only.release {p : WaitFor → Bool} {f : Outcome → Outcome} (h : Only l s t) (sub : within [.mbx] l = true) :
    Only l s (t.release p f) := by
  unfold State.release
  exact h.foldl fun u n h => by
    split
    · exact h.finishBusy sub
    · exact h

theorem Only.endIf {id : Nat} {finish : Option Nat} {cancelled : Bool} (h : Only l s t)
    (sub : within [.sess, .mbx] l = true) : Only l s (t.endIf id finish cancelled) := by
  refine h.then (k := [.sess, .mbx]) ?_ sub
  unfold State.endIf
  cases finish with
  | none => exact .refl t
  | some c => exact .release (.setRun (.refl t) rfl) rfl

theorem Only.tileBytes {slot off len : Nat} (h : Only l s t) (sub : within [.free] l = true) :
    Only l s (t.tileBytes slot off len).2 := by
  unfold State.tileBytes
  exact .ite2 h (h.withFree sub)

theorem Only.snapTile {run : Run} (h : Only l s t) (sub : within [.free] l = true) : Only l s (t.snapTile run).2 := by
  unfold State.snapTile
  cases run.item.replay with
  | none => exact h
  | some rp => exact .ite2 (h.tileBytes sub) h

theorem Only.logDigests {x : Sess} {i : Image} {run : Run} {digests : List DWord} {n : Nat} (h : Only l s t)
    (sub : within [.log] l = true) : Only l s (t.logDigests x i run digests n) := by
  unfold State.logDigests
  exact .ite (h.foldl fun _ _ h => h.note sub) h

theorem Only.advance {x : Sess} {run : Run} (h : Only l s t)
    (sub : within [.free, .bufs, .log, .sess, .mbx] l = true) : Only l s (t.advance x run) := by
  refine h.then (k := [.free, .bufs, .log, .sess, .mbx]) ?_ sub
  have snap : Only [.free, .bufs, .log, .sess, .mbx] t (t.snapTile run).2 := .snapTile (.refl t) rfl
  unfold State.advance
  exact .endIf (.setRun (.when (.when snap fun h => h.withBufs rfl) fun h => h.logDigests rfl) rfl) rfl

theorem Only.forward {i : Input} (h : Only l s t) (sub : within [.pair] l = true) : Only l s (t.forward i) := by
  unfold State.forward
  exact .ite (h.withPair sub) h

theorem Only.decideLoads (h : Only l s t) (sub : within [.loads, .pair] l = true) : Only l s t.decideLoads := by
  refine h.then (k := [.loads, .pair]) ?_ sub
  unfold State.decideLoads
  exact .ite (.foldl (.refl t) fun _ _ h => .ite (.forward (.setLoad h rfl) rfl) h) (.refl t)

theorem Only.settle (h : Only l s t)
    (sub : within [.free, .bufs, .log, .sess, .mbx, .tick, .loads, .pair] l = true) : Only l s t.settle := by
  refine h.then (k := [.free, .bufs, .log, .sess, .mbx, .tick, .loads, .pair]) ?_ sub
  unfold State.settle
  exact .decideLoads (.withTick (.foldl (.refl t) fun _ _ h => h.advance rfl) rfl) rfl

theorem Only.maybeClose (h : Only l s t)
    (sub : within [.free, .bufs, .log, .sess, .mbx, .tick, .loads, .pair] l = true) : Only l s t.maybeClose := by
  refine h.then (k := [.free, .bufs, .log, .sess, .mbx, .tick, .loads, .pair]) ?_ sub
  unfold State.maybeClose State.closeTick
  exact .ite (.unless (.withTick (.refl t) rfl) fun h => h.settle rfl) (.refl t)

theorem Only.withPairOut {x : Pair} {y : Outputs} (h : Only l s t) (sub : within [.pair, .out] l = true) :
    Only l s { t with pair := x, out := y } :=
  h.then (k := [.pair, .out]) (.withPair (x := x) (.withOut (x := y) (.refl t) rfl) rfl) sub

theorem Only.sendPair (h : Only l s t) (sub : within [.pair, .out] l = true) : Only l s t.sendPair := by
  refine h.then (k := [.pair, .out]) ?_ sub
  unfold State.sendPair
  exact .ite (.withPairOut (.refl t) rfl) (.refl t)

theorem Only.tellDone (h : Only l s t) (sub : within [.pair, .out] l = true) : Only l s t.tellDone := by
  refine h.then (k := [.pair, .out]) ?_ sub
  unfold State.tellDone
  exact .ite (.sendPair (.withPair (.refl t) rfl) rfl) (.refl t)

theorem Only.countOverrun {i : Nat} (h : Only l s t) (sub : within [.units] l = true) : Only l s (t.countOverrun i) := by
  unfold State.countOverrun
  exact .unless ((h.withUnits sub).withUnits sub) fun _ => h.withUnits sub

theorem Only.streamErr {r n : Nat} {m : Word} {pos : Nat} (h : Only l s t) (sub : within [.eng, .flagCnt] l = true) :
    Only l s (t.streamErr r n m pos) := by
  refine h.then (k := [.eng, .flagCnt]) ?_ sub
  unfold State.streamErr
  exact .raise (.when (.refl t) fun h => h.setStream rfl) rfl

theorem Only.arm {r n : Nat} {g : Ring} (h : Only l s t) (sub : within [.eng, .sess, .flagCnt] l = true) :
    Only l s (t.arm r n g) := by
  refine h.then (k := [.eng, .sess, .flagCnt]) ?_ sub
  unfold State.arm
  exact .ite (.refl t) (.ite (.setStream (.refl t) rfl) (.ite (.setStream (.refl t) rfl)
    (.stopStep (.setStream (.streamErr (.refl t) rfl) rfl) rfl)))

theorem Only.noticeRelease (h : Only l s t) (sub : within [.sess, .tiles, .flagCnt] l = true) :
    Only l s t.noticeRelease := by
  refine h.then (k := [.sess, .tiles, .flagCnt]) ?_ sub
  unfold State.noticeRelease
  exact .foldl (.refl t) fun u x h => .ite h (.setSess (.foldl h fun _ _ h => .foldl h fun _ _ h => h.runTile rfl) rfl)

theorem Only.setEvent {n bit : Nat} (h : Only l s t) (sub : within [.mbx, .flagCnt, .out] l = true) :
    Only l s (t.setEvent n bit) := by
  refine h.then (k := [.mbx, .flagCnt, .out]) ?_ sub
  have raised : Only [.mbx, .flagCnt, .out] t (t.raise (.evPend n) (bitW bit true)) := .raise (.refl t) rfl
  unfold State.setEvent State.raiseVector
  exact .when raised fun h => .ite (h.withOut rfl) (h.withOut rfl)

theorem Only.devStore {a : Nat} {b : List Byte} {mb : Option Nat} (h : Only l s t)
    (sub : within [.ctl, .mem, .mpk, .cxl, .pair] l = true) : Only l s (t.devStore a b mb) := by
  refine h.then (k := [.ctl, .mem, .mpk, .cxl, .pair]) (fun p hp => ?_) sub
  cases p
  case ctl | mem | mpk | cxl | pair => exact absurd (by decide) hp
  all_goals simp [Piece.same]

theorem Only.placeOutput {g : Go} {o : Outcome} (h : Only l s t)
    (sub : within [.mbx, .ctl, .mem, .mpk, .cxl, .pair, .out] l = true) : Only l s (t.placeOutput g o).2 := by
  refine h.then (k := [.mbx, .ctl, .mem, .mpk, .cxl, .pair, .out]) ?_ sub
  unfold State.placeOutput State.putOutput
  exact .ite2 (.refl t) (.ite2 (.refl t) (.ite (.setMb (.refl t) rfl) (.ite (.devStore (.refl t) rfl)
    (.withOut (.refl t) rfl))))

theorem Only.postStatus {opcode : Nat} {g : Go} {o : Outcome} (h : Only l s t)
    (sub : within [.mbx, .flagCnt, .out] l = true) : Only l s (t.postStatus opcode g o) :=
  h.then (k := [.mbx, .flagCnt, .out]) (.setEvent (.setMb (.refl t) rfl) rfl) sub

theorem Only.postResult {opcode : Nat} {g : Go} {o : Outcome} (h : Only l s t)
    (sub : within [.mbx, .ctl, .mem, .mpk, .cxl, .pair, .out, .flagCnt] l = true) :
    Only l s (t.postResult opcode g o) := by
  refine h.then (k := [.mbx, .ctl, .mem, .mpk, .cxl, .pair, .out, .flagCnt]) ?_ sub
  have placed : Only [.mbx, .ctl, .mem, .mpk, .cxl, .pair, .out, .flagCnt] t (t.placeOutput g o).2 :=
    .placeOutput (.refl t) rfl
  unfold State.postResult State.postPlaced
  exact .ite (placed.setMb rfl) (placed.postStatus rfl)

theorem Only.runDesign {r : Nat} (h : Only l s t) (sub : within [.fab] l = true) : Only l s (t.runDesign r) := by
  unfold State.runDesign
  exact .ite (h.setFab sub) h

theorem Only.isolate {r : Nat} (h : Only l s t) (sub : within [.fab, .flagCnt, .ftx] l = true) :
    Only l s (t.isolate r) := by
  refine h.then (k := [.fab, .flagCnt, .ftx]) ?_ sub
  unfold State.isolate
  dsimp only
  exact .when (.when (.setFab (.setFab (.foldl (.ite (.refl t) (.runDesign (.refl t) rfl)) fun _ _ h => h.setPort rfl) rfl)
    rfl) fun h => h.raise rfl) fun h => h.setLane rfl

theorem Only.beginClear {r : Nat} (h : Only l s t) (sub : within [.fab, .flagCnt, .ftx] l = true) :
    Only l s (t.beginClear r) := h.then (k := [.fab, .flagCnt, .ftx]) (.setFab (.isolate (.refl t) rfl) rfl) sub

theorem Only.recordFail {cause region seg : Nat} (h : Only l s t) (sub : within [.fcfg, .flagCnt] l = true) :
    Only l s (t.recordFail cause region seg) := by
  refine h.then (k := [.fcfg, .flagCnt]) ?_ sub
  unfold State.recordFail
  exact .ite (.raise (.refl t) rfl) (.raise (.withFcfg (.refl t) rfl) rfl)

theorem Only.failLoad {slot bit cause region seg code : Nat} (h : Only l s t)
    (sub : within [.fcfg, .flagCnt, .loads, .fab, .ftx] l = true) :
    Only l s (t.failLoad slot bit cause region seg code) := by
  refine h.then (k := [.fcfg, .flagCnt, .loads, .fab, .ftx]) ?_ sub
  unfold State.failLoad
  split
  · exact .refl t
  · exact .foldl (.setLoad (.recordFail (.raise (.refl t) rfl) rfl) rfl) fun _ _ h => .ite h (h.beginClear rfl)

theorem Only.endLoads (h : Only l s t) (sub : within [.loads, .mbx, .fcfg, .log] l = true) : Only l s t.endLoads := by
  refine h.then (k := [.loads, .mbx, .fcfg, .log]) ?_ sub
  unfold State.endLoads
  exact .foldl (.withLoads (.refl t) rfl) fun _ _ h => by
    split
    · exact h.finishBusy rfl
    · exact .note (h.withFcfg rfl) rfl

theorem Only.abortLoads {hit : Load → Bool} (h : Only l s t)
    (sub : within [.fcfg, .flagCnt, .loads, .fab, .ftx, .mbx, .log] l = true) : Only l s (t.abortLoads hit) := by
  refine h.then (k := [.fcfg, .flagCnt, .loads, .fab, .ftx, .mbx, .log]) ?_ sub
  unfold State.abortLoads
  exact .endLoads (.foldl (.refl t) fun _ _ h => .ite (.ite (h.failLoad rfl) (h.setLoad rfl)) h) rfl

theorem Only.markEmerg {hit : Bool} (h : Only l s t) (sub : within [.tick, .flagCnt] l = true) :
    Only l s (t.markEmerg hit) := by
  refine h.then (k := [.tick, .flagCnt]) ?_ sub
  unfold State.markEmerg
  exact .ite (.raise (.withTick (.refl t) rfl) rfl) (.refl t)

theorem Only.dropWork {r : Nat} (h : Only l s t) (sub : within [.tick, .flagCnt, .tiles, .eng] l = true) :
    Only l s (t.dropWork r) := by
  refine h.then (k := [.tick, .flagCnt, .tiles, .eng]) ?_ sub
  unfold State.dropWork
  exact .foldl (.foldl (.markEmerg (.refl t) rfl) fun _ _ h => h.runTile rfl) fun _ _ h => h.setStream rfl

theorem Only.changeover {r : Nat} (h : Only l s t)
    (sub : within [.tick, .flagCnt, .tiles, .eng, .bufs, .regions] l = true) : Only l s (t.changeover r) := by
  refine h.then (k := [.tick, .flagCnt, .tiles, .eng, .bufs, .regions]) ?_ sub
  unfold State.changeover
  exact .setRegion (.withEng (.withBufs (.foldl (.dropWork (.refl t) rfl) fun _ _ h => h.putTile rfl) rfl) rfl) rfl

theorem Only.dropSession {id : Nat} (h : Only l s t)
    (sub : within [.mbx, .ctl, .mem, .mpk, .cxl, .pair, .out, .flagCnt, .sess] l = true) :
    Only l s (t.dropSession id) := by
  refine h.then (k := [.mbx, .ctl, .mem, .mpk, .cxl, .pair, .out, .flagCnt, .sess]) ?_ sub
  unfold State.dropSession State.freeMailboxesOf
  split
  · exact .refl t
  · exact .foldl (.withSess (.foldl (.refl t) fun _ _ h => by
      split
      · exact .ite (h.postResult rfl) h
      · exact h) rfl) fun _ _ h => h.setMb rfl

theorem Only.endCloses (h : Only l s t)
    (sub : within [.mbx, .ctl, .mem, .mpk, .cxl, .pair, .out, .flagCnt, .sess] l = true) : Only l s t.endCloses := by
  refine h.then (k := [.mbx, .ctl, .mem, .mpk, .cxl, .pair, .out, .flagCnt, .sess]) ?_ sub
  unfold State.endCloses
  exact .foldl (.refl t) fun _ _ h => .ite (by
    split
    · exact .ite h (h.dropSession rfl)
    · exact h.release rfl) h

theorem Only.noteStretch {late : Nat} (h : Only l s t) (sub : within [.tick, .flagCnt, .regions] l = true) :
    Only l s (t.noteStretch late) := by
  refine h.then (k := [.tick, .flagCnt, .regions]) ?_ sub
  unfold State.noteStretch
  exact .ite (.refl t) (.foldl (.withTick (.unless (.refl t) fun h => h.raise rfl) rfl) fun _ _ h => h.setRegion rfl)

end

/-- What the work of a tick leaves of the tick source. -/
def Tick.face (t : Tick) : Nat × Nat × DWord × Nat × Bool × Bool × Bool × Bool :=
  (t.count, t.digestTick, t.pkgDigest, t.copying, t.due, t.held, t.active, t.closed)

theorem State.tick_settle (s : State) : s.settle.tick = { s.tick with settled := true } := by
  unfold State.settle
  have advanced : Only [.free, .bufs, .log, .sess, .mbx] s
      ((s.runs.filter (fun p => p.2.begun)).foldl (fun s p => s.advance p.1 p.2) s) := .foldl (.refl s) fun _ _ h => h.advance rfl
  have tick := advanced.frame .tick rfl
  refine ((Only.decideLoads (l := [.loads, .pair]) (.refl _) rfl).frame .tick rfl).trans ?_
  exact congrArg (fun t : Tick => { t with settled := true }) tick

theorem State.tick_maybeClose (s : State) : s.maybeClose.tick =
    if s.tick.active = true ∧ s.tick.done = 0xFFFFFFFFFFFFFFFF then
      { s.tick with active := false, closed := true, settled := s.tick.settled || !s.pair.shadow } else s.tick := by
  unfold State.maybeClose State.closeTick
  simp only [Bool.and_eq_true, beq_iff_eq]
  split
  · cases shadow : s.pair.shadow with
    | true => simp
    | false =>
      rw [if_neg (by simp), State.tick_settle]
      simp
  · rfl

theorem State.face_armRings (s : State) (x : Sess) (run : Run) (hosted : Nat → Bool) :
    (s.armRings x run hosted).tick.face = s.tick.face := by
  unfold State.armRings
  refine foldl_keeps (fun s => s.tick.face) _ (fun s k => ?_) _ s
  dsimp only
  split
  · split
    · exact (congrArg Tick.face ((Only.arm (l := [.eng, .sess, .flagCnt]) (.refl _) rfl).frame .tick rfl)).trans rfl
    · rfl
  · rfl

theorem State.face_placeRun (s : State) (x : Sess) (run : Run) : (s.placeRun x run).tick.face = s.tick.face := by
  unfold State.placeRun
  refine (State.face_armRings _ _ _ _).trans (congrArg Tick.face ?_)
  exact (Only.foldl (l := [.tiles, .sess]) (.setRun (.refl s) rfl) fun _ _ h => h.placeTile rfl).frame .tick rfl

theorem State.face_placeTick (s : State) : s.placeTick.tick.face = s.tick.face := by
  unfold State.placeTick State.idleDone
  exact foldl_keeps (fun s => s.tick.face) _ (fun s (p : Sess × Run) => State.face_placeRun s p.1 p.2) _ _


theorem State.tick_noteStretch (s : State) (late : Nat) : ∃ hang stretch emerg last,
    (s.noteStretch late).tick =
      { s.tick with hang := hang, stretch := stretch, emerg := emerg, lastStretch := last } := by
  unfold State.noteStretch
  split
  · exact ⟨_, _, _, _, rfl⟩
  · rw [foldl_keeps State.tick _ fun (s : State) (r : Nat) => State.setRegion_tick s r _]
    by_cases held : s.tick.held = true
    · exact ⟨s.tick.hang, s.tick.stretch, s.tick.emerg, late, by rw [if_pos held]⟩
    · exact ⟨_, _, _, late, by rw [if_neg held]; rfl⟩

/-- The tick source after an issue (R29): the next number, nothing due or held, and the tick open unless it has closed at
once, no Rooster having work. -/
theorem State.tick_issue (s : State) : let t := s.issue
    t.tick.count = s.tick.count + 1 ∧ t.tick.due = false ∧ t.tick.held = false ∧ t.tick.active = !t.tick.closed ∧
      t.tick.digestTick = (if 0 < s.tick.count then s.tick.count else s.tick.digestTick) ∧
      t.tick.pkgDigest = (if 0 < s.tick.count then s.tickDigest else s.tick.pkgDigest) ∧
      t.tick.copying = s.tick.copying := by
  intro t
  obtain ⟨u, hu, face⟩ : ∃ u : State, t = u.maybeClose ∧ u.tick.face = (s.tick.count + 1,
      (if 0 < s.tick.count then s.tick.count else s.tick.digestTick),
      (if 0 < s.tick.count then s.tickDigest else s.tick.pkgDigest), s.tick.copying, false, false, true, false) := by
    refine ⟨_, rfl, ?_⟩
    refine (congrArg Tick.face ((Only.noticeRelease (l := [.sess, .tiles, .flagCnt]) (.refl _) rfl).frame .tick rfl)).trans ?_
    exact (State.face_placeTick _).trans rfl
  simp only [Tick.face, Prod.mk.injEq] at face
  obtain ⟨count, digestTick, pkgDigest, copying, due, held, active, closed⟩ := face
  rw [hu, State.tick_maybeClose]
  split <;> simp [count, digestTick, pkgDigest, copying, due, held, active, closed]

theorem State.tick_tellDone (s : State) : s.tellDone.tick = s.tick :=
  (Only.tellDone (l := [.pair, .out]) (.refl s) rfl).frame .tick rfl


theorem State.decideUnits_of_none {s : State} (h : s.pair.shadow = false ∨ s.units.pend = []) : s.decideUnits = s := by
  unfold State.decideUnits
  exact if_neg (by obtain h | h := h <;> simp [h])

/-- What follows a boundary's actions: the issue, or a wait for the copies of an identity's memory (R53). -/
theorem State.cross_of_copied {s u : State} {b : BoundarySample} (hu : s.boundary b = u) (h : u.tick.copying = 0)
    (late : Nat) : s.cross late b = ((u.noteStretch late).issue).tellDone := by
  unfold State.cross
  rw [hu]
  exact if_neg (not_not_intro h)

theorem State.cross_of_copying {s u : State} {b : BoundarySample} (hu : s.boundary b = u) (h : u.tick.copying ≠ 0)
    (late : Nat) : s.cross late b = if u.tick.held = true then u else
      { u.raise .tickStatus 0x40000000 with
        tick := { (u.raise .tickStatus 0x40000000).tick with held := true } } := by
  unfold State.cross
  rw [hu]
  exact if_pos h

theorem getLsbD_two_pow {w i : Nat} (h : i < w) : (BitVec.ofNat w (2 ^ i)).getLsbD i = true := by
  rw [BitVec.getLsbD_ofNat, Nat.testBit_two_pow_self, decide_eq_true h, Bool.and_self]

theorem getLsbD_withBit_self (m : DWord) {i : Nat} (b : Bool) (h : i < 64) : (withBit m i b).getLsbD i = b := by
  cases b with
  | false => rw [withBit, if_neg (by decide), BitVec.getLsbD_and, BitVec.getLsbD_not, getLsbD_two_pow h]; simp
  | true => rw [withBit, if_pos rfl, BitVec.getLsbD_or, getLsbD_two_pow h, Bool.or_true]

theorem ne_of_mem_members {m : DWord} {r q : Nat} (h : m.getLsbD r = false) (hq : q ∈ members m) : q ≠ r := by
  rintro rfl
  simp [members, h] at hq

/-- A region is out of changeover, and no session is giving it up. -/
def State.vacated (r : Nat) (s : State) : Prop :=
  tabWf {} s.regions = true ∧ (s.region r).change = 0 ∧ ∀ y ∈ s.sess, y.release.getLsbD r = false

section
variable {s t : State} {r q : Nat}

theorem State.vacated.congr (h : s.vacated r) (regions : t.regions = s.regions) (sess : t.sess = s.sess) :
    t.vacated r := by
  unfold State.vacated State.region at h ⊢
  rw [regions, sess]
  exact h

theorem State.vacated.setRegion_ne (h : s.vacated r) (hq : q ≠ r) {f : Region → Region} :
    (s.setRegion q f).vacated r := by
  obtain ⟨wf, free, none⟩ := h
  exact ⟨tabWf_put _ _ _ _ wf, (congrArg Region.change (look_put_ne _ _ _ _ _ hq.symm)).trans free, none⟩

theorem State.vacated.setRegion (h : s.vacated r) {f : Region → Region} (hf : ∀ x, (f x).change = x.change) :
    (s.setRegion q f).vacated r := by
  by_cases hq : q = r
  · subst hq
    obtain ⟨wf, free, none⟩ := h
    exact ⟨tabWf_put _ _ _ _ wf, ((congrArg Region.change (look_put_self _ _ _ _ wf)).trans (hf _)).trans free, none⟩
  · exact h.setRegion_ne hq

theorem State.vacated.setSess (h : s.vacated r) {id : Nat} {f : Sess → Sess}
    (hf : ∀ x, x.release.getLsbD r = false → (f x).release.getLsbD r = false) : (s.setSess id f).vacated r := by
  obtain ⟨wf, free, none⟩ := h
  refine ⟨wf, free, fun y hy => ?_⟩
  simp only [State.setSess, List.mem_map] at hy
  obtain ⟨x, hx, rfl⟩ := hy
  split
  · exact hf x (none x hx)
  · exact none x hx

theorem State.vacated.changeover (h : s.vacated r) (hq : q ≠ r) : (s.changeover q).vacated r := by
  unfold State.changeover
  have kept : Only [.tick, .flagCnt, .tiles, .eng] s (List.foldl (fun s i => s.putTile i (clearTile (s.tile i)))
      (s.dropWork q) ((s.dropWork q).slotsOf q)) :=
    .foldl (.dropWork (.refl s) rfl) fun _ _ h => h.putTile rfl
  exact State.vacated.setRegion_ne (h.congr (kept.frame .regions rfl) (kept.frame .sess rfl)) hq

theorem State.vacated.giveUp (h : s.vacated r) {id : Nat} {rs : DWord} (hrs : rs.getLsbD r = false) :
    (s.giveUp id rs).vacated r := by
  unfold State.giveUp
  dsimp only
  generalize hu : s.abortLoads _ = u
  have only : Only [.fcfg, .flagCnt, .loads, .fab, .ftx, .mbx, .log] s u := hu ▸ .abortLoads (.refl s) rfl
  have h : u.vacated r := h.congr (only.frame .regions rfl) (only.frame .sess rfl)
  refine List.foldlRecOn (motive := State.vacated r) (members rs) _ (h.setSess fun x hx => ?_) fun v hv q hq => ?_
  · simp [hx, hrs]
  · split
    · exact hv.setRegion_ne (ne_of_mem_members hrs hq)
    · exact hv.changeover (ne_of_mem_members hrs hq)

theorem State.vacated.changePartitions (h : s.vacated r) (unheld : ∀ x ∈ s.sess, x.regions.getLsbD r = false) :
    s.changePartitions.vacated r := by
  unfold State.changePartitions
  refine List.foldlRecOn (motive := State.vacated r) s.sess _ h fun u hu x hx => ?_
  split
  · have left := hu.giveUp (id := x.id) (rs := x.release &&& x.regions) (by simp [unheld x hx])
    dsimp only
    refine State.vacated.setSess ?_ fun _ h => h
    exact List.foldlRecOn (motive := State.vacated r) _ _ left fun v hv q _ => hv.setRegion fun _ => rfl
  · exact hu

theorem State.mem_sess_of_dropSession {id : Nat} {y : Sess} (h : y ∈ (s.dropSession id).sess) : y ∈ s.sess := by
  revert h
  unfold State.dropSession
  split
  · exact fun h => h
  · rename_i x _
    dsimp only
    rw [State.sess_freeMailboxesOf]
    generalize hu : List.foldl _ s x.mbs = u
    have only : Only [.mbx, .ctl, .mem, .mpk, .cxl, .pair, .out, .flagCnt] s u := hu ▸ .foldl (.refl s) fun _ _ h => by
      split
      · exact .ite (h.postResult rfl) h
      · exact h
    intro h
    exact only.frame .sess rfl ▸ (List.mem_filter.mp h).1

theorem State.mem_sess_of_endCloses {y : Sess} : y ∈ s.endCloses.sess → y ∈ s.sess := by
  unfold State.endCloses
  refine List.foldlRecOn (motive := fun u : State => y ∈ u.sess → y ∈ s.sess) s.sess _ (fun h => h) fun u hu x _ => ?_
  split
  · split
    · split
      · exact hu
      · exact fun h => hu (State.mem_sess_of_dropSession h)
    · intro h
      exact hu ((Only.release (l := [.mbx]) (.refl u) rfl).frame .sess rfl ▸ h)
  · exact hu

theorem State.vacated.endCloses (h : s.vacated r) : s.endCloses.vacated r := by
  obtain ⟨wf, free, none⟩ := h
  have regions : s.endCloses.regions = s.regions :=
    (Only.endCloses (l := [.mbx, .ctl, .mem, .mpk, .cxl, .pair, .out, .flagCnt, .sess]) (.refl s) rfl).frame .regions rfl
  unfold State.vacated State.region
  rw [regions]
  exact ⟨wf, free, fun y hy => none y (State.mem_sess_of_endCloses hy)⟩

end

/-- Settles O31: what an issue leaves of the tick source (`State.tick_issue`), and what every part of a changeover's end
leaves of the region and of the sessions. -/
theorem tickBoundaries : Obligations.TickBoundaries := by
  unfold Obligations.TickBoundaries
  refine ⟨?cross, ?more, ?last, ?changeover⟩
  case cross =>
    intro s late b may w u
    have exec_eq : exec (.tickBoundary late b) s = .next (if w.mayCross then w.cross late b else w) := by
      change execTickBoundary late b s = _
      unfold execTickBoundary
      rw [if_pos may]
      rfl
    have decided : s.decideUnits = w := rfl
    have bounded : w.boundary b = u := rfl
    clear_value u w
    refine ⟨fun h => decided.symm.trans (State.decideUnits_of_none h), fun notMay => ?_, fun may none => ?_,
      fun may copies => ?_⟩
    · rw [exec_eq, if_neg (by simp [notMay])]
    · rw [exec_eq, if_pos may, State.cross_of_copied bounded none]
      refine ⟨_, rfl, ?_⟩
      dsimp only
      rw [State.tick_tellDone]
      obtain ⟨hang, stretch, emerg, last, tick⟩ := State.tick_noteStretch u late
      obtain ⟨count, due, held, active, digestTick, pkgDigest, -⟩ := State.tick_issue (u.noteStretch late)
      unfold State.tickDigest at pkgDigest ⊢
      rw [tick] at count digestTick pkgDigest
      exact ⟨count, due, held, active, digestTick, pkgDigest⟩
    · rw [exec_eq, if_pos may, State.cross_of_copying bounded copies]
  case more =>
    intro s late runs copies
    change execIdentityCopyComplete late s = _
    unfold execIdentityCopyComplete State.endCopy
    rw [if_pos (by simp [runs]; omega), if_neg (by change ¬ s.tick.copying - 1 = 0; omega)]
  case last =>
    intro s late runs copies
    change Answers (execIdentityCopyComplete late s) _
    unfold execIdentityCopyComplete State.endCopy
    rw [if_pos (by simp [runs, copies]), if_pos (by change s.tick.copying - 1 = 0; omega)]
    refine ⟨_, rfl, ?_⟩
    dsimp only
    rw [State.tick_tellDone]
    obtain ⟨hang, stretch, emerg, last, tick⟩ :=
      State.tick_noteStretch { s with tick := { s.tick with copying := s.tick.copying - 1 } } late
    obtain ⟨count, due, held, active, -, -, copying⟩ :=
      State.tick_issue (State.noteStretch { s with tick := { s.tick with copying := s.tick.copying - 1 } } late)
    rw [tick] at count copying
    exact ⟨count, copying.trans (by change s.tick.copying - 1 = 0; omega), due, held, active⟩
  case changeover =>
    intro s r canon boundary inRange last unheld
    change Answers (execChangeoverEnd r s) _
    unfold execChangeoverEnd
    rw [if_pos (by simp [State.changeoverOver, boundary, inRange, last])]
    refine ⟨_, rfl, ?_⟩
    have wf : tabWf {} s.regions = true := ((State.canon_iff s).mp canon).regions
    have started : State.vacated r { s.setRegion r (fun x => { x with change := 0 }) with
        sess := s.sess.map fun (x : Sess) => { x with release := withBit x.release r false } } := by
      refine ⟨tabWf_put _ _ _ _ wf, congrArg Region.change (look_put_self _ _ _ _ wf), fun y hy => ?_⟩
      obtain ⟨x, -, rfl⟩ := List.mem_map.mp hy
      exact getLsbD_withBit_self _ _ inRange
    have moved := started.changePartitions fun y hy => by
      obtain ⟨x, hx, rfl⟩ := List.mem_map.mp hy
      exact unheld x hx
    suffices through : (s.endChangeover r).vacated r from through.2
    unfold State.endChangeover
    extract_lets freed given u ended
    have moved : u.vacated r := moved
    clear_value u
    have answered (v : State) (xs : List Nat) : Only [.mbx] v (xs.foldl (fun s n => match (s.mb n).busy with
        | some b => if b.acc.fields.isEmpty then s else s.finishBusy n b.acc
        | none => s) v) := .foldl (.refl v) fun _ _ h => by
      split
      · exact .ite h (h.finishBusy rfl)
      · exact h
    refine State.vacated.endCloses (List.foldlRecOn (motive := State.vacated r) u.sess _ moved fun v hv x _ => ?_)
    split
    · exact hv.congr ((answered v _).frame .regions rfl) ((answered v _).frame .sess rfl)
    · exact hv
end Sys2Proof.Machine
end

section
/-! PROOFS. The tick source, warnings and hangs (O29, O30). -/

namespace Sys2Proof.Machine

theorem State.region_setRegion_self (s : State) {r : Nat} (wf : tabWf {} s.regions = true) (f : Region → Region) :
    (s.setRegion r f).region r = f (s.region r) := look_put_self _ _ _ _ wf

theorem State.region_setRegion_ne (s : State) {q r : Nat} (h : r ≠ q) (f : Region → Region) :
    (s.setRegion q f).region r = s.region r := look_put_ne _ _ _ _ _ h

theorem State.compareTick_of_open {s : State} (h : s.tick.closed = false) : s.compareTick = s := by
  have told : s.tellDone = s := by
    unfold State.tellDone
    exact if_neg (by simp [h])
  unfold State.compareTick
  rw [told]
  exact if_neg (by simp [h])

/-- Out of shadow service there are no digests to compare. -/
theorem State.compareTick_of_alone {s : State} (h : s.pair.shadow = false) : s.compareTick = s.tellDone := by
  have told : s.tellDone.pair.shadow = false := by
    unfold State.tellDone State.sendPair
    simp only
    (repeat' split) <;> exact h
  unfold State.compareTick
  exact if_neg (by simp [told])

theorem State.shadow_settle {s : State} (h : s.pair.shadow = false) : s.settle.pair.shadow = false := by
  unfold State.settle
  dsimp only
  generalize hu : List.foldl _ s _ = u
  have pair : u.pair = s.pair :=
    (hu ▸ Only.foldl (l := [.free, .bufs, .log, .sess, .mbx]) (.refl s) fun _ _ h => h.advance rfl :
      Only [.free, .bufs, .log, .sess, .mbx] s u).frame .pair rfl
  have alone : u.pair.shadow = false := (congrArg Pair.shadow pair).trans h
  unfold State.decideLoads
  rw [if_neg (by simp [alone])]
  exact alone

theorem State.shadow_maybeClose {s : State} (h : s.pair.shadow = false) : s.maybeClose.pair.shadow = false := by
  unfold State.maybeClose State.closeTick
  split
  · dsimp only
    rw [if_neg (by simp [h])]
    exact State.shadow_settle h
  · exact h

/-- Settles O29: each event's definition, with what its parts leave alone. -/
theorem tickSource : Obligations.TickSource := by
  unfold Obligations.TickSource
  refine ⟨?due, ?report, ?heartbeat, ?copy⟩
  case due =>
    intro s runs count notDue copies
    change execTickDue s = _
    unfold execTickDue State.due
    rw [if_pos (by simp [State.comesDue, runs, count, notDue, copies])]
    refine congrArg Host.Outcome.next (ite_of_iff ?_ rfl rfl)
    change (s.tick.closed && s.tick.settled && !s.pairHolds) = true ↔ _
    simp [and_assoc]
  case report =>
    intro s r busy canon may isOpen d
    have wf : tabWf {} s.regions = true := ((State.canon_iff s).mp canon).regions
    have answer : exec (.regionDone r busy) s = .next (s.reportDone r busy) := if_pos may
    rw [answer]
    unfold State.reportDone
    extract_lets recorded counted ticked reported
    have counts : Only [.units] recorded counted := .foldl (.refl _) fun _ _ h => h.countOverrun rfl
    have tick : counted.tick = s.tick := counts.frame .tick rfl
    have active : reported.tick.active = true := by
      have active : s.tick.active = true := by
        simp only [State.mayReport, Bool.and_eq_true] at may
        exact may.1.1.1.2
      exact (congrArg Tick.active tick).trans active
    have done : reported.tick.done = d := congrArg (fun t : Tick => withBit t.done r true) tick
    refine ⟨fun busyOnes => ?_, fun all alone => ?_⟩
    · have stays : reported.maybeClose = reported := by
        unfold State.maybeClose
        rw [if_neg]
        rw [done, Bool.and_eq_true, beq_iff_eq]
        exact fun h => busyOnes h.2
      have still : reported.tick.closed = false := (congrArg Tick.closed tick).trans isOpen
      rw [stays, State.compareTick_of_open still]
      refine ⟨_, rfl, done, still, ?_, counts.frame .tiles rfl, counts.frame .eng rfl, counts.frame .mem rfl,
        counts.frame .sess rfl⟩
      have regions : reported.regions = recorded.regions := counts.frame .regions rfl
      unfold State.region
      rw [regions]
      exact congrArg Region.digest (State.region_setRegion_self s wf _)
    · have shadow : reported.pair.shadow = false :=
        (congrArg Pair.shadow (counts.frame .pair rfl : counted.pair = recorded.pair)).trans alone
      have closed : Only [.free, .bufs, .log, .sess, .mbx, .tick, .loads, .pair] reported reported.maybeClose :=
        .maybeClose (.refl _) rfl
      have closedTick := State.tick_maybeClose reported
      rw [if_pos ⟨active, done.trans all⟩, shadow] at closedTick
      rw [State.compareTick_of_alone (State.shadow_maybeClose shadow)]
      have told : Only [.pair, .out] reported.maybeClose reported.maybeClose.tellDone := .tellDone (.refl _) rfl
      refine ⟨_, rfl, ?_⟩
      dsimp only
      rw [State.tick_tellDone, closedTick]
      refine ⟨done, rfl, rfl, Bool.or_true _, ?_⟩
      exact (told.frame .mem rfl).trans ((closed.frame .mem rfl).trans (counts.frame .mem rfl))
  case heartbeat =>
    intro s beats
    change Answers (execHeartbeatToggle s) _
    unfold execHeartbeatToggle
    rw [if_pos beats]
    have sent : Only [.dev, .pair, .out] s (State.sendPair { s with dev := { s.dev with hbLevel := !s.dev.hbLevel } }) :=
      .sendPair (.withDev (.refl s) rfl) rfl
    refine ⟨_, rfl, ?_, ⟨sent.frame .mem rfl, sent.frame .tiles rfl, sent.frame .bufs rfl, sent.frame .eng rfl,
      sent.frame .regions rfl, sent.frame .fab rfl, sent.frame .ftx rfl, sent.frame .tick rfl, sent.frame .units rfl,
      sent.frame .clk rfl, sent.frame .flash rfl⟩, sent.frame .sess rfl, fun silent => ?_, fun mode stays hears => ?_⟩
    · exact State.sendPair_dev _
    · unfold State.sendPair
      rw [if_neg ?_]
      · exact ⟨rfl, rfl⟩
      · change ¬ (s.hears && s.pair.mode != 0 && !s.pair.left) = true
        obtain mode | left | deaf := silent
        · simp [mode]
        · simp [left]
        · simp [deaf]
    · unfold State.sendPair
      rw [if_pos ?_]
      · exact ⟨_, rfl, rfl, rfl, rfl⟩
      · change (s.hears && s.pair.mode != 0 && !s.pair.left) = true
        simp [hears, mode, stays]
  case copy =>
    intro s late runs copies
    change Answers (execIdentityCopyComplete late s) _
    unfold execIdentityCopyComplete State.endCopy
    rw [if_pos (by simp [runs, copies])]
    refine ⟨_, rfl, ?_⟩
    dsimp only
    split
    · rw [State.tick_tellDone]
      obtain ⟨hang, stretch, emerg, last, tick⟩ :=
        State.tick_noteStretch { s with tick := { s.tick with copying := s.tick.copying - 1 } } late
      obtain ⟨-, -, -, -, -, -, copying⟩ :=
        State.tick_issue (State.noteStretch { s with tick := { s.tick with copying := s.tick.copying - 1 } } late)
      rw [tick] at copying
      exact copying
    · rfl

/-- A tile's flags before an operation that notes what it sets (`State.runTile`). -/
def TileRegs.clean (g : TileRegs) : TileRegs :=
  { g with discard := false, qstall := false, ovf := false, err := false, fatal := false, spec := false, dlate := 0 }

/-- A tile's flags after such an operation: those set before stay. -/
def TileRegs.merge (g n : TileRegs) : TileRegs :=
  { n with discard := g.discard || n.discard, qstall := g.qstall || n.qstall, ovf := g.ovf || n.ovf,
           err := g.err || n.err, fatal := g.fatal || n.fatal, spec := g.spec || n.spec, dlate := g.dlate ||| n.dlate }

/-- What `State.runTile` makes of its tile. -/
def Tile.run (t : Tile) (f : Tile → Tile) : Tile :=
  let u := f { t with r := t.r.clean }
  { u with r := t.r.merge u.r }

theorem State.tile_runTile_self {s : State} (wf : tabWf {} s.tiles = true) (i : Nat) (f : Tile → Tile) :
    (s.runTile i f).tile i = (s.tile i).run f := look_put_self _ _ _ _ wf

theorem State.tile_runTile_ne (s : State) {i k : Nat} (h : k ≠ i) (f : Tile → Tile) :
    (s.runTile i f).tile k = s.tile k := look_put_ne _ _ _ _ _ h

theorem State.tilesWf_runTile {s : State} (wf : tabWf {} s.tiles = true) (i : Nat) (f : Tile → Tile) :
    tabWf {} (s.runTile i f).tiles = true := tabWf_put _ _ _ _ wf

theorem State.tile_foldl_runTile {f : Tile → Tile} {l : List Nat} (nodup : l.Nodup) {s : State}
    (wf : tabWf {} s.tiles = true) (i : Nat) : (l.foldl (fun s i => s.runTile i f) s).tile i =
      if i ∈ l then (s.tile i).run f else s.tile i := by
  induction l generalizing s with
  | nil => rfl
  | cons k l ih =>
    obtain ⟨fresh, nodup⟩ := List.nodup_cons.mp nodup
    rw [List.foldl_cons, ih nodup (State.tilesWf_runTile wf k f)]
    by_cases h : i = k
    · subst h
      rw [if_neg fresh, if_pos List.mem_cons_self, State.tile_runTile_self wf]
    · simp only [State.tile_runTile_ne s h, List.mem_cons, h, false_or]

theorem keys_of_tabWfFrom {α : Type} [DecidableEq α] {d : α} {t : Tab α} : ∀ {lo : Nat}, tabWfFrom d lo t = true →
    (t.map (fun p => p.1)).Nodup ∧ ∀ k ∈ t.map (fun p => p.1), lo ≤ k := by
  induction t with
  | nil => exact fun _ => ⟨List.nodup_nil, fun _ => nofun⟩
  | cons c r ih =>
    intro lo h
    simp only [tabWfFrom, Bool.and_eq_true, decide_eq_true_eq] at h
    obtain ⟨⟨le, -⟩, rest⟩ := h
    obtain ⟨nodup, above⟩ := ih rest
    refine ⟨List.nodup_cons.mpr ⟨fun m => ?_, nodup⟩, fun k hk => ?_⟩
    · exact absurd (above _ m) (Nat.not_succ_le_self _)
    · obtain rfl | hk := List.mem_cons.mp hk
      · exact le
      · exact Nat.le_trans le (Nat.le_trans (Nat.le_succ _) (above k hk))

theorem State.nodup_slotsOf {s : State} (wf : tabWf {} s.tiles = true) (r : Nat) : (s.slotsOf r).Nodup := by
  unfold State.slotsOf
  exact (keys_of_tabWfFrom wf).1.sublist (List.filter_sublist.map _)

theorem mem_keys_of_look_ne {α : Type} [DecidableEq α] {d : α} {t : Tab α} {i : Nat} (h : look d t i ≠ d) :
    ∃ v, (i, v) ∈ t := by
  induction t with
  | nil => exact absurd rfl h
  | cons c r ih =>
    obtain ⟨k, v⟩ := c
    simp only [look] at h
    split at h
    · rename_i e
      exact ⟨v, e ▸ List.mem_cons_self⟩
    · obtain ⟨w, hw⟩ := ih h
      exact ⟨w, List.mem_cons_of_mem _ hw⟩

theorem State.mem_slotsOf (s : State) {i : Nat} (h : s.tile i ≠ {}) : i ∈ s.slotsOf (i / 36) := by
  obtain ⟨v, hv⟩ := mem_keys_of_look_ne h
  exact List.mem_map.mpr ⟨(i, v), List.mem_filter.mpr ⟨hv, beq_self_eq_true _⟩, rfl⟩

theorem State.region_of_mem_slotsOf {s : State} {i r : Nat} (h : i ∈ s.slotsOf r) : i / 36 = r := by
  obtain ⟨p, hp, rfl⟩ := List.mem_map.mp h
  simpa using (List.mem_filter.mp hp).2

theorem Tile.ctx_setCtx_self (t : Tile) {c : Nat} (h : c < 4) (x : Ctx) : (t.setCtx c x).ctx c = x := by
  obtain rfl | rfl | rfl | rfl : c = 0 ∨ c = 1 ∨ c = 2 ∨ c = 3 := by omega
  all_goals rfl

theorem Tile.ctx_setCtx_ne (t : Tile) {c k : Nat} (hc : c < 4) (hk : k < 4) (h : k ≠ c) (x : Ctx) :
    (t.setCtx c x).ctx k = t.ctx k := by
  obtain rfl | rfl | rfl | rfl : c = 0 ∨ c = 1 ∨ c = 2 ∨ c = 3 := by omega
  all_goals
    obtain rfl | rfl | rfl | rfl : k = 0 ∨ k = 1 ∨ k = 2 ∨ k = 3 := by omega
    all_goals trivial

/-- A context after an event that is raised in it (R141). -/
def Ctx.raised (x : Ctx) (e : Nat) : Ctx :=
  if x.task && !x.ended then { x with r := { x.r with es := x.r.es ||| BitVec.ofNat 16 (2 ^ e) } } else x

theorem ctx_raiseEvent_self (t : Tile) {c : Nat} (h : c < 4) (e : Nat) :
    (raiseEvent t c e).ctx c = (t.ctx c).raised e := by
  unfold raiseEvent Ctx.raised
  dsimp only
  split
  · exact t.ctx_setCtx_self h _
  · rfl

theorem ctx_raiseEvent_ne (t : Tile) {c k : Nat} (hc : c < 4) (hk : k < 4) (h : k ≠ c) (e : Nat) :
    (raiseEvent t c e).ctx k = t.ctx k := by
  unfold raiseEvent
  dsimp only
  split
  · exact t.ctx_setCtx_ne hc hk h _
  · rfl

theorem ctx_raiseAll (t : Tile) {c : Nat} (h : c < 4) (e : Nat) : (raiseAll t e).ctx c = (t.ctx c).raised e := by
  unfold raiseAll
  simp only [List.foldl_cons, List.foldl_nil]
  obtain rfl | rfl | rfl | rfl : c = 0 ∨ c = 1 ∨ c = 2 ∨ c = 3 := by omega
  · rw [ctx_raiseEvent_ne, ctx_raiseEvent_ne, ctx_raiseEvent_ne, ctx_raiseEvent_self] <;> decide
  · rw [ctx_raiseEvent_ne, ctx_raiseEvent_ne, ctx_raiseEvent_self, ctx_raiseEvent_ne] <;> decide
  · rw [ctx_raiseEvent_ne, ctx_raiseEvent_self, ctx_raiseEvent_ne, ctx_raiseEvent_ne] <;> decide
  · rw [ctx_raiseEvent_self, ctx_raiseEvent_ne, ctx_raiseEvent_ne, ctx_raiseEvent_ne] <;> decide

/-- Settles O30: the warning runs `raiseAll` on each slot of the region (`State.tile_foldl_runTile`). -/
theorem warningsAndHangs : Obligations.WarningsAndHangs := by
  unfold Obligations.WarningsAndHangs
  refine ⟨?warning, ?hang⟩
  case warning =>
    intro s r canon may
    have wf : tabWf {} s.tiles = true := ((State.canon_iff s).mp canon).tiles
    have answer : exec (.tickWarning r) s = .next (s.warn r) := if_pos may
    have tile (i : Nat) : (s.warn r).tile i = if i ∈ s.slotsOf r then (s.tile i).run (fun t => raiseAll t 2) else s.tile i :=
      State.tile_foldl_runTile (s := { s with tick := { s.tick with warned := withBit s.tick.warned r true } })
        (State.nodup_slotsOf wf r) wf i
    rw [answer]
    refine ⟨_, rfl, ?_, fun i other => ?_, fun i c own inRange task running => ?_⟩
    · exact congrArg Tick.warned (foldl_keeps State.tick _ (fun s i => State.runTile_tick s i _) _ _)
    · rw [tile, if_neg fun h => other (State.region_of_mem_slotsOf h)]
    · have used : s.tile i ≠ {} := by
        intro h
        rw [h] at task
        obtain rfl | rfl | rfl | rfl : c = 0 ∨ c = 1 ∨ c = 2 ∨ c = 3 := by omega
        all_goals exact absurd task (by decide)
      rw [tile, if_pos (own ▸ s.mem_slotsOf used)]
      have ctx : ((s.tile i).run (fun t => raiseAll t 2)).ctx c = ((s.tile i).ctx c).raised 2 := ctx_raiseAll _ inRange 2
      rw [ctx]
      unfold Ctx.raised
      rw [if_pos (by simp [task, running])]
      rfl
  case hang =>
    intro s r slot hangs
    change execHang r slot s = _
    unfold execHang
    rw [if_pos hangs]
    exact (apply_ite Host.Outcome.next _ _ _).symm
end Sys2Proof.Machine
end

section
/-! PROOFS. Contexts, events and passes (O34, O35). -/

namespace Sys2Proof.Machine

theorem Tile.setCtx_cur (t : Tile) (c : Nat) (x : Ctx) : (t.setCtx c x).cur = t.cur := by
  unfold Tile.setCtx
  (repeat' split) <;> rfl

theorem Tile.setCtx_r (t : Tile) (c : Nat) (x : Ctx) : (t.setCtx c x).r = t.r := by
  unfold Tile.setCtx
  (repeat' split) <;> rfl

theorem Tile.setCtx_loc (t : Tile) (c : Nat) (x : Ctx) : (t.setCtx c x).loc = t.loc := by
  unfold Tile.setCtx
  (repeat' split) <;> rfl

theorem Tile.setCtx_passes (t : Tile) (c : Nat) (x : Ctx) : (t.setCtx c x).passes = t.passes := by
  unfold Tile.setCtx
  (repeat' split) <;> rfl

theorem Tile.setCtx_crq (t : Tile) (c : Nat) (x : Ctx) : (t.setCtx c x).crq = t.crq := by
  unfold Tile.setCtx
  (repeat' split) <;> rfl

theorem Tile.setCtx_array (t : Tile) (c : Nat) (x : Ctx) : (t.setCtx c x).array = t.array := by
  unfold Tile.setCtx
  (repeat' split) <;> rfl

/-- A switch that is due (R116), in the parts of the tile. -/
theorem switchCtx_of_due {t : Tile} {c : Nat} (due : switchDue t = true) (next : nextCtx t = some c) :
    switchCtx t = (if c = t.cur then t.setCtx t.cur { t.ctx t.cur with yield := false }
      else { t.setCtx t.cur { t.ctx t.cur with yield := false } with
        cur := c, r := { t.r with switches := (t.r.switches + 1) % 65536, switchesAll := t.r.switchesAll + 1 } }) := by
  unfold switchCtx
  rw [if_pos due, next]
  simp only [Tile.setCtx_cur, Tile.setCtx_r]

/-- Settles O35: the tile's own operations, as `State.runTile` makes them. -/
theorem contextsAndEvents : Obligations.ContextsAndEvents := by
  unfold Obligations.ContextsAndEvents
  refine ⟨?switch, ?event⟩
  case switch =>
    intro s slot c canon may next cur
    have wf : tabWf {} s.tiles = true := ((State.canon_iff s).mp canon).tiles
    have answer : exec (.contextSwitch slot) s = .next (s.runTile slot switchCtx) := if_pos may
    rw [answer]
    refine ⟨_, rfl, ?_⟩
    dsimp only
    rw [State.tile_runTile_self wf]
    obtain ⟨t, ht⟩ : ∃ t, t = s.tile slot := ⟨_, rfl⟩
    have due : switchDue t = true := by
      simp only [State.maySwitch, Bool.and_eq_true] at may
      exact ht ▸ may.1.2
    rw [← ht] at next cur ⊢
    have moved := switchCtx_of_due (t := { t with r := t.r.clean }) due next
    unfold Tile.run
    rw [moved]
    by_cases same : c = t.cur
    · rw [if_pos same, if_pos same]
      refine ⟨(Tile.setCtx_cur _ _ _).trans same.symm, Tile.ctx_setCtx_self _ cur _,
        fun k hk ne => Tile.ctx_setCtx_ne _ cur hk ne _, ?_, Tile.setCtx_loc _ _ _, Tile.setCtx_passes _ _ _,
        Tile.setCtx_crq _ _ _⟩
      change (Tile.r (Tile.setCtx _ _ _)).switches = t.r.switches
      rw [Tile.setCtx_r]
      rfl
    · rw [if_neg same, if_neg same]
      exact ⟨rfl, Tile.ctx_setCtx_self _ cur _, fun k hk ne => Tile.ctx_setCtx_ne _ cur hk ne _, rfl,
        Tile.setCtx_loc _ _ _, Tile.setCtx_passes _ _ _, Tile.setCtx_crq _ _ _⟩
  case event =>
    intro s slot e canon now cur
    have wf : tabWf {} s.tiles = true := ((State.canon_iff s).mp canon).tiles
    have answer : exec (.eventTaken slot) s =
        .next (s.runTile slot (fun t => t.setCtx t.cur (takeEvent (t.ctx t.cur) e))) := by
      change execEventTaken slot s = _
      unfold execEventTaken
      rw [now]
    rw [answer]
    refine ⟨_, rfl, ?_⟩
    dsimp only
    rw [State.tile_runTile_self wf]
    generalize s.tile slot = t at cur ⊢
    have self : (t.run fun t => t.setCtx t.cur (takeEvent (t.ctx t.cur) e)).ctx t.cur = takeEvent (t.ctx t.cur) e :=
      Tile.ctx_setCtx_self _ cur _
    have others (k : Nat) (hk : k < 4) (ne : k ≠ t.cur) :
        (t.run fun t => t.setCtx t.cur (takeEvent (t.ctx t.cur) e)).ctx k = t.ctx k :=
      Tile.ctx_setCtx_ne _ cur hk ne _
    rw [self]
    exact ⟨rfl, rfl, rfl, rfl, rfl, rfl, Tile.setCtx_loc _ _ _, others⟩

theorem Only.markLate {s t : State} {l : List Piece} {r : Nat} {ns : List Nat} (h : Only l s t)
    (sub : within [.eng, .flagCnt] l = true) : Only l s (t.markLate r ns) := by
  refine h.then (k := [.eng, .flagCnt]) ?_ sub
  unfold State.markLate
  exact .unless (.foldl (.refl t) fun _ _ h => h.setStream rfl) fun h => h.raise rfl

theorem State.tile_of_tiles {s t : State} (h : t.tiles = s.tiles) (k : Nat) : t.tile k = s.tile k :=
  by
  unfold State.tile
  rw [h]

/-- Feeding takes rows from the streaming queue, for the same pass. -/
theorem feed_eq (t : Tile) (j : ArrJob) : ∃ n k, feed t j = ({ t with sqTaken := n }, k) ∧ k.idx = j.idx := by
  unfold feed
  cases t.passes[j.idx]? with
  | none => exact ⟨t.sqTaken, j, rfl, rfl⟩
  | some p => exact ⟨_, _, rfl, rfl⟩

/-- A pass that starts: what becomes of the passes, the array, the contexts and local memory. -/
theorem startPass_eq {t : Tile} {i : Nat} {p : PassWork} (hp : t.passes[i]? = some p) : ∃ n m j r,
    startPass t i = { t with
      passes := setAt t.passes i (fun q => { q with started := true }), tqTaken := n, sqTaken := m,
      array := t.array ++ [j], r := r } ∧ j.idx = i := by
  unfold startPass
  rw [hp]
  dsimp only
  split
  · rename_i empty
    obtain ⟨n, k, fed, same⟩ := feed_eq { t with
      passes := setAt t.passes i (fun q => { q with started := true })
      tqTaken := if (parseDesc p.desc).bQueue && !p.replay then t.tqTaken + 32 else t.tqTaken
      r := if p.replay then t.r else { t.r with kind := (parseDesc p.desc).kind, subpass := 0 } } { idx := i }
    rw [fed]
    exact ⟨_, _, _, _, rfl, same⟩
  · exact ⟨_, _, _, _, rfl, rfl⟩

theorem resumeArray_eq (t : Tile) : ∃ n a r, resumeArray t = { t with sqTaken := n, array := a, r := r } ∧
    a.map (fun j => j.idx) = t.array.map (fun j => j.idx) ∧ (t.array = [] → a = []) ∧ r.commits = t.r.commits ∧
    r.lastCount = t.r.lastCount := by
  unfold resumeArray
  split
  · rename_i harray
    exact ⟨t.sqTaken, t.array, t.r, rfl, rfl, id, rfl, rfl⟩
  · rename_i j rest harray
    obtain ⟨n, k, fed, same⟩ := feed_eq t j
    rw [fed]
    exact ⟨_, _, _, rfl, by simp [same, harray], by simp [harray], rfl, rfl⟩

/-- A pass that is not a replay commits (R84): what becomes of the tile. -/
theorem commitPass_eq {t : Tile} {j : ArrJob} {rest : List ArrJob} {p : PassWork} (harray : t.array = j :: rest)
    (hp : t.passes[j.idx]? = some p) (first : p.replay = false) :
    let d := parseDesc p.desc
    let o := passOut (t.job.getD {}) (operandsOf t d) d
    (commitPass t).2 = o ∧ (commitPass t).1.array.map (fun j => j.idx) = rest.map (fun j => j.idx) ∧
      (rest = [] → (commitPass t).1.array = []) ∧ (commitPass t).1.loc = o.loc ∧
      (commitPass t).1.passes = setAt t.passes j.idx (fun q => { q with committed := true, replay := false }) ∧
      (commitPass t).1.sq = (if d.aQueue = true then t.sq.drop d.m else t.sq) ∧
      (commitPass t).1.tq = (if d.bQueue = true then t.tq.drop 32 else t.tq) ∧
      (commitPass t).1.r.commits = (t.r.commits + 1) % 65536 ∧
      (commitPass t).1.r.lastCount = Nat.min o.count 0xFFFF := by
  unfold commitPass
  simp only [harray, hp, first]
  rw [if_neg (by decide)]
  generalize hu : ({ t with
    loc := _, array := rest, passes := _, sq := _, sqTaken := _, tq := _, tqTaken := _, tickOvf := _, r := _ } : Tile) = u
  obtain ⟨n, a, r, resumed, idx, empty, commits, last⟩ := resumeArray_eq u
  dsimp only
  rw [resumed]
  subst hu
  exact ⟨rfl, idx, empty, rfl, rfl, rfl, rfl, commits, last⟩

/-- What `PASS_START` makes of a tile whose pass finds its operands. -/
def startIn (i c : Nat) (t : Tile) : Tile := (startPass t i).setCtx c { (startPass t i).ctx c with late := false }

theorem startIn_eq {t : Tile} {i c : Nat} {p : PassWork} (hp : t.passes[i]? = some p) (h : c < 4) :
    (startIn i c t).passes = setAt t.passes i (fun q => { q with started := true }) ∧
      (startIn i c t).array.map (fun j => j.idx) = t.array.map (fun j => j.idx) ++ [i] ∧
      (startIn i c t).ctx c = { t.ctx c with late := false } ∧ (startIn i c t).loc = t.loc := by
  obtain ⟨n, m, j, r, started, rfl⟩ := startPass_eq hp
  unfold startIn
  rw [started]
  refine ⟨Tile.setCtx_passes _ _ _, ?_, Tile.ctx_setCtx_self _ h _, Tile.setCtx_loc _ _ _⟩
  rw [Tile.setCtx_array, List.map_append]
  rfl

theorem raiseEvent_r (t : Tile) (c e : Nat) : (raiseEvent t c e).r = t.r := by
  unfold raiseEvent
  dsimp only
  repeat' split
  · exact Tile.setCtx_r _ _ _
  · rfl

theorem raiseEvent_passes (t : Tile) (c e : Nat) : (raiseEvent t c e).passes = t.passes := by
  unfold raiseEvent
  dsimp only
  repeat' split
  · exact Tile.setCtx_passes _ _ _
  · rfl

theorem raiseEvent_array (t : Tile) (c e : Nat) : (raiseEvent t c e).array = t.array := by
  unfold raiseEvent
  dsimp only
  repeat' split
  · exact Tile.setCtx_array _ _ _
  · rfl

theorem raiseEvent_loc (t : Tile) (c e : Nat) : (raiseEvent t c e).loc = t.loc := by
  unfold raiseEvent
  dsimp only
  repeat' split
  · exact Tile.setCtx_loc _ _ _
  · rfl

/-- A context that becomes data-late (R119). -/
theorem makeLate_eq (t : Tile) {c : Nat} (h : c < 4) :
    (makeLate t c).ctx c = Ctx.raised { t.ctx c with late := true } 3 ∧
      (makeLate t c).r.dlate = t.r.dlate ||| BitVec.ofNat 4 (2 ^ c) ∧ (makeLate t c).passes = t.passes ∧
      (makeLate t c).array = t.array ∧ (makeLate t c).loc = t.loc := by
  unfold makeLate
  refine ⟨(ctx_raiseEvent_self _ h 3).trans (congrArg (Ctx.raised · 3) (Tile.ctx_setCtx_self _ h _)), ?_,
    (raiseEvent_passes _ _ _).trans (Tile.setCtx_passes _ _ _), (raiseEvent_array _ _ _).trans (Tile.setCtx_array _ _ _),
    (raiseEvent_loc _ _ _).trans (Tile.setCtx_loc _ _ _)⟩
  rw [raiseEvent_r, Tile.setCtx_r]

theorem Ctx.late_raised (x : Ctx) (e : Nat) : (x.raised e).late = x.late := by
  unfold Ctx.raised
  (repeat' split) <;> rfl

/-- A pass that finds its operands starts; what is noted of its streams is no tile's. -/
theorem State.startNow_of_ready {s : State} {slot i : Nat} {p : PassWork} (hp : (s.tile slot).passes[i]? = some p)
    (ready : operandsReady (s.tile slot) p (s.ringsDone slot) = true) :
    Only [.eng, .flagCnt] (s.runTile slot (startIn i p.ctx)) (s.startNow slot i) := by
  unfold State.startNow
  simp only [hp]
  rw [if_pos ready]
  exact .ite (.markLate (.refl _) rfl) (.refl _)

theorem State.startNow_of_late {s : State} {slot i : Nat} {p : PassWork} (hp : (s.tile slot).passes[i]? = some p)
    (notReady : operandsReady (s.tile slot) p (s.ringsDone slot) = false)
    (early : ((s.tile slot).ctx p.ctx).late = false) :
    Only [.eng, .flagCnt] (s.runTile slot fun t => makeLate t p.ctx) (s.startNow slot i) := by
  unfold State.startNow
  simp only [hp]
  rw [if_neg (by simp [notReady]), if_neg (by simp [early])]
  exact .markLate (.refl _) rfl

/-- Settles O34: what each operation of the array makes of its tile, as `State.runTile` makes it. -/
theorem passes : Obligations.Passes := by
  unfold Obligations.Passes
  refine ⟨?start, ?resume, ?commit, ?deliver⟩
  case start =>
    intro s slot i p canon now hp inRange
    have wf : tabWf {} s.tiles = true := ((State.canon_iff s).mp canon).tiles
    have answer : exec (.passStart slot) s = .next (s.startNow slot i) := by
      change execPassStart slot s = _
      unfold execPassStart
      rw [now]
    rw [answer]
    refine ⟨fun ready => ⟨_, rfl, ?_⟩, fun notReady early => ⟨_, rfl, ?_⟩⟩
    · have started := State.startNow_of_ready hp ready
      generalize s.startNow slot i = u at started ⊢
      have tiles (k : Nat) := State.tile_of_tiles (started.frame .tiles rfl) k
      obtain ⟨ps, array, ctx, loc⟩ := startIn_eq (t := { s.tile slot with r := (s.tile slot).r.clean }) hp inRange
      simp only [tiles, State.tile_runTile_self wf]
      exact ⟨ps, array, congrArg Ctx.late ctx, loc, fun k hk => State.tile_runTile_ne s hk _⟩
    · have waited := State.startNow_of_late hp notReady early
      generalize s.startNow slot i = u at waited ⊢
      have tiles (k : Nat) := State.tile_of_tiles (waited.frame .tiles rfl) k
      simp only [tiles, State.tile_runTile_self wf]
      obtain ⟨ctx, dlate, ps, array, loc⟩ :=
        makeLate_eq { s.tile slot with r := (s.tile slot).r.clean } inRange
      have ctx : ((s.tile slot).run fun t => makeLate t p.ctx).ctx p.ctx =
        Ctx.raised { (s.tile slot).ctx p.ctx with late := true } 3 := ctx
      refine ⟨?_, ?_, ps, array, loc, fun task going => ?_⟩
      · rw [ctx, Ctx.late_raised]
      · unfold Tile.run TileRegs.merge
        dsimp only
        rw [dlate, BitVec.getLsbD_or, BitVec.getLsbD_or, getLsbD_two_pow]
        · simp
        · exact inRange
      · rw [ctx]
        unfold Ctx.raised
        simp [task, going]
  case resume =>
    intro s slot may
    change execArrayResume slot s = _
    unfold execArrayResume
    rw [if_pos may]
    exact (apply_ite Host.Outcome.next _ _ _).symm
  case commit =>
    intro s slot j rest p canon now harray hp first d o
    have wf : tabWf {} s.tiles = true := ((State.canon_iff s).mp canon).tiles
    have answer : exec (.passCommit slot) s = .next (s.commit slot) := if_pos now
    rw [answer]
    unfold State.commit
    extract_lets t o' job ran put recorded
    have tile : ran.tile slot = t.run (fun t => (commitPass t).1) := State.tile_runTile_self wf _ _
    have other (k : Nat) (h : k ≠ slot) : ran.tile k = s.tile k := State.tile_runTile_ne s h _
    obtain ⟨out, idx, empty, loc, ps, sq, tq, commits, last⟩ :=
      commitPass_eq (t := { t with r := t.r.clean }) harray hp first
    have kept : Only [.bufs, .tick] ran recorded := by
      refine Only.withTick (t := put) ?_ rfl
      simp only [put]
      unfold State.putBufRows
      exact .ite (.refl ran) (.withBufs (.refl ran) rfl)
    have late : Only [.eng, .flagCnt] recorded
        (if (recorded.tile slot).array.any (fun j => j.held) then
          recorded.markLate (regionOf slot) (recorded.feeders slot [4]) else recorded) :=
      .ite (.markLate (.refl _) rfl) (.refl _)
    have same : recorded.tile slot = ran.tile slot := State.tile_of_tiles (kept.frame .tiles rfl) slot
    refine ⟨_, rfl, ?_⟩
    have tiles (k : Nat) := (State.tile_of_tiles (late.frame .tiles rfl) k).trans (State.tile_of_tiles (kept.frame .tiles rfl) k)
    simp only [tiles slot, tile]
    refine ⟨idx, loc, ps, sq, tq, commits, last, (late.frame .mem rfl).trans (kept.frame .mem rfl), fun none => ?_,
      fun k hk => (tiles k).trans (other k hk)⟩
    have idle : (ran.tile slot).array = [] := by
      rw [tile]
      exact empty none
    rw [if_neg (by simp [same, idle])]
    exact kept.frame .eng rfl
  case deliver =>
    intro s slot j rest p canon work row harray hp first d
    have wf : tabWf {} s.tiles = true := ((State.canon_iff s).mp canon).tiles
    have answer : exec (.columnResultDelivery slot) s = .next (s.runTile slot deliverRow) :=
      if_pos (by rw [work, row]; rfl)
    rw [answer]
    refine ⟨_, rfl, ?_⟩
    dsimp only
    rw [State.tile_runTile_self wf]
    generalize s.tile slot = t at harray hp ⊢
    unfold Tile.run deliverRow
    simp only [harray, hp]
    rw [first]
    exact ⟨rfl, trivial, trivial, trivial⟩
end Sys2Proof.Machine
end

section
/-! PROOFS. The sequencer's commands and R127's advances (O36, O45). -/

namespace Sys2Proof.Machine

/-- A field whose operation code stands above its operand bits, as a number. -/
theorem toNat_code {k n : Nat} (c : BitVec k) (f : BitVec n) : (c ++ f).toNat = c.toNat * 2 ^ n + f.toNat := by
  rw [BitVec.toNat_append, Nat.shiftLeft_eq, Nat.mul_comm, ← Nat.two_pow_add_eq_or_of_lt f.isLt]

theorem ctlWord_eq (b : Bundle) (cop : BitVec 5) (f : BitVec 15) : ctlWord b cop f =
    cop.toNat * 2 ^ 59 + f.toNat * 2 ^ 44 + b.vec.toNat * 2 ^ 24 + b.x.toNat * 2 ^ 12 + b.y.toNat := by
  unfold ctlWord wordOf
  rw [toNat_code]
  omega

theorem vecWord_eq (b : Bundle) (op : BitVec 6) (f : BitVec 14) : vecWord b op f =
    b.ctl.toNat * 2 ^ 44 + op.toNat * 2 ^ 38 + f.toNat * 2 ^ 24 + b.x.toNat * 2 ^ 12 + b.y.toNat := by
  unfold vecWord wordOf
  rw [toNat_code]
  omega

theorem xWord_eq (b : Bundle) (k : BitVec 2) (f : BitVec 10) : xWord b k f =
    b.ctl.toNat * 2 ^ 44 + b.vec.toNat * 2 ^ 24 + k.toNat * 2 ^ 22 + f.toNat * 2 ^ 12 + b.y.toNat := by
  unfold xWord wordOf
  rw [toNat_code]
  omega

theorem yWord_eq (b : Bundle) (k : BitVec 2) (f : BitVec 10) : yWord b k f =
    b.ctl.toNat * 2 ^ 44 + b.vec.toNat * 2 ^ 24 + b.x.toNat * 2 ^ 12 + k.toNat * 2 ^ 10 + f.toNat := by
  unfold yWord wordOf
  rw [toNat_code]
  omega

/-- The outcome of an operation command, its word given as a number. -/
theorem runOp_of_word (s : State) (slot : Nat) {w v : Nat} (h : w = v) :
    s.runOp slot w = .next (if s.mayRun slot v = true then s.runWord slot v else s) := by
  subst h
  unfold State.runOp
  (repeat' split) <;> rfl

/-- Settles O36: every operation command is `State.runOp` of the word with its code in its field. -/
theorem sequencerCommands : Obligations.SequencerCommands := by
  unfold Obligations.SequencerCommands
  intro s b fc fv fm
  dsimp only
  have ctl (cop : BitVec 5) := runOp_of_word s b.slot (ctlWord_eq b cop fc)
  have vec (op : BitVec 6) := runOp_of_word s b.slot (vecWord_eq b op fv)
  have x (k : BitVec 2) := runOp_of_word s b.slot (xWord_eq b k fm)
  have y (k : BitVec 2) := runOp_of_word s b.slot (yWord_eq b k fm)
  exact ⟨ctl 0, ctl 1, ctl 2, ctl 3, ctl 4, ctl 5, ctl 6, ctl 7, ctl 8, ctl 9, ctl 10, ctl 11, ctl 12, ctl 13, ctl 14, ctl 15,
    ctl 16, ctl 17, ctl 18, ctl 19, ctl 20, ctl 21, ctl 22, ctl 23, vec 0, vec 1, vec 2, vec 3, vec 4, vec 5, vec 6, vec 7,
    vec 8, vec 9, vec 10, vec 11, vec 12, vec 13, vec 14, vec 15, vec 16, vec 17, vec 18, vec 19, x 1, x 2, x 3, y 1, y 2, y 3⟩

theorem revBits_lt (j v : Nat) : revBits j v < 2 ^ j := by
  induction j generalizing v with
  | zero => exact Nat.one_pos
  | succ j ih =>
    have bit : v % 2 * 2 ^ j ≤ 1 * 2 ^ j := Nat.mul_le_mul_right _ (by omega)
    have := ih (v / 2)
    unfold revBits
    omega

theorem testBit_revBits (j v i : Nat) (h : i < j) : (revBits j v).testBit i = v.testBit (j - 1 - i) := by
  induction j generalizing v i with
  | zero => omega
  | succ j ih =>
    unfold revBits
    rw [Nat.mul_comm, Nat.testBit_two_pow_mul_add _ (revBits_lt j _)]
    split
    · rename_i low
      rw [ih _ _ low, ← Nat.testBit_succ]
      congr 1
      omega
    · obtain rfl : i = j := by omega
      simp [Nat.testBit_zero]

/-- One turn of the buffer at most: the sum of R127's circular mode is its remainder. -/
theorem wrapOnce {len x : Int} (lo : -len ≤ x) (hi : x < 2 * len) :
    (let y := if x ≥ len then x - len else x
     if y < 0 then y + len else y) = x % len := by
  dsimp only
  by_cases big : x ≥ len
  · rw [if_pos big, if_neg (by omega), ← Int.sub_emod_right, Int.emod_eq_of_lt (by omega) (by omega)]
  · rw [if_neg big]
    by_cases under : x < 0
    · rw [if_pos under, ← Int.add_emod_right, Int.emod_eq_of_lt (by omega) (by omega)]
    · rw [if_neg under, Int.emod_eq_of_lt (by omega) (by omega)]

/-- Settles O45: `eaOf` and `advOf` mode by mode. -/
theorem advances : Obligations.Advances := by
  unfold Obligations.Advances
  intro r n _ m inc k a b w
  have hmode : modOf r n = m / 2 ^ 30 := by
    have : m < 2 ^ 32 := (look 0 r.m n).isLt
    unfold modOf bitsOf
    omega
  have hlen : lenOf r n = k := rfl
  have hinc : incOf r n = inc := by
    unfold incOf signed
    rfl
  have walks (h : 2 ≤ m / 2 ^ 30) :
      advOf r n = .c (BitVec.ofNat 12 (((w : Int) + inc) % (2 ^ k : Int)).toNat) := by
    unfold advOf
    simp only [hmode, hlen, hinc]
    rw [if_neg (by omega), if_neg (by omega)]
    rfl
  refine ⟨fun h => ⟨?_, ?_⟩, fun h => ⟨?_, fun hb ha lo hi => ?_⟩, fun h _ _ => ⟨?_, walks (Nat.le_of_eq h.symm)⟩,
    fun h _ _ _ => ⟨?_, walks (by omega)⟩, fun j v i h => testBit_revBits j v i h⟩
  · unfold eaOf
    rw [hmode, h]
    rfl
  · unfold advOf
    simp only [hmode, hinc]
    exact if_pos h
  · unfold eaOf
    rw [hmode, h]
    rfl
  · unfold advOf
    simp only [hmode, hinc, hlen]
    rw [if_neg (by omega), if_pos h]
    have size : ((k : Int) + 1) * 64 = ((k + 1) * 64 : Nat) := by push_cast; rfl
    rw [size] at hi lo ⊢
    have turn : ((a : Int) - b + inc) < 2 * ((k + 1) * 64 : Nat) := by omega
    exact congrArg (fun v : Int => Advance.a (BitVec.ofInt 20 (b + v))) (wrapOnce (by omega) turn)
  · unfold eaOf
    rw [hmode, h]
    rfl
  · unfold eaOf
    rw [hmode, h]
    rfl
end Sys2Proof.Machine
end

section
/-! PROOFS. A bundle's frame (O37). -/

namespace Sys2Proof.Machine

/-- A tile whose running context holds 33 lanes, one more than a vector has, in `D0`; `A0` points at the last vector of
Y memory, which a store through it overruns into program memory. -/
def wideTile : Tile := { ctx0 := { r := { a := [(0, 0xFFC0)], d := [(0, List.replicate 33 1)] } } }

/-- The byte after Y memory, the first of program memory, once `wideTile` has stored `D0` to Y memory. -/
theorem wideTile_store : rdByte (runBundle wideTile 0 (2 * 2 ^ 10)).loc 0xB0000 = 1 := by
  decide +kernel

/-- Refutes O37: its second part takes every tile, also one with a data register of more than 32 lanes, whose store to
the last vector of Y memory goes on into program memory. -/
theorem not_bundleFrame : ¬ Obligations.BundleFrame := by
  unfold Obligations.BundleFrame
  intro ⟨_, frame⟩
  obtain ⟨_, _, _, _, _, _, _, _, _, kept⟩ := frame wideTile 0 (2 * 2 ^ 10) (by decide)
  have stays := kept 0xB0000 (.inr (Nat.le_refl _))
  rw [wideTile_store] at stays
  exact absurd stays (by decide)
end Sys2Proof.Machine
end

section
/-! PROOFS. One bundle, field by field. -/

namespace Sys2Proof.Machine

/-- A context as its next bundle finds it: what it waited for is over. -/
def Ctx.fresh (x : Ctx) : Ctx := { x with waitp := false, waitCrd := false, safe := true }

/-- What an intact bundle leaves of its context (R124). -/
def Ctx.done (x : Ctx) (k : CtlAct) (v : VecAct) (mx my : MovAct) : Ctx :=
  let y := advanceCtx { x.fresh with r := writeBack x.r x.ldcr k v mx my, ldcr := k.ldcr } k.flow
  { y with waitp := k.flow == .waitp, yield := y.yield || k.flow == .yield, ended := k.flow == .done }

/-- What an intact bundle leaves of the tile's passes (R118). -/
def passesDone (ps : List PassWork) (c : Nat) (fl : Flow) : List PassWork :=
  if fl = .pass then (match nextRelease ps c with | some i => releaseAt ps i | none => ps)
  else if fl = .done then releaseAll ps c else ps

/-- What an intact bundle leaves of its tile (R124), given what its four fields do. -/
def Tile.done (t : Tile) (c : Nat) (k : CtlAct) (v : VecAct) (mx my : MovAct) : Tile :=
  ({ t with
    loc := wrAll t.loc ([k.store, mx.store, my.store].filterMap id ++ v.store)
    passes := passesDone t.passes c k.flow
    r := { t.r with
      spec := t.r.spec || v.spec
      ovf := t.r.ovf || decide (v.ovf.getD 0 > 0)
      lastCount := match v.ovf with | none => t.r.lastCount | some n => Nat.min n 0xFFFF }
    crq := if v.pop then popRow c t.crq else t.crq } : Tile).setCtx c ((t.ctx c).done k v mx my)

/-- The placement that R138 to R140 do not allow: a control operation in a repeat, in a loop's last bundle or, if it moves
the context, in a delay slot. -/
def misplaced (x : Ctx) (cop : Nat) : Bool :=
  let inLast := match x.loops with | [] => false | l :: _ => l.last == x.pc
  (cop != 0 && (decide (x.rep > 0) || inLast)) || (x.branch.isSome && notInSlot cop)

/-- Both moves load one register, or two fields store through the operand store (R124). -/
def clashing (word : Nat) : Bool :=
  (bitsOf (bitsOf word 23 12) 11 10 == 1 || bitsOf (bitsOf word 23 12) 11 10 == 3) &&
    bitsOf (bitsOf word 11 0) 11 10 == 1 && bitsOf (bitsOf word 23 12) 9 7 == bitsOf (bitsOf word 11 0) 9 7 ||
  bitsOf word 43 38 == 0x13 && bitsOf (bitsOf word 11 0) 11 10 == 3

/-- An intact bundle (R124): none of its fields has a cause, its placement is allowed and it stays in program memory. -/
theorem runBundle_of_intact {t : Tile} {c word : Nat} {k : CtlAct} {v : VecAct} {mx my : MovAct}
    (hk : ctlAct t.loc (t.ctx c).fresh (nextRelease t.passes c).isSome (bitsOf word 63 44) = k)
    (hv : vecAct t c (bitsOf word 43 24) = v) (hx : movAct t.loc (t.ctx c).r true (bitsOf word 23 12) = mx)
    (hy : movAct t.loc (t.ctx c).r false (bitsOf word 11 0) = my) (kc : k.cause = none) (vc : v.cause = none)
    (xc : mx.cause = none) (yc : my.cause = none) (placed : misplaced (t.ctx c) (bitsOf word 63 44 / 2 ^ 15) = false)
    (clear : clashing word = false) (run : v.wait = false)
    (inside : k.flow ≠ .done → (advanceCtx (t.ctx c).fresh k.flow).pc < 8192) :
    runBundle t c word = t.done c k v mx my := by
  subst hk hv hx hy
  unfold runBundle
  extract_lets x pc x' kf cop xf yf k v mx my inLast mis bothLoad twoStores cause4 past
  have hmis : mis = false := placed
  obtain ⟨hboth, htwo⟩ : bothLoad = false ∧ twoStores = false := Bool.or_eq_false_iff.mp clear
  have hpast : past = false := by
    by_cases h : k.flow = .done
    · exact congrArg (fun b => !b && _ && _) (beq_iff_eq.mpr h)
    · exact Bool.and_eq_false_iff.mpr (.inr (decide_eq_false (Nat.not_le.mpr (inside h))))
  have hk : k.cause = none := kc
  have hv : v.cause = none := vc
  have hx : mx.cause = none := xc
  have hy : my.cause = none := yc
  have wait : v.wait = false := run
  have noCause : lowest [k.cause, v.cause, mx.cause, my.cause, cause4, if past then some 7 else none] = none := by
    simp only [cause4, hmis, hboth, htwo, hpast, hk, hv, hx, hy]
    rfl
  rw [noCause]
  dsimp only
  rw [wait, if_neg Bool.false_ne_true]
  rfl

/-! A bundle with one field that does something. -/

theorem movAct_zero (m : Mem) (r : CtxRegs) (isX : Bool) : movAct m r isX 0 = {} := rfl

theorem vecAct_zero (t : Tile) (c : Nat) : vecAct t c 0 = {} := rfl

theorem ctlAct_zero (m : Mem) (x : Ctx) (left : Bool) : ctlAct m x left 0 = {} := rfl

theorem misplaced_zero (x : Ctx) : misplaced x 0 = false := by
  unfold misplaced notInSlot
  simp

theorem clashing_of_noY {word : Nat} (h : bitsOf word 11 0 = 0) : clashing word = false := by
  unfold clashing
  rw [h]
  simp [show bitsOf 0 11 10 = 0 from rfl]

theorem clashing_of_noX {word : Nat} (h : bitsOf word 23 12 = 0) (op : bitsOf word 43 38 = 0) : clashing word = false := by
  unfold clashing
  rw [h, op]
  simp [show bitsOf 0 11 10 = 0 from rfl]

theorem runBundle_ctl {t : Tile} {c cop o : Nat} {k : CtlAct} (hcop : cop < 32) (ho : o < 2 ^ 15)
    (placed : misplaced (t.ctx c) cop = false)
    (hk : ctlAct t.loc (t.ctx c).fresh (nextRelease t.passes c).isSome (cop * 2 ^ 15 + o) = k) (kc : k.cause = none)
    (inside : k.flow ≠ .done → (advanceCtx (t.ctx c).fresh k.flow).pc < 8192) :
    runBundle t c (cop * 2 ^ 59 + o * 2 ^ 44) = t.done c k {} {} {} := by
  have field : bitsOf (cop * 2 ^ 59 + o * 2 ^ 44) 63 44 = cop * 2 ^ 15 + o := by unfold bitsOf; omega
  have vec : bitsOf (cop * 2 ^ 59 + o * 2 ^ 44) 43 24 = 0 := by unfold bitsOf; omega
  have x : bitsOf (cop * 2 ^ 59 + o * 2 ^ 44) 23 12 = 0 := by unfold bitsOf; omega
  have y : bitsOf (cop * 2 ^ 59 + o * 2 ^ 44) 11 0 = 0 := by unfold bitsOf; omega
  refine runBundle_of_intact (by rw [field]; exact hk) (by rw [vec]; exact vecAct_zero t c) (by rw [x]; exact movAct_zero _ _ _) (by rw [y]; exact movAct_zero _ _ _) kc rfl
    rfl rfl ?_ ?_ rfl inside
  · rwa [field, show (cop * 2 ^ 15 + o) / 2 ^ 15 = cop by omega]
  · exact clashing_of_noY y

theorem runBundle_vec {t : Tile} {c f : Nat} {v : VecAct} (hf : f < 2 ^ 20) (hv : vecAct t c f = v)
    (vc : v.cause = none) (run : v.wait = false) (inside : (advanceCtx (t.ctx c).fresh .next).pc < 8192) :
    runBundle t c (f * 2 ^ 24) = t.done c {} v {} {} := by
  have field : bitsOf (f * 2 ^ 24) 43 24 = f := by unfold bitsOf; omega
  have ctl : bitsOf (f * 2 ^ 24) 63 44 = 0 := by unfold bitsOf; omega
  have x : bitsOf (f * 2 ^ 24) 23 12 = 0 := by unfold bitsOf; omega
  have y : bitsOf (f * 2 ^ 24) 11 0 = 0 := by unfold bitsOf; omega
  refine runBundle_of_intact (by rw [ctl]; exact ctlAct_zero _ _ _) (by rw [field]; exact hv) (by rw [x]; exact movAct_zero _ _ _) (by rw [y]; exact movAct_zero _ _ _) rfl vc
    rfl rfl ?_ ?_ run fun _ => inside
  · rw [ctl]
    exact misplaced_zero _
  · exact clashing_of_noY y

theorem runBundle_x {t : Tile} {c f : Nat} {mx : MovAct} (hf : f < 2 ^ 12) (hx : movAct t.loc (t.ctx c).r true f = mx)
    (xc : mx.cause = none) (inside : (advanceCtx (t.ctx c).fresh .next).pc < 8192) :
    runBundle t c (f * 2 ^ 12) = t.done c {} {} mx {} := by
  have field : bitsOf (f * 2 ^ 12) 23 12 = f := by unfold bitsOf; omega
  have ctl : bitsOf (f * 2 ^ 12) 63 44 = 0 := by unfold bitsOf; omega
  have vec : bitsOf (f * 2 ^ 12) 43 24 = 0 := by unfold bitsOf; omega
  have y : bitsOf (f * 2 ^ 12) 11 0 = 0 := by unfold bitsOf; omega
  refine runBundle_of_intact (by rw [ctl]; exact ctlAct_zero _ _ _) (by rw [vec]; exact vecAct_zero t c) (by rw [field]; exact hx) (by rw [y]; exact movAct_zero _ _ _) rfl rfl
    xc rfl ?_ ?_ rfl fun _ => inside
  · rw [ctl]
    exact misplaced_zero _
  · exact clashing_of_noY y

theorem runBundle_y {t : Tile} {c f : Nat} {my : MovAct} (hf : f < 2 ^ 12) (hy : movAct t.loc (t.ctx c).r false f = my)
    (yc : my.cause = none) (inside : (advanceCtx (t.ctx c).fresh .next).pc < 8192) :
    runBundle t c f = t.done c {} {} {} my := by
  have field : bitsOf f 11 0 = f := by unfold bitsOf; omega
  have ctl : bitsOf f 63 44 = 0 := by unfold bitsOf; omega
  have vec : bitsOf f 43 24 = 0 := by unfold bitsOf; omega
  have op : bitsOf f 43 38 = 0 := by unfold bitsOf; omega
  have x : bitsOf f 23 12 = 0 := by unfold bitsOf; omega
  refine runBundle_of_intact (by rw [ctl]; exact ctlAct_zero _ _ _) (by rw [vec]; exact vecAct_zero t c) (by rw [x]; exact movAct_zero _ _ _) (by rw [field]; exact hy) rfl rfl
    rfl yc ?_ ?_ rfl fun _ => inside
  · rw [ctl]
    exact misplaced_zero _
  · exact clashing_of_noX x op

/-! The context after an intact bundle. -/

theorem advanceCtx_with {x : Ctx} (h : x.branch = none) (r : CtxRegs) (l : Option (Nat × Word)) (fl : Flow) :
    advanceCtx { x with r := r, ldcr := l } fl = { advanceCtx x fl with r := r, ldcr := l } := by
  unfold advanceCtx goOn
  rw [h]
  cases fl <;> dsimp only <;> (repeat' split) <;> rfl

theorem Ctx.done_of_noBranch {x : Ctx} (h : x.branch = none) (k : CtlAct) (v : VecAct) (mx my : MovAct) :
    x.done k v mx my = { advanceCtx x.fresh k.flow with
      r := writeBack x.r x.ldcr k v mx my, ldcr := k.ldcr, waitp := k.flow == .waitp,
      yield := (advanceCtx x.fresh k.flow).yield || k.flow == .yield, ended := k.flow == .done } := by
  unfold Ctx.done
  rw [advanceCtx_with (x := x.fresh) h]

theorem Tile.ctx_done (t : Tile) {c : Nat} (h : c < 4) (k : CtlAct) (v : VecAct) (mx my : MovAct) :
    (t.done c k v mx my).ctx c = (t.ctx c).done k v mx my := Tile.ctx_setCtx_self _ h _

theorem Tile.loc_done (t : Tile) (c : Nat) (k : CtlAct) (v : VecAct) (mx my : MovAct) :
    (t.done c k v mx my).loc = wrAll t.loc ([k.store, mx.store, my.store].filterMap id ++ v.store) :=
  Tile.setCtx_loc _ _ _

theorem Tile.passes_done (t : Tile) (c : Nat) (k : CtlAct) (v : VecAct) (mx my : MovAct) :
    (t.done c k v mx my).passes = passesDone t.passes c k.flow := Tile.setCtx_passes _ _ _

theorem Tile.crq_done (t : Tile) (c : Nat) (k : CtlAct) (v : VecAct) (mx my : MovAct) :
    (t.done c k v mx my).crq = if v.pop then popRow c t.crq else t.crq := Tile.setCtx_crq _ _ _

/-- A context with no loop, repeat, branch or load pending, and room for the next two bundles. -/
structure Ctx.Plain (x : Ctx) : Prop where
  rep : x.rep = 0
  branch : x.branch = none
  loops : x.loops = []
  ldcr : x.ldcr = none
  inside : x.pc + 2 < 8192

theorem Ctx.Plain.placed {x : Ctx} (h : x.Plain) (cop : Nat) : misplaced x cop = false := by
  unfold misplaced
  rw [h.rep, h.branch, h.loops]
  simp

theorem goOn_of_noLoops {x : Ctx} (h : x.loops = []) (a : Nat) : goOn x a = { x with pc := a + 1, loops := [], safe := true } := by
  unfold goOn loopEnd
  rw [h]
  rfl

theorem Ctx.Plain.advance_next {x : Ctx} (h : x.Plain) : advanceCtx x.fresh .next = { x.fresh with pc := x.pc + 1 } := by
  unfold advanceCtx
  rw [show x.fresh.branch = none from h.branch]
  dsimp only
  rw [if_neg (by rw [show x.fresh.rep = 0 from h.rep]; decide)]
  unfold goOn loopEnd
  simp only [show x.fresh.loops = [] from h.loops]
  rw [← show x.fresh.rep = 0 from h.rep]
  simp [Ctx.fresh, h.loops, h.branch]

theorem Ctx.Plain.next_inside {x : Ctx} (h : x.Plain) : (advanceCtx x.fresh .next).pc < 8192 := by
  rw [h.advance_next]
  exact Nat.lt_of_succ_lt h.inside

/-- A plain context after a bundle whose control field moves it nowhere. -/
theorem Ctx.Plain.done_next {x : Ctx} (h : x.Plain) {k : CtlAct} (hk : k.flow = .next) (v : VecAct) (mx my : MovAct) :
    x.done k v mx my = { x with
      waitp := false, waitCrd := false, safe := true, ended := false, pc := x.pc + 1,
      r := writeBack x.r none k v mx my, ldcr := k.ldcr } := by
  rw [Ctx.done_of_noBranch h.branch, hk, h.advance_next, h.ldcr]
  simp [Ctx.fresh]

/-! The registers after an intact bundle. -/

/-- What becomes of the registers with every bundle: R143's older values move on. -/
def CtxRegs.aged (r : CtxRegs) : CtxRegs := { r with accPrevA := r.accA, accPrevB := r.accB, aPrev := r.a }

theorem CtxRegs.keepFlags (r : CtxRegs) (b : Bool) :
    (if b = true then r else { r with cstat := r.cstat ||| BitVec.ofNat 3 (4 * b2n false + 2 * b2n false) }) = r := by
  rw [show BitVec.ofNat 3 (4 * b2n false + 2 * b2n false) = 0#3 from rfl, BitVec.or_zero, ite_self]

theorem writeBack_ctl (r : CtxRegs) (k : CtlAct) : writeBack r none k {} {} {} =
    (let q := match k.sat with
      | some b => { r.aged with cstat := (r.cstat &&& 6) ||| BitVec.ofNat 3 (b2n b) }
      | none => r.aged
    let q := match k.areg with | some (n, w) => q.setA n w | none => q
    match k.creg with | some (n, w) => ctlWrite q n w | none => q) := by
  unfold writeBack
  simp only [List.filterMap_nil, List.filterMap_cons, id, List.map_nil, List.foldl_nil]
  rw [CtxRegs.keepFlags]
  rfl

theorem writeBack_nothing (r : CtxRegs) : writeBack r none {} {} {} {} = r.aged := writeBack_ctl r {}

end Sys2Proof.Machine
end

section
/-! PROOFS. The control operations, code by code. -/

namespace Sys2Proof.Machine

/-- Operand bits below and above a gap have none in it. -/
theorem land_gap {l m a : Nat} (h b : Nat) (low : l < 2 ^ a) (gap : m * 2 ^ a < 2 ^ b) :
    (h * 2 ^ b + l) &&& (m * 2 ^ a) = 0 := by
  refine Nat.eq_of_testBit_eq fun i => ?_
  rw [Nat.testBit_and, Nat.zero_testBit, Nat.mul_comm h, Nat.mul_comm m, Nat.testBit_two_pow_mul]
  have ab : l < 2 ^ b ∨ m = 0 := by
    rcases Nat.lt_or_ge a b with ab | ba
    · exact .inl (Nat.lt_of_lt_of_le low (Nat.pow_le_pow_right (by decide) (Nat.le_of_lt ab)))
    · have := Nat.pow_le_pow_right (n := 2) (by decide) ba
      refine .inr (Nat.eq_zero_of_not_pos fun pos => ?_)
      have := Nat.le_mul_of_pos_left (2 ^ a) pos
      omega
  obtain small | rfl := ab
  · rw [Nat.testBit_two_pow_mul_add _ small]
    by_cases hi : a ≤ i
    · split
      · rw [Nat.testBit_lt_two_pow (Nat.lt_of_lt_of_le low (Nat.pow_le_pow_right (by decide) hi)), Bool.false_and]
      · rename_i ge
        have : (m * 2 ^ a).testBit i = false :=
          Nat.testBit_lt_two_pow (Nat.lt_of_lt_of_le gap (Nat.pow_le_pow_right (by decide) (by omega)))
        rw [Nat.mul_comm, Nat.testBit_two_pow_mul, decide_eq_true hi, Bool.true_and] at this
        rw [this, Bool.and_false, Bool.and_false]
    · rw [decide_eq_false hi, Bool.false_and, Bool.and_false]
  · rw [Nat.zero_testBit, Bool.and_false, Bool.and_false]

theorem land_high {l m a : Nat} (b : Nat) (low : l < 2 ^ a) (gap : m * 2 ^ a < 2 ^ b) : l &&& (m * 2 ^ a) = 0 := by
  have := land_gap 0 b low gap
  rwa [Nat.zero_mul, Nat.zero_add] at this

theorem land_low {m : Nat} (h b : Nat) (gap : m < 2 ^ b) : (h * 2 ^ b) &&& m = 0 := by
  have := land_gap (l := 0) (m := m) (a := 0) h b Nat.one_pos (by omega)
  rwa [Nat.add_zero, Nat.pow_zero, Nat.mul_one] at this

/-! The control operations (R137), code by code. -/

section
variable (m : Mem) (x : Ctx) (left : Bool)

theorem ctlAct_jmp {o : Nat} (ho : o < 8192) :
    ctlAct m x left (1 * 2 ^ 15 + o) = { flow := .branch ⟨some o, false⟩ false } := by
  have free : o &&& 0x6000 = 0 := land_high (m := 3) (a := 13) 15 ho (by decide)
  unfold ctlAct
  rw [show (1 * 2 ^ 15 + o) / 2 ^ 15 = 1 by omega, show (1 * 2 ^ 15 + o) % 2 ^ 15 = o by omega]
  simp [unusedBits, free, Nat.mod_eq_of_lt ho]

theorem ctlAct_call {o : Nat} (ho : o < 8192) : ctlAct m x left (2 * 2 ^ 15 + o) =
    { flow := .branch ⟨some o, false⟩ false, areg := some (7, BitVec.ofNat 20 (x.pc + 2)) } := by
  have free : o &&& 0x6000 = 0 := land_high (m := 3) (a := 13) 15 ho (by decide)
  unfold ctlAct
  rw [show (2 * 2 ^ 15 + o) / 2 ^ 15 = 2 by omega, show (2 * 2 ^ 15 + o) % 2 ^ 15 = o by omega]
  simp [unusedBits, free, Nat.mod_eq_of_lt ho]

theorem ctlAct_jmpr {n : Nat} (hn : n < 8) : ctlAct m x left (3 * 2 ^ 15 + n * 2 ^ 12) =
    { flow := .branch ⟨some (aLate x.r n % 8192), false⟩ false } := by
  have free : n * 4096 &&& 4095 = 0 := land_low n 12 (by decide)
  have field : bitsOf (n * 4096) 14 12 = n := by unfold bitsOf; omega
  unfold ctlAct
  rw [show (3 * 2 ^ 15 + n * 2 ^ 12) / 2 ^ 15 = 3 by omega, show (3 * 2 ^ 15 + n * 2 ^ 12) % 2 ^ 15 = n * 2 ^ 12 by omega]
  simp [unusedBits, free, field]

theorem ctlAct_branch {cc n off : Nat} (hcc : cc < 4) (hn : n < 8) (ho : off < 1024) {o : Nat}
    (ho' : o = cc * 2 ^ 13 + n * 2 ^ 10 + off) :
    ctlAct m x left (4 * 2 ^ 15 + o) =
      { flow := .branch ⟨if (cc == 0 || (cc == 1 && aLate x.r n == 0) || (cc == 2 && aLate x.r n != 0) ||
        (cc == 3 && bitAt (aLate x.r n) 19)) = true
          then some (wrapTo 13 ((x.pc : Int) + signed 10 off)) else none, false⟩ false } := by
  have code : bitsOf o 14 13 = cc := by unfold bitsOf; omega
  have reg : bitsOf o 12 10 = n := by unfold bitsOf; omega
  have offset : signed 10 o = signed 10 off := by
    unfold signed
    rw [show o % 2 ^ 10 = off % 2 ^ 10 by omega]
  unfold ctlAct
  rw [show (4 * 2 ^ 15 + o) / 2 ^ 15 = 4 by omega, show (4 * 2 ^ 15 + o) % 2 ^ 15 = o by omega]
  simp [unusedBits, code, reg, offset]

theorem ctlAct_repeatN {o : Nat} (ho : o < 32768) : ctlAct m x left (5 * 2 ^ 15 + o) = { flow := .rep (o + 1) } := by
  unfold ctlAct
  rw [show (5 * 2 ^ 15 + o) / 2 ^ 15 = 5 by omega, show (5 * 2 ^ 15 + o) % 2 ^ 15 = o by omega]
  simp [unusedBits]

theorem ctlAct_repeatA {n : Nat} (hn : n < 8) : ctlAct m x left (6 * 2 ^ 15 + n * 2 ^ 12) =
    if x.r.areg n % 2 ^ 16 = 0 then { flow := .skipOne } else { flow := .rep (x.r.areg n % 2 ^ 16) } := by
  have free : n * 4096 &&& 4095 = 0 := land_low n 12 (by decide)
  have field : bitsOf (n * 4096) 14 12 = n := by unfold bitsOf; omega
  unfold ctlAct
  rw [show (6 * 2 ^ 15 + n * 2 ^ 12) / 2 ^ 15 = 6 by omega, show (6 * 2 ^ 15 + n * 2 ^ 12) % 2 ^ 15 = n * 2 ^ 12 by omega]
  simp [unusedBits, free, field]

theorem ctlAct_doLoop {k off : Nat} (hk : k < 64) (ho : off < 512) {o : Nat} (ho' : o = k * 2 ^ 9 + off) :
    ctlAct m x left (7 * 2 ^ 15 + o) = loopAct x x.pc off (k + 1) := by
  have count : bitsOf o 14 9 = k := by unfold bitsOf; omega
  have last : bitsOf o 8 0 = off := by unfold bitsOf; omega
  unfold ctlAct
  rw [show (7 * 2 ^ 15 + o) / 2 ^ 15 = 7 by omega, show (7 * 2 ^ 15 + o) % 2 ^ 15 = o by omega]
  simp [unusedBits, count, last]

theorem ctlAct_doLoopA {n off : Nat} (hn : n < 8) (ho : off < 512) {o : Nat} (ho' : o = n * 2 ^ 12 + off) :
    ctlAct m x left (8 * 2 ^ 15 + o) = loopAct x x.pc off (x.r.areg n % 2 ^ 16) := by
  have free : o &&& 0x0E00 = 0 := ho' ▸ land_gap (m := 7) (a := 9) n 12 ho (by decide)
  have reg : bitsOf o 14 12 = n := by unfold bitsOf; omega
  have last : bitsOf o 8 0 = off := by unfold bitsOf; omega
  unfold ctlAct
  rw [show (8 * 2 ^ 15 + o) / 2 ^ 15 = 8 by omega, show (8 * 2 ^ 15 + o) % 2 ^ 15 = o by omega]
  simp [unusedBits, free, reg, last]

theorem ctlAct_exit {l : LoopEnt} {rest : List LoopEnt} (h : x.loops = l :: rest) :
    ctlAct m x left (9 * 2 ^ 15 + 0) = { flow := .branch ⟨some (l.last + 1), false⟩ true } := by
  unfold ctlAct
  rw [h]
  rfl

theorem ctlAct_waitp : ctlAct m x left (0xB * 2 ^ 15 + 0) = { flow := .waitp } := rfl

theorem ctlAct_yield : ctlAct m x left (0xC * 2 ^ 15 + 0) = { flow := .yield } := rfl

theorem ctlAct_end : ctlAct m x left (0xD * 2 ^ 15 + 0) = { flow := .done } := rfl

theorem ctlAct_rte (h : x.r.inh = true) :
    ctlAct m x left (0xE * 2 ^ 15 + 0) = { flow := .branch ⟨some x.r.er.toNat, true⟩ false } := if_pos h

theorem ctlAct_setal {n v : Nat} (hn : n < 8) (hv : v < 4096) {o : Nat} (ho' : o = n * 2 ^ 12 + v) :
    ctlAct m x left (0xF * 2 ^ 15 + o) = { areg := some (n, BitVec.ofNat 20 v) } := by
  have reg : bitsOf o 14 12 = n := by unfold bitsOf; omega
  have value : o % 4096 = v := by omega
  unfold ctlAct
  rw [show (0xF * 2 ^ 15 + o) / 2 ^ 15 = 0xF by omega, show (0xF * 2 ^ 15 + o) % 2 ^ 15 = o by omega]
  simp [unusedBits, reg, value]

theorem ctlAct_setah {n v : Nat} (hn : n < 8) (hv : v < 256) {o : Nat} (ho' : o = n * 2 ^ 12 + v) : ctlAct m x left (0x10 * 2 ^ 15 + o) =
    { areg := some (n, BitVec.ofNat 20 (x.r.areg n % 4096 + v * 4096)) } := by
  have free : o &&& 0x0F00 = 0 := ho' ▸ land_gap (m := 0xF) (a := 8) n 12 hv (by decide)
  have reg : bitsOf o 14 12 = n := by unfold bitsOf; omega
  have value : o % 256 = v := by omega
  unfold ctlAct
  rw [show (0x10 * 2 ^ 15 + o) / 2 ^ 15 = 0x10 by omega, show (0x10 * 2 ^ 15 + o) % 2 ^ 15 = o by omega]
  simp [unusedBits, free, reg, value]

theorem ctlAct_inca {n v : Nat} (hn : n < 8) (hv : v < 4096) {o : Nat} (ho' : o = n * 2 ^ 12 + v) : ctlAct m x left (0x11 * 2 ^ 15 + o) =
    { areg := some (n, BitVec.ofInt 20 ((x.r.areg n : Int) + signed 12 v)) } := by
  have reg : bitsOf o 14 12 = n := by unfold bitsOf; omega
  have value : signed 12 o = signed 12 v := by
    unfold signed
    rw [show o % 2 ^ 12 = v % 2 ^ 12 by omega]
  unfold ctlAct
  rw [show (0x11 * 2 ^ 15 + o) / 2 ^ 15 = 0x11 by omega, show (0x11 * 2 ^ 15 + o) % 2 ^ 15 = o by omega]
  simp [unusedBits, reg, value]

theorem ctlAct_movr {rd rs : Nat} (hd : rd < 28) (hs : rs < 32) {o : Nat} (ho' : o = rd * 2 ^ 10 + rs * 2 ^ 5) :
    ctlAct m x left (0x12 * 2 ^ 15 + o) = { creg := some (rd, ctlRead x rs) } := by
  have free : o &&& 0x001F = 0 := by
    rw [ho', show rd * 2 ^ 10 + rs * 2 ^ 5 = (rd * 2 ^ 5 + rs) * 2 ^ 5 by omega]
    exact land_low _ 5 (by decide)
  have dst : bitsOf o 14 10 = rd := by unfold bitsOf; omega
  have src : bitsOf o 9 5 = rs := by unfold bitsOf; omega
  unfold ctlAct
  rw [show (0x12 * 2 ^ 15 + o) / 2 ^ 15 = 0x12 by omega, show (0x12 * 2 ^ 15 + o) % 2 ^ 15 = o by omega]
  simp [unusedBits, free, dst, src, hd]

/-- The operand of `LDCR` and `STCR`: a control register, an address register, and whether it moves on. -/
theorem ldst_fields {q n inc o : Nat} (hq : q < 32) (hn : n < 8) (hi : inc < 2)
    (ho : o = q * 2 ^ 10 + n * 2 ^ 7 + inc * 2 ^ 6) :
    o &&& 0x3F = 0 ∧ bitsOf o 14 10 = q ∧ bitsOf o 9 7 = n ∧ bitAt o 6 = decide (inc = 1) := by
  refine ⟨?_, by unfold bitsOf; omega, by unfold bitsOf; omega, ?_⟩
  · rw [ho, show q * 2 ^ 10 + n * 2 ^ 7 + inc * 2 ^ 6 = (q * 2 ^ 4 + n * 2 + inc) * 2 ^ 6 by omega]
    exact land_low _ 6 (by decide)
  · unfold bitAt
    rw [Nat.testBit_eq_decide_div_mod_eq]
    exact decide_eq_decide.mpr (by omega)

theorem ctlAct_ldcr {q n inc : Nat} (hq : q < 28) (hn : n < 8) (hi : inc < 2) {o : Nat}
    (ho : o = q * 2 ^ 10 + n * 2 ^ 7 + inc * 2 ^ 6) (aligned : x.r.areg n % 4 = 0) (inX : x.r.areg n < 0x10000) :
    ctlAct m x left (0x13 * 2 ^ 15 + o) =
      { areg := if inc = 1 then some (n, BitVec.ofNat 20 (x.r.areg n + 4)) else none,
        ldcr := some (q, BitVec.ofNat 32 (ofLe (rdBytes m (0x90000 + x.r.areg n) 4))) } := by
  obtain ⟨free, ctl, reg, step⟩ := ldst_fields (by omega) hn hi ho
  unfold ctlAct
  rw [show (0x13 * 2 ^ 15 + o) / 2 ^ 15 = 0x13 by omega, show (0x13 * 2 ^ 15 + o) % 2 ^ 15 = o by omega]
  simp [unusedBits, free, ctl, reg, step, aligned, Nat.not_le.mpr inX, Nat.not_le.mpr hq, xBase]

theorem ctlAct_stcr {q n inc : Nat} (hq : q < 32) (hn : n < 8) (hi : inc < 2) {o : Nat}
    (ho : o = q * 2 ^ 10 + n * 2 ^ 7 + inc * 2 ^ 6) (aligned : x.r.areg n % 4 = 0) (inX : x.r.areg n < 0x10000) :
    ctlAct m x left (0x14 * 2 ^ 15 + o) =
      { areg := if inc = 1 then some (n, BitVec.ofNat 20 (x.r.areg n + 4)) else none,
        store := some (0x90000 + x.r.areg n, leBytes 4 (ctlRead x q).toNat) } := by
  obtain ⟨free, ctl, reg, step⟩ := ldst_fields hq hn hi ho
  unfold ctlAct
  rw [show (0x14 * 2 ^ 15 + o) / 2 ^ 15 = 0x14 by omega, show (0x14 * 2 ^ 15 + o) % 2 ^ 15 = o by omega]
  simp [unusedBits, free, ctl, reg, step, aligned, Nat.not_le.mpr inX, xBase]

theorem ctlAct_bxclr : ctlAct m x left (0x15 * 2 ^ 15 + 0) = { creg := some (17, 15) } := rfl

theorem ctlAct_setsat {v : Nat} (hv : v < 2) :
    ctlAct m x left (0x16 * 2 ^ 15 + v) = { sat := some (decide (v = 1)) } := by
  have free : v &&& 0x7FFE = 0 := land_high (m := 0x3FFF) (a := 1) 15 hv (by decide)
  unfold ctlAct
  rw [show (0x16 * 2 ^ 15 + v) / 2 ^ 15 = 0x16 by omega, show (0x16 * 2 ^ 15 + v) % 2 ^ 15 = v by omega]
  simp [unusedBits, free, bitAt, Nat.testBit_zero, Nat.mod_eq_of_lt hv]

theorem ctlAct_vexpa {v : Nat} (hv : v < 4096) : ctlAct m x left (0x17 * 2 ^ 15 + v) =
    { creg := some (16, (BitVec.ofInt 16 (x.r.vexp.toInt + signed 12 v)).setWidth 32) } := by
  have free : v &&& 0x7000 = 0 := land_high (m := 7) (a := 12) 15 hv (by decide)
  unfold ctlAct
  rw [show (0x17 * 2 ^ 15 + v) / 2 ^ 15 = 0x17 by omega, show (0x17 * 2 ^ 15 + v) % 2 ^ 15 = v by omega]
  simp [unusedBits, free]

end
end Sys2Proof.Machine
end

section
/-! PROOFS. Control operations that move the context (O38, O39). -/

namespace Sys2Proof.Machine

/-- A control operation of a plain context that is not `END`. -/
theorem Ctx.Plain.runs {t : Tile} {c cop o : Nat} {k : CtlAct} {y : Ctx} (h : (t.ctx c).Plain) (hc : c < 4)
    (hcop : cop < 32) (ho : o < 2 ^ 15)
    (hk : ctlAct t.loc (t.ctx c).fresh (nextRelease t.passes c).isSome (cop * 2 ^ 15 + o) = k) (kc : k.cause = none)
    (adv : advanceCtx (t.ctx c).fresh k.flow = y) (inside : y.pc < 8192) :
    (runBundle t c (cop * 2 ^ 59 + o * 2 ^ 44)).ctx c = { y with
      r := writeBack (t.ctx c).r none k {} {} {}, ldcr := k.ldcr, waitp := k.flow == .waitp,
      yield := y.yield || k.flow == .yield, ended := k.flow == .done } := by
  rw [runBundle_ctl hcop ho (h.placed cop) hk kc fun _ => adv ▸ inside, Tile.ctx_done _ hc, Ctx.done_of_noBranch h.branch,
    h.ldcr, adv]

theorem advanceCtx_branch {x : Ctx} (h : x.branch = none) (b : DelayedBranch) (leaves : Bool) :
    advanceCtx x.fresh (.branch b leaves) = { x.fresh with
      branch := some b, leaving := leaves, loops := if leaves then x.loops.tail else x.loops, pc := x.pc + 1,
      safe := false } := by
  cases x
  cases h
  rfl

theorem advanceCtx_rep {x : Ctx} (h : x.branch = none) (n : Nat) :
    advanceCtx x.fresh (.rep n) = { x.fresh with rep := n, pc := x.pc + 1, safe := false } := by
  cases x
  cases h
  rfl

theorem advanceCtx_push {x : Ctx} (h : x.branch = none) (l : LoopEnt) :
    advanceCtx x.fresh (.push l) = { x.fresh with loops := l :: x.loops, pc := x.pc + 1, safe := false } := by
  cases x
  cases h
  rfl

theorem Ctx.Plain.advance_skipOne {x : Ctx} (h : x.Plain) :
    advanceCtx x.fresh .skipOne = { x.fresh with pc := x.pc + 2, loops := [] } := by
  obtain ⟨_, branch, loops, _, _⟩ := h
  cases x
  cases branch
  cases loops
  rfl

theorem Ctx.Plain.advance_skipBody {x : Ctx} (h : x.Plain) (last : Nat) :
    advanceCtx x.fresh (.skipBody last) = { x.fresh with pc := last + 1, loops := [] } := by
  obtain ⟨_, branch, loops, _, _⟩ := h
  cases x
  cases branch
  cases loops
  rfl

/-- A loop that begins in a plain context. -/
theorem Ctx.Plain.loopAct_eq {x : Ctx} (h : x.Plain) {off : Nat} (pos : 1 ≤ off) (n : Nat) :
    loopAct x.fresh x.pc off n =
      if n = 0 then { flow := .skipBody (x.pc + off) } else { flow := .push ⟨x.pc + 1, x.pc + off, n⟩ } := by
  unfold loopAct
  rw [if_neg (by omega)]
  simp only [show x.fresh.loops = [] from h.loops]
  rfl

/-- Settles O38: each control operation, what `ctlAct` gives for its code and where `advanceCtx` takes the context. -/
theorem flowOperations : Obligations.FlowOperations := by
  unfold Obligations.FlowOperations
  intro t c hc x rep branch loops ldcr inside u y
  have plain : x.Plain := ⟨rep, branch, loops, ldcr, inside⟩
  have pos : x.pc + 1 < 8192 := Nat.lt_of_succ_lt inside
  have idle := plain.runs hc (k := {}) (cop := 0) (o := 0) (by decide) (by decide) rfl rfl plain.advance_next pos
  rw [writeBack_nothing] at idle
  refine ⟨by rw [show y 0 0 = _ from idle], by rw [show y 0 0 = _ from idle]; rfl, by rw [show y 0 0 = _ from idle]; rfl,
    (congrArg Ctx.branch idle).trans branch, fun k hk => ?jmp, fun k hk wf => ?call, fun n hn => ?jmpr,
    fun cc n off hcc hn hoff => ?branch, fun k hk => ?repeatN, fun n hn => ?repeatA, fun k off hk pos hoff => ?doLoop,
    fun n off hn pos hoff fits => ?doLoopA, fun i next => ?pass, ?waitp, ?yield, ?endTask, fun inh => ?rte⟩
  case jmp =>
    have ran : y 1 (k) = _ := plain.runs hc (cop := 1) (o := k) (by decide) (by omega) (ctlAct_jmp _ _ _ hk) rfl
      (advanceCtx_branch branch _ _) pos
    rw [ran, writeBack_ctl]
    exact ⟨rfl, rfl, rfl⟩
  case call =>
    have ran : y 2 (k) = _ := plain.runs hc (cop := 2) (o := k) (by decide) (by omega) (ctlAct_call _ _ _ hk) rfl
      (advanceCtx_branch branch _ _) pos
    rw [ran, writeBack_ctl]
    refine ⟨rfl, rfl, ?_⟩
    change (look 0 (put 0 x.r.a 7 (BitVec.ofNat 20 (x.pc + 2))) 7).toNat = _
    rw [look_put_self _ _ _ _ wf, BitVec.toNat_ofNat, Nat.mod_eq_of_lt (by omega)]
  case jmpr =>
    have ran : y 3 (n * 2 ^ 12) = _ := plain.runs hc (cop := 3) (o := n * 2 ^ 12) (by decide) (by omega) (ctlAct_jmpr _ _ _ hn) rfl
      (advanceCtx_branch branch _ _) pos
    rw [ran]
    exact ⟨rfl, rfl⟩
  case branch =>
    have ran : y 4 (cc * 2 ^ 13 + n * 2 ^ 10 + off) = _ := plain.runs hc (by decide) (by omega)
      (ctlAct_branch _ _ _ hcc hn hoff rfl) rfl (advanceCtx_branch branch _ _) pos
    intro a holds z dest
    have offset : (x.pc : Int) + signed 10 off = dest := by
      unfold signed
      rw [Nat.mod_eq_of_lt (by omega)]
      simp only [dest]
      (repeat' split) <;> omega
    have taken : (cc == 0 || (cc == 1 && aLate x.r n == 0) || (cc == 2 && aLate x.r n != 0) ||
        (cc == 3 && bitAt (aLate x.r n) 19)) = true ↔ holds := by
      have zero : aLate x.r n = 0 ↔ a = 0 := BitVec.toNat_inj (y := 0)
      have negative : bitAt (aLate x.r n) 19 = a.getLsbD 19 := rfl
      simp only [holds, Bool.or_eq_true, Bool.and_eq_true, beq_iff_eq, bne_iff_ne, ne_eq, zero, negative, or_assoc]
    have moves : z.branch = some ⟨if (cc == 0 || (cc == 1 && aLate x.r n == 0) || (cc == 2 && aLate x.r n != 0) ||
        (cc == 3 && bitAt (aLate x.r n) 19)) = true then some (wrapTo 13 ((x.pc : Int) + signed 10 off)) else none,
          false⟩ := congrArg Ctx.branch ran
    refine ⟨fun h => ?_, fun h => ?_, congrArg Ctx.pc ran⟩
    · rw [moves, if_pos (taken.mpr h), offset]
      rfl
    · rw [moves, if_neg (mt taken.mp h)]
  case repeatN =>
    have ran : y 5 (k) = _ := plain.runs hc (cop := 5) (o := k) (by decide) hk (ctlAct_repeatN _ _ _ hk) rfl
      (advanceCtx_rep branch _) pos
    rw [ran]
    exact ⟨rfl, rfl⟩
  case repeatA =>
    refine ⟨fun zero => ?_, fun some => ?_⟩
    · have ran : y 6 (n * 2 ^ 12) = _ := plain.runs hc (cop := 6) (o := n * 2 ^ 12) (by decide) (by omega)
        ((ctlAct_repeatA _ _ _ hn).trans (if_pos zero)) rfl plain.advance_skipOne inside
      rw [ran]
      exact ⟨rfl, rep⟩
    · have ran : y 6 (n * 2 ^ 12) = _ := plain.runs hc (cop := 6) (o := n * 2 ^ 12) (by decide) (by omega)
        ((ctlAct_repeatA _ _ _ hn).trans (if_neg some)) rfl (advanceCtx_rep branch _) pos
      rw [ran]
      exact ⟨rfl, rfl⟩
  case doLoop =>
    have ran : y 7 (k * 2 ^ 9 + off) = _ := plain.runs hc (cop := 7) (o := k * 2 ^ 9 + off) (by decide) (by omega)
      ((ctlAct_doLoop _ _ _ hk hoff rfl).trans ((plain.loopAct_eq pos _).trans (if_neg (Nat.succ_ne_zero k)))) rfl
      (advanceCtx_push branch _) ‹_›
    exact ran ▸ ⟨congrArg (_ :: ·) loops, rfl⟩
  case doLoopA =>
    refine ⟨fun zero => ?_, fun some => ?_⟩
    · have ran : y 8 (n * 2 ^ 12 + off) = _ := plain.runs hc (cop := 8) (o := n * 2 ^ 12 + off) (by decide) (by omega)
        ((ctlAct_doLoopA _ _ _ hn hoff rfl).trans ((plain.loopAct_eq pos _).trans (if_pos zero))) rfl
        (plain.advance_skipBody _) fits
      rw [ran]
      exact ⟨rfl, rfl⟩
    · have ran : y 8 (n * 2 ^ 12 + off) = _ := plain.runs hc (cop := 8) (o := n * 2 ^ 12 + off) (by decide) (by omega)
        ((ctlAct_doLoopA _ _ _ hn hoff rfl).trans ((plain.loopAct_eq pos _).trans (if_neg some))) rfl
        (advanceCtx_push branch _) ‹_›
      rw [ran]
      exact ⟨congrArg (_ :: ·) loops, rfl⟩
  case pass =>
    change Tile.passes (runBundle t c _) = _
    have there : ctlAct t.loc x.fresh (nextRelease t.passes c).isSome (0xA * 2 ^ 15 + 0) = { flow := .pass } := by
      rw [next]
      rfl
    rw [runBundle_ctl (by decide) (by decide) (plain.placed _) there rfl fun _ => plain.next_inside, Tile.passes_done]
    simp only [passesDone, next]
    rfl
  case waitp =>
    have ran : y 0xB (0) = _ := plain.runs hc (cop := 0xB) (o := 0) (by decide) (by decide) (ctlAct_waitp _ _ _) rfl plain.advance_next pos
    rw [ran]
    exact ⟨rfl, rfl⟩
  case yield =>
    have ran : y 0xC (0) = _ := plain.runs hc (cop := 0xC) (o := 0) (by decide) (by decide) (ctlAct_yield _ _ _) rfl plain.advance_next pos
    rw [ran]
    exact ⟨Bool.or_true _, rfl⟩
  case endTask =>
    have ran := runBundle_ctl (t := t) (c := c) (cop := 0xD) (o := 0) (by decide) (by decide) (plain.placed _)
      (ctlAct_end _ _ _) rfl
      fun going => absurd rfl going
    have ended : y 0xD 0 = _ := (congrArg (Tile.ctx · c) ran).trans (Tile.ctx_done _ hc _ _ _ _)
    rw [ended, show u 0xD 0 = _ from ran, Tile.passes_done]
    refine ⟨rfl, ?_⟩
    simp [passesDone, releaseAll]
  case rte =>
    have ran : y 0xE (0) = _ := plain.runs hc (cop := 0xE) (o := 0) (by decide) (by decide) (ctlAct_rte _ _ _ inh) rfl
      (advanceCtx_branch branch _ _) pos
    rw [ran]
    exact ⟨rfl, rfl⟩

/-! Loops, repeats and delay slots. -/

theorem runBundle_nop {t : Tile} {c : Nat} (inside : (advanceCtx (t.ctx c).fresh .next).pc < 8192) :
    runBundle t c 0 = t.done c {} {} {} {} := runBundle_y (by decide) (movAct_zero _ _ _) rfl inside

/-- The bundle in a delay slot is followed by the target (R138). -/
theorem advanceCtx_slot {x : Ctx} {k : Nat} {rte : Bool} (h : x.branch = some ⟨some k, rte⟩) (fl : Flow) :
    advanceCtx x fl = { x with
      branch := none, leaving := false, pc := k
      r := if rte = true then { x.r with es := x.r.es &&& 0xFDFF#16 } else x.r
      rep := if rte = true then x.repHeld else x.rep
      repHeld := if rte = true then 0 else x.repHeld
      safe := (x.loops.isEmpty || x.leaving) && (if rte = true then x.repHeld else x.rep) == 0 } := by
  cases x
  cases h
  cases rte <;> rfl

theorem Ctx.done_slot {x : Ctx} {k : Nat} {rte : Bool} (h : x.branch = some ⟨some k, rte⟩) (a : CtlAct) (v : VecAct)
    (mx my : MovAct) : ∃ safe, x.done a v mx my = { x.fresh with
      branch := none, leaving := false, pc := k, safe := safe
      r := if rte = true then { writeBack x.r x.ldcr a v mx my with es := (writeBack x.r x.ldcr a v mx my).es &&& 0xFDFF#16 }
        else writeBack x.r x.ldcr a v mx my
      rep := if rte = true then x.repHeld else x.rep
      repHeld := if rte = true then 0 else x.repHeld
      ldcr := a.ldcr, waitp := a.flow == .waitp, yield := x.yield || a.flow == .yield, ended := a.flow == .done } := by
  cases x
  cases h
  cases rte <;> exact ⟨_, rfl⟩

theorem advanceCtx_next {x : Ctx} (h : x.branch = none) : advanceCtx x.fresh .next =
    if x.rep > 1 then { x.fresh with rep := x.rep - 1, safe := false } else goOn { x.fresh with rep := 0 } x.pc := by
  cases x
  cases h
  rfl

/-- Settles O39: `advanceCtx` case by case. -/
theorem loopsAndSlots : Obligations.LoopsAndSlots := by
  unfold Obligations.LoopsAndSlots
  intro t c hc x ldcr inside y
  have pos : x.pc + 1 < 8192 := Nat.lt_of_succ_lt inside
  have ran (z : Ctx) (branch : x.branch = none) (adv : advanceCtx x.fresh .next = z) (fits : z.pc < 8192) :
      y.pc = z.pc ∧ y.loops = z.loops ∧ y.rep = z.rep ∧ y.safe = z.safe := by
    have : y = x.done {} {} {} {} :=
      (congrArg (Tile.ctx · c) (runBundle_nop (adv ▸ fits))).trans (Tile.ctx_done _ hc _ _ _ _)
    rw [this, Ctx.done_of_noBranch branch, adv]
    exact ⟨rfl, rfl, rfl, rfl⟩
  refine ⟨fun k rte branch hk rep => ?slot, fun l rest branch rep loops last left first => ?again,
    fun l branch rep loops last left => ?last, fun l rest branch rep loops inner => ?inner, fun branch rep => ?repeats,
    fun branch rep loops => ?ends, fun l rest branch rep loops inner => ?exit⟩
  case slot =>
    have adv := advanceCtx_slot (x := x.fresh) branch .next
    obtain ⟨_, slot⟩ := Ctx.done_slot branch {} {} {} {}
    have done : y = _ :=
      (congrArg (Tile.ctx · c) (runBundle_nop (adv ▸ hk))).trans ((Tile.ctx_done _ hc _ _ _ _).trans slot)
    rw [done, ldcr, writeBack_nothing]
    refine ⟨rfl, rfl, rfl, ?_, ?_⟩
    · cases rte <;> rfl
    · cases rte
      · exact rep
      · rfl
  case again =>
    have adv : advanceCtx x.fresh .next = _ := (advanceCtx_next branch).trans (if_neg (by omega))
    have at_ : loopEnd x.pc x.loops = (l.first, { l with left := l.left - 1 } :: rest, true) := by
      rw [loops, loopEnd, if_pos last, if_pos left]
    unfold goOn at adv
    simp only [show x.fresh.loops = x.loops from rfl, at_] at adv
    obtain ⟨pc, stack, _, _⟩ := ran _ branch adv first
    exact ⟨pc, stack⟩
  case last =>
    have adv : advanceCtx x.fresh .next = _ := (advanceCtx_next branch).trans (if_neg (by omega))
    have at_ : loopEnd x.pc x.loops = (x.pc + 1, [], true) := by
      rw [loops, loopEnd, if_pos last, if_neg (by omega)]
      rfl
    unfold goOn at adv
    simp only [show x.fresh.loops = x.loops from rfl, at_] at adv
    obtain ⟨pc, stack, _, _⟩ := ran _ branch adv pos
    exact ⟨pc, stack⟩
  case inner =>
    have adv : advanceCtx x.fresh .next = _ := (advanceCtx_next branch).trans (if_neg (by omega))
    have at_ : loopEnd x.pc x.loops = (x.pc + 1, x.loops, false) := by
      rw [loops, loopEnd, if_neg inner]
    unfold goOn at adv
    simp only [show x.fresh.loops = x.loops from rfl, at_] at adv
    obtain ⟨pc, stack, _, _⟩ := ran _ branch adv pos
    exact ⟨pc, stack⟩
  case repeats =>
    obtain ⟨pc, _, left, safe⟩ := ran _ branch ((advanceCtx_next branch).trans (if_pos rep)) (Nat.lt_of_succ_lt pos)
    exact ⟨pc, left, safe⟩
  case ends =>
    have adv : advanceCtx x.fresh .next = _ := (advanceCtx_next branch).trans (if_neg (by omega))
    rw [goOn_of_noLoops (x := { x.fresh with rep := 0 }) loops] at adv
    obtain ⟨pc, _, left, _⟩ := ran _ branch adv pos
    exact ⟨pc, left⟩
  case exit =>
    have placed : misplaced x 9 = false := by
      unfold misplaced
      rw [rep, branch, loops]
      simp [Ne.symm inner]
    have adv := advanceCtx_branch branch ⟨some (l.last + 1), false⟩ true
    have ran := runBundle_ctl (t := t) (c := c) (cop := 9) (o := 0) (by decide) (by decide)
      placed (ctlAct_exit _ (t.ctx c).fresh _ loops) rfl fun _ => adv ▸ pos
    intro z
    have done : z = _ := (congrArg (Tile.ctx · c) ran).trans
      ((Tile.ctx_done _ hc _ _ _ _).trans (Ctx.done_of_noBranch branch _ _ _ _))
    rw [done, adv]
    exact ⟨congrArg List.tail loops, rfl, rfl⟩
end Sys2Proof.Machine
end

section
/-! PROOFS. Register operations (O40). -/

namespace Sys2Proof.Machine

/-- A control operation that leaves a plain context where it was, but for the next address. -/
theorem Ctx.Plain.writes {t : Tile} {c cop o : Nat} {k : CtlAct} (h : (t.ctx c).Plain) (hc : c < 4) (hcop : cop < 32)
    (ho : o < 2 ^ 15) (hk : ctlAct t.loc (t.ctx c).fresh (nextRelease t.passes c).isSome (cop * 2 ^ 15 + o) = k)
    (kc : k.cause = none) (fl : k.flow = .next) :
    runBundle t c (cop * 2 ^ 59 + o * 2 ^ 44) = t.done c k {} {} {} ∧
    (runBundle t c (cop * 2 ^ 59 + o * 2 ^ 44)).ctx c = { t.ctx c with
      waitp := false, waitCrd := false, safe := true, ended := false, pc := (t.ctx c).pc + 1,
      r := writeBack (t.ctx c).r none k {} {} {}, ldcr := k.ldcr } := by
  have ran := runBundle_ctl hcop ho (h.placed cop) hk kc fun _ => fl ▸ h.next_inside
  exact ⟨ran, (congrArg (Tile.ctx · c) ran).trans ((Tile.ctx_done _ hc _ _ _ _).trans (h.done_next fl _ _ _))⟩

/-- An address register that is written, with its companions (R127). -/
theorem CtxRegs.setA_eq {r : CtxRegs} (ha : tabWf 0 r.a = true) (hb : tabWf 0 r.b = true) (hcn : tabWf 0 r.c = true)
    (n : Nat) (v : BitVec 20) : look 0 (r.setA n v).a n = v ∧ look 0 (r.setA n v).b n = v ∧ look 0 (r.setA n v).c n = 0 ∧
      ∀ k, k ≠ n → look 0 (r.setA n v).a k = look 0 r.a k ∧ look 0 (r.setA n v).b k = look 0 r.b k ∧
        look 0 (r.setA n v).c k = look 0 r.c k :=
  ⟨look_put_self _ _ _ _ ha, look_put_self _ _ _ _ hb, look_put_self _ _ _ _ hcn,
    fun _ hk => ⟨look_put_ne _ _ _ _ _ hk, look_put_ne _ _ _ _ _ hk, look_put_ne _ _ _ _ _ hk⟩⟩

theorem writeBack_areg (r : CtxRegs) (n : Nat) (v : BitVec 20) (l : Option (Nat × Word)) (s : Option (Nat × List Byte)) :
    writeBack r none { areg := some (n, v), ldcr := l, store := s } {} {} {} = r.aged.setA n v := writeBack_ctl r _

theorem writeBack_creg (r : CtxRegs) (n : Nat) (v : Word) :
    writeBack r none { creg := some (n, v) } {} {} {} = ctlWrite r.aged n v := writeBack_ctl r _

/-- A value a pending `LDCR` brings, in a bundle that does nothing (R143). -/
theorem writeBack_due (r : CtxRegs) (q : Nat) (w : Word) : writeBack r (some (q, w)) {} {} {} {} =
    { ctlWrite r q w with accPrevA := r.accA, accPrevB := r.accB, aPrev := (ctlWrite r q w).a } := by
  unfold writeBack
  simp only [List.filterMap_nil, List.filterMap_cons, id, List.map_nil, List.foldl_nil]
  exact CtxRegs.keepFlags _ _

theorem signed_twelve {v : Nat} (h : v < 4096) : signed 12 v = if v < 2048 then (v : Int) else (v : Int) - 4096 := by
  unfold signed
  rw [show v % 2 ^ 12 = v by omega]
  rfl

/-- Settles O40: each control operation, what `ctlAct` gives for its code and what `writeBack` makes of it. -/
theorem registerOperations : Obligations.RegisterOperations := by
  unfold Obligations.RegisterOperations
  intro t c hc x rep branch loops ldcr inside wa wb wc wm wl u y sets
  have plain : x.Plain := ⟨rep, branch, loops, ldcr, inside⟩
  have sets_of {z : Ctx} {n : Nat} {v : BitVec 20} (hr : z.r = x.r.aged.setA n v) (pc : z.pc = x.pc + 1) : sets z n v := by
    obtain ⟨a, b, c, others⟩ := CtxRegs.setA_eq (r := x.r.aged) wa wb wc n v
    exact ⟨by rw [hr]; exact a, by rw [hr]; exact b, by rw [hr]; exact c, pc, by rw [hr]; rfl, by rw [hr]; exact others⟩
  have areg_of {cop o n : Nat} {v : BitVec 20} (hcop : cop < 32) (ho : o < 2 ^ 15)
      (hk : ctlAct t.loc x.fresh (nextRelease t.passes c).isSome (cop * 2 ^ 15 + o) = { areg := some (n, v) }) :
      sets (y cop o) n v := by
    have ran : y cop o = _ := (plain.writes hc hcop ho hk rfl rfl).2
    rw [ran, writeBack_areg]
    exact sets_of rfl rfl
  have creg_of {cop o n : Nat} {v : Word} (hcop : cop < 32) (ho : o < 2 ^ 15)
      (hk : ctlAct t.loc x.fresh (nextRelease t.passes c).isSome (cop * 2 ^ 15 + o) = { creg := some (n, v) }) :
      (y cop o).r = ctlWrite x.r.aged n v ∧ (y cop o).pc = x.pc + 1 := by
    have ran : y cop o = _ := (plain.writes hc hcop ho hk rfl rfl).2
    rw [ran, writeBack_creg]
    exact ⟨rfl, rfl⟩
  have movr {rd rs : Nat} (hd : rd < 28) (hs : rs < 32) :
      (y 0x12 (rd * 2 ^ 10 + rs * 2 ^ 5)).r = ctlWrite x.r.aged rd (ctlRead x rs) :=
    (creg_of (by decide) (by omega) (ctlAct_movr _ _ _ hd hs rfl)).1
  have step {z : Ctx} {n inc : Nat} {l : Option (Nat × Word)} {s : Option (Nat × List Byte)} (hi : inc < 2)
      (inX : x.r.areg n < 0x10000)
      (hr : z.r = writeBack x.r none
        { areg := if inc = 1 then some (n, BitVec.ofNat 20 (x.r.areg n + 4)) else none, ldcr := l, store := s } {} {} {}) :
      z.r.areg n = x.r.areg n + 4 * inc := by
    rw [hr]
    obtain rfl | rfl : inc = 0 ∨ inc = 1 := by omega
    · rw [if_neg (by decide), writeBack_ctl]
      rfl
    · rw [if_pos rfl, writeBack_areg]
      change (look 0 (put 0 x.r.a n (BitVec.ofNat 20 (x.r.areg n + 4))) n).toNat = _
      rw [look_put_self _ _ _ _ wa, BitVec.toNat_ofNat, Nat.mod_eq_of_lt (by omega)]
  refine ⟨fun n v hn hv => ?setal, fun n v hn hv => ?setah, fun n v hn hv => ?inca, fun rd rs hd hs => ?movrA,
    fun k rs hk hs => ?movrM, fun rs hs => ?movr, fun q n inc hq hn hi aligned inX => ?ldcr,
    fun q n inc hq hn hi aligned inX => ?stcr, ?bxclr, fun v hv => ?setsat, fun v hv => ?vexpa, fun q w => ?due⟩
  case setal => exact areg_of (by decide) (by omega) (ctlAct_setal _ _ _ hn hv rfl)
  case setah => exact areg_of (by decide) (by omega) (ctlAct_setah _ _ _ hn hv rfl)
  case inca =>
    rw [← signed_twelve hv]
    exact areg_of (by decide) (by omega) (ctlAct_inca _ _ _ hn hv rfl)
  case movrA =>
    obtain ⟨hr, pc⟩ := creg_of (cop := 0x12) (o := rd * 2 ^ 10 + rs * 2 ^ 5) (by decide) (by omega)
      (ctlAct_movr _ _ _ (by omega) hs rfl)
    exact sets_of (hr.trans (if_pos hd)) pc
  case movrM =>
    rw [movr (by omega) hs]
    unfold ctlWrite
    rw [if_neg (by omega), if_pos (by omega), Nat.add_sub_cancel_left]
    exact look_put_self _ _ _ _ wm
  case movr =>
    intro z v
    have mov (rd : Nat) (hd : rd < 28) : z rd = ctlWrite x.r.aged rd v := movr hd hs
    exact ⟨by rw [mov 16 (by decide)]; rfl, by rw [mov 17 (by decide)]; rfl, by rw [mov 18 (by decide)]; rfl,
      by rw [mov 19 (by decide)]; rfl, by rw [mov 20 (by decide)]; rfl, by rw [mov 21 (by decide)]; rfl,
      by rw [mov 22 (by decide)]; rfl, by rw [mov 23 (by decide)]; rfl, by rw [mov 24 (by decide)]; rfl,
      by rw [mov 25 (by decide)]; rfl, by rw [mov 26 (by decide)]; rfl, by rw [mov 27 (by decide)]; rfl⟩
  case ldcr =>
    have ran : y 0x13 (q * 2 ^ 10 + n * 2 ^ 7 + inc * 2 ^ 6) = _ :=
      (plain.writes hc (by decide) (by omega) (ctlAct_ldcr _ _ _ hq hn hi rfl aligned inX) rfl rfl).2
    intro z
    have ran : z = _ := ran
    rw [ran]
    exact ⟨rfl, step hi inX rfl⟩
  case stcr =>
    intro v
    obtain ⟨done, ran⟩ := plain.writes hc (cop := 0x14) (by decide) (by omega)
      (ctlAct_stcr t.loc x.fresh (nextRelease t.passes c).isSome hq hn hi rfl aligned inX) rfl rfl
    have done : v = _ := done
    have ran : v.ctx c = _ := ran
    have loc : v.loc = wrBytes t.loc (0x90000 + x.r.areg n) (leBytes 4 (ctlRead x q).toNat) :=
      (congrArg Tile.loc done).trans (Tile.loc_done _ _ _ _ _ _)
    rw [loc, ran]
    refine ⟨?_, fun a out => ?_, step hi inX rfl⟩
    · have back := rdBytes_wrBytes (leBytes 4 (ctlRead x q).toNat) t.loc (0x90000 + x.r.areg n) wl
      rwa [length_leBytes] at back
    · exact rdByte_wrBytes_out _ _ _ _ (by rwa [length_leBytes])
  case bxclr =>
    rw [(creg_of (by decide) (by decide) (ctlAct_bxclr _ _ _)).1]
    rfl
  case setsat =>
    have ran : y 0x16 v = _ := (plain.writes hc (by decide) (by omega) (ctlAct_setsat _ _ _ hv) rfl rfl).2
    rw [ran, writeBack_ctl]
    obtain rfl | rfl : v = 0 ∨ v = 1 := by omega
    · rfl
    · rfl
  case vexpa =>
    rw [(creg_of (by decide) (by omega) (ctlAct_vexpa _ _ _ hv)).1, ← signed_twelve hv]
    exact (BitVec.setWidth_setWidth_of_le (BitVec.ofInt 16 (x.r.vexp.toInt + signed 12 v)) (show 16 ≤ 32 by decide)).trans
      (BitVec.setWidth_eq _)
  case due =>
    obtain ⟨z, hz⟩ : ∃ z : Ctx, z = { x with ldcr := some (q, w) } := ⟨_, rfl⟩
    have zbranch : z.branch = none := hz ▸ branch
    have zrep : z.rep = 0 := hz ▸ rep
    have zloops : z.loops = [] := hz ▸ loops
    have pc : z.pc = x.pc := hz ▸ rfl
    have adv : advanceCtx z.fresh .next = _ :=
      (advanceCtx_next zbranch).trans ((if_neg (by omega)).trans (goOn_of_noLoops (x := { z.fresh with rep := 0 }) zloops _))
    have self : (t.setCtx c z).ctx c = z := Tile.ctx_setCtx_self _ hc _
    have fits : (advanceCtx ((t.setCtx c z).ctx c).fresh .next).pc < 8192 := by
      rw [self, adv, pc]
      exact Nat.lt_of_succ_lt inside
    rw [← hz, runBundle_nop fits, Tile.ctx_done _ hc, self, Ctx.done_of_noBranch zbranch]
    subst hz
    exact writeBack_due _ _ _
end Sys2Proof.Machine
end

section
/-! PROOFS. Vector operations on registers (O41, O42). -/

namespace Sys2Proof.Machine

/-- The accumulator an operation names (R128). -/
def accOf (r : CtxRegs) (isB : Bool) : List (BitVec 40) := if isB then r.accB else r.accA

/-- The accumulator an operation names, as it stood before the bundle before (R143). -/
def accOld (r : CtxRegs) (isB : Bool) : List (BitVec 40) := if isB then r.accPrevB else r.accPrevA

/-! The vector operations (R128 to R135), code by code. -/

section
variable {t : Tile} {c f : Nat} (low : f % 8 = 0)
include low

theorem vecAct_prd (op : bitsOf f 19 14 = 1) :
    vecAct t c f = { acc := some (bitAt f 7, (lanes2 (· * ·) ((t.ctx c).r.dreg (bitsOf f 13 11)) ((t.ctx c).r.dreg (bitsOf f 10 8))).map (BitVec.ofInt 40)) } := by
  unfold vecAct
  simp [op, low]

theorem vecAct_pra (op : bitsOf f 19 14 = 2) :
    vecAct t c f = { acc := some (bitAt f 7, accAdd (accOf (t.ctx c).r (bitAt f 7)) (lanes2 (· * ·) ((t.ctx c).r.dreg (bitsOf f 13 11)) ((t.ctx c).r.dreg (bitsOf f 10 8)))) } := by
  unfold vecAct
  simp [op, low, accOf]

theorem vecAct_prs (op : bitsOf f 19 14 = 3) :
    vecAct t c f = { acc := some (bitAt f 7, accAdd (accOf (t.ctx c).r (bitAt f 7)) ((lanes2 (· * ·) ((t.ctx c).r.dreg (bitsOf f 13 11)) ((t.ctx c).r.dreg (bitsOf f 10 8))).map (fun v => -v))) } := by
  unfold vecAct
  simp [op, low, accOf]

theorem vecAct_acld (op : bitsOf f 19 14 = 4) :
    vecAct t c f = { acc := some (bitAt f 7, (((t.ctx c).r.dreg (bitsOf f 13 11)).map (fun v => v.toInt * 2 ^ 15)).map (BitVec.ofInt 40)) } := by
  unfold vecAct
  simp [op, low]

theorem vecAct_acad (op : bitsOf f 19 14 = 5) :
    vecAct t c f = { acc := some (bitAt f 7, accAdd (accOf (t.ctx c).r (bitAt f 7)) (((t.ctx c).r.dreg (bitsOf f 13 11)).map (fun v => v.toInt * 2 ^ 15))) } := by
  unfold vecAct
  simp [op, low, accOf]

theorem vecAct_acsb (op : bitsOf f 19 14 = 6) :
    vecAct t c f = { acc := some (bitAt f 7, accAdd (accOf (t.ctx c).r (bitAt f 7)) ((((t.ctx c).r.dreg (bitsOf f 13 11)).map (fun v => v.toInt * 2 ^ 15)).map (fun v => -v))) } := by
  unfold vecAct
  simp [op, low, accOf]

theorem vecAct_acsh (op : bitsOf f 19 14 = 7) :
    vecAct t c f = { acc := some (bitAt f 7, (accOf (t.ctx c).r (bitAt f 7)).map (accShift (signed 6 (bitsOf f 13 8)))) } := by
  unfold vecAct
  simp [op, low, accOf]

theorem vecAct_acrd (op : bitsOf f 19 14 = 8) :
    vecAct t c f = fitLanes (t.ctx c).r (bitsOf f 6 4) (bitAt f 3) ((accOld (t.ctx c).r (bitAt f 7)).map (fun v => rneShift v.toInt (15 + bitsOf f 10 8))) := by
  unfold vecAct
  simp [op, low, accOld]

theorem vecAct_expo (op : bitsOf f 19 14 = 9) :
    vecAct t c f = dResult (t.ctx c).r (bitsOf f 6 4) (bitAt f 3) false ((accOld (t.ctx c).r (bitAt f 7)).map (fun v => BitVec.ofNat 16 (rsb 40 v.toInt))) := by
  unfold vecAct
  simp [op, low, accOld]

theorem vecAct_norm (op : bitsOf f 19 14 = 10) :
    vecAct t c f = { acc := some (bitAt f 7, List.zipWith (fun v d => accShift (normBy d) v) (accOld (t.ctx c).r (bitAt f 7)) ((t.ctx c).r.dreg (bitsOf f 13 11))) } := by
  unfold vecAct
  simp [op, low, accOld]

theorem vecAct_vadd (op : bitsOf f 19 14 = 11) :
    vecAct t c f = fitLanes (t.ctx c).r (bitsOf f 6 4) (bitAt f 3) (lanes2 (· + ·) ((t.ctx c).r.dreg (bitsOf f 13 11)) ((t.ctx c).r.dreg (bitsOf f 10 8))) := by
  unfold vecAct
  simp [op, low]

theorem vecAct_vsub (op : bitsOf f 19 14 = 12) :
    vecAct t c f = fitLanes (t.ctx c).r (bitsOf f 6 4) (bitAt f 3) (lanes2 (· - ·) ((t.ctx c).r.dreg (bitsOf f 13 11)) ((t.ctx c).r.dreg (bitsOf f 10 8))) := by
  unfold vecAct
  simp [op, low]

theorem vecAct_vneg (op : bitsOf f 19 14 = 13) :
    vecAct t c f = fitLanes (t.ctx c).r (bitsOf f 6 4) (bitAt f 3) (((t.ctx c).r.dreg (bitsOf f 13 11)).map (fun v => -v.toInt)) := by
  unfold vecAct
  simp [op, low]

theorem vecAct_vasr (op : bitsOf f 19 14 = 14) :
    vecAct t c f = dResult (t.ctx c).r (bitsOf f 6 4) (bitAt f 3) false (((t.ctx c).r.dreg (bitsOf f 13 11)).map (fun v => BitVec.ofInt 16 (rneShift v.toInt (bitsOf f 10 8)))) := by
  unfold vecAct
  simp [op, low]

theorem vecAct_vmov (op : bitsOf f 19 14 = 15) :
    vecAct t c f = dResult (t.ctx c).r (bitsOf f 6 4) (bitAt f 3) false ((t.ctx c).r.dreg (bitsOf f 13 11)) := by
  unfold vecAct
  simp [op, low]

theorem vecAct_crd (op : bitsOf f 19 14 = 16) :
    vecAct t c f = crdAct t c := by
  unfold vecAct
  simp [op, low]

theorem vecAct_bfc (op : bitsOf f 19 14 = 17) :
    vecAct t c f = { dResult (t.ctx c).r (bitsOf f 6 4) (bitAt f 3) false ((t.ctx c).r.w.map (bfcLane (bfcExp (t.ctx c).r.w))) with
      vexp := some (BitVec.ofInt 16 (bfcExp (t.ctx c).r.w)), spec := (t.ctx c).r.w.any (fun x => !(decode48 x).isFin) } := by
  unfold vecAct
  simp [op, low]

theorem vecAct_flt (op : bitsOf f 19 14 = 18) :
    vecAct t c f = { w := some (((t.ctx c).r.dreg (bitsOf f 13 11)).map (fltLane (t.ctx c).r.vexp.toInt)) } := by
  unfold vecAct
  simp [op, low]

end

theorem vecAct_nop {t : Tile} {c f : Nat} (low : f % 8 = 0) (op : bitsOf f 19 14 = 0) : vecAct t c f = {} := by
  unfold vecAct
  simp [op, low]

theorem vecAct_cst {t : Tile} {c f : Nat} (op : bitsOf f 19 14 = 0x13) :
    vecAct t c f = cstAct (t.job.getD {}) (t.ctx c).r f := by
  unfold vecAct
  simp [op]

/-- The operand bits of a vector operation on registers (R128). -/
theorem vec_fields {op s1 s2 q dd det f : Nat} (h1 : s1 < 8) (h2 : s2 < 8) (hq : q < 2) (hd : dd < 8) (hdet : det < 2)
    (hop : op < 64) (hf : f = op * 2 ^ 14 + (s1 * 2 ^ 11 + s2 * 2 ^ 8 + q * 2 ^ 7 + dd * 2 ^ 4 + det * 2 ^ 3)) :
    bitsOf f 19 14 = op ∧ bitsOf f 13 11 = s1 ∧ bitsOf f 10 8 = s2 ∧ bitAt f 7 = decide (q = 1) ∧ bitsOf f 6 4 = dd ∧
      bitAt f 3 = decide (det = 1) ∧ f % 8 = 0 ∧ bitsOf f 13 8 = s1 * 8 + s2 := by
  refine ⟨by unfold bitsOf; omega, by unfold bitsOf; omega, by unfold bitsOf; omega, ?_, by unfold bitsOf; omega, ?_,
    by omega, by unfold bitsOf; omega⟩
  all_goals
    unfold bitAt
    rw [Nat.testBit_eq_decide_div_mod_eq]
    exact decide_eq_decide.mpr (by omega)

theorem writeBack_acc (r : CtxRegs) (isB : Bool) (l : List (BitVec 40)) :
    writeBack r none {} { acc := some (isB, l) } {} {} =
      if isB = true then { r.aged with accB := l } else { r.aged with accA := l } := by
  unfold writeBack
  simp only [List.filterMap_nil, List.filterMap_cons, id, List.map_nil, List.foldl_nil]
  exact CtxRegs.keepFlags _ _

/-- A vector operation of a plain context. -/
theorem Ctx.Plain.computes {t : Tile} {c f : Nat} {v : VecAct} (h : (t.ctx c).Plain) (hc : c < 4) (hf : f < 2 ^ 20)
    (hv : vecAct t c f = v) (vc : v.cause = none) (run : v.wait = false) :
    runBundle t c (f * 2 ^ 24) = t.done c {} v {} {} ∧
    (runBundle t c (f * 2 ^ 24)).ctx c = { t.ctx c with
      waitp := false, waitCrd := false, safe := true, ended := false, pc := (t.ctx c).pc + 1,
      r := writeBack (t.ctx c).r none {} v {} {}, ldcr := none } := by
  have ran := runBundle_vec hf hv vc run h.next_inside
  exact ⟨ran, (congrArg (Tile.ctx · c) ran).trans ((Tile.ctx_done _ hc _ _ _ _).trans (h.done_next rfl _ _ _))⟩

/-- The product of a lane and 2^15, in 40 bits. -/
theorem wide_lane (v : BitVec 16) : BitVec.ofInt 40 (v.toInt * 2 ^ 15) = v.signExtend 40 <<< 15 := by
  rw [BitVec.ofInt_mul, BitVec.shiftLeft_eq_mul_twoPow]
  rfl

/-- `NORM`'s shift of a lane (R128). -/
theorem accShift_normBy (v : BitVec 40) (d : BitVec 16) : accShift (normBy d) v =
    if 0 ≤ d.toInt - 9 then v <<< (Nat.min (d.toInt - 9).toNat 39)
    else v.sshiftRight (Nat.min (-(d.toInt - 9)).toNat 39) := by
  unfold accShift normBy
  generalize d.toInt - 9 = k
  change (if (if k > 39 then 39 else if k < -39 then -39 else k) ≥ 0 then _ else _) =
    if 0 ≤ k then v <<< min k.toNat 39 else v.sshiftRight (min (-k).toNat 39)
  by_cases high : k > 39
  · rw [if_pos high, if_pos (by decide), if_pos (by omega), show min k.toNat 39 = 39 by omega]
    rfl
  · by_cases low : k < -39
    · rw [if_neg high, if_pos low, if_neg (by decide), if_neg (by omega), show min (-k).toNat 39 = 39 by omega]
      rfl
    · rw [if_neg high, if_neg low, show min k.toNat 39 = k.toNat by omega, show min (-k).toNat 39 = (-k).toNat by omega]

/-- `ACSH`'s shift (R128): a 6-bit number in two's complement. -/
theorem accShift_left {k : Nat} (h : k < 32) (v : BitVec 40) : accShift (signed 6 k) v = v <<< k := by
  have : signed 6 k = k := by
    unfold signed
    dsimp only
    rw [show k % 2 ^ 6 = k by omega, if_pos (by omega)]
  unfold accShift
  rw [this, if_pos (Int.natCast_nonneg k)]
  rfl

theorem accShift_right {k : Nat} (pos : 1 ≤ k) (h : k ≤ 32) (v : BitVec 40) :
    accShift (signed 6 (64 - k)) v = v.sshiftRight k := by
  have : signed 6 (64 - k) = -k := by
    unfold signed
    dsimp only
    rw [show (64 - k) % 2 ^ 6 = 64 - k by omega, if_neg (by omega)]
    omega
  unfold accShift
  rw [this, if_neg (by omega), Int.neg_neg]
  rfl

theorem accAdd_neg (acc : List (BitVec 40)) (l : List Int) :
    accAdd acc (l.map (fun v => -v)) = List.zipWith (fun v w => v - w) acc (l.map (BitVec.ofInt 40)) := by
  unfold accAdd
  rw [List.zipWith_map_right, List.zipWith_map_right]
  simp only [BitVec.ofInt_neg, BitVec.sub_eq_add_neg]

theorem accAdd_eq (acc : List (BitVec 40)) (l : List Int) :
    accAdd acc l = List.zipWith (fun v w => v + w) acc (l.map (BitVec.ofInt 40)) := by
  unfold accAdd
  rw [List.zipWith_map_right]

/-- Settles O41: what `vecAct` gives for each operation on an accumulator. -/
theorem accumulatorOperations : Obligations.AccumulatorOperations := by
  unfold Obligations.AccumulatorOperations
  intro t c s1 s2 q hc h1 h2 hq x rep branch loops ldcr inside a b acc old y gives f p l
  have plain : x.Plain := ⟨rep, branch, loops, ldcr, inside⟩
  have fields (op s1 s2 g : Nat) (hop : op < 64) (h1 : s1 < 8) (h2 : s2 < 8) (hg : g = s1 * 2 ^ 11 + s2 * 2 ^ 8) :=
    vec_fields (dd := 0) (det := 0) (f := op * 2 ^ 14 + (g + q * 2 ^ 7)) h1 h2 hq (by decide) (by decide) hop (by omega)
  have accIs : accOf x.r (decide (q = 1)) = acc := by simp only [accOf, acc, decide_eq_true_eq]
  have oldIs : accOld x.r (decide (q = 1)) = old := by simp only [accOld, old, decide_eq_true_eq]
  have products : (lanes2 (· * ·) a b).map (BitVec.ofInt 40) = p := List.map_zipWith
  have wides : (a.map fun v => v.toInt * 2 ^ 15).map (BitVec.ofInt 40) = l := by
    rw [List.map_map]
    exact List.map_congr_left fun v _ => wide_lane v
  have gives_of {op g : Nat} {m : List (BitVec 40)} (hf : op * 2 ^ 14 + (g + q * 2 ^ 7) < 2 ^ 20)
      (hv : vecAct t c (op * 2 ^ 14 + (g + q * 2 ^ 7)) = { acc := some (decide (q = 1), m) }) : gives (y op g) m := by
    have word : op * 2 ^ 38 + (g + q * 2 ^ 7) * 2 ^ 24 = (op * 2 ^ 14 + (g + q * 2 ^ 7)) * 2 ^ 24 := by omega
    have ran : y op g = _ := (congrArg (fun w => (runBundle t c w).ctx c) word).trans (plain.computes hc hf hv rfl rfl).2
    rw [ran, writeBack_acc]
    obtain rfl | rfl : q = 0 ∨ q = 1 := by omega
    · exact ⟨rfl, rfl, rfl, rfl, rfl, rfl, rfl, rfl⟩
    · exact ⟨rfl, rfl, rfl, rfl, rfl, rfl, rfl, rfl⟩
  refine ⟨?nop, ?prd, ?pra, ?prs, ?acld, ?acad, ?acsb, fun k hk => ?left, fun k pos hk => ?right, ?norm⟩
  case nop =>
    obtain ⟨w, hw⟩ : ∃ w, w = q * 2 ^ 7 := ⟨_, rfl⟩
    have word : 0 * 2 ^ 38 + (0 + q * 2 ^ 7) * 2 ^ 24 = w * 2 ^ 24 := by omega
    have idle : vecAct t c w = {} := vecAct_nop (by omega) (by unfold bitsOf; omega)
    have ran : y 0 0 = _ :=
      (congrArg (fun w => (runBundle t c w).ctx c) word).trans (plain.computes hc (by omega) idle rfl rfl).2
    rw [ran, writeBack_nothing]
    exact ⟨rfl, rfl, rfl, rfl, rfl, rfl, rfl, rfl⟩
  case prd =>
    obtain ⟨o, r1, r2, isB, -, -, low, -⟩ := fields 1 s1 s2 f (by decide) h1 h2 rfl
    refine gives_of (by omega) ?_
    rw [vecAct_prd low o, r1, r2, isB, products]
  case pra =>
    obtain ⟨o, r1, r2, isB, -, -, low, -⟩ := fields 2 s1 s2 f (by decide) h1 h2 rfl
    refine gives_of (by omega) ?_
    rw [vecAct_pra low o, r1, r2, isB, accAdd_eq, products, accIs]
  case prs =>
    obtain ⟨o, r1, r2, isB, -, -, low, -⟩ := fields 3 s1 s2 f (by decide) h1 h2 rfl
    refine gives_of (by omega) ?_
    rw [vecAct_prs low o, r1, r2, isB, accAdd_neg, products, accIs]
  case acld =>
    obtain ⟨o, r1, r2, isB, -, -, low, -⟩ := fields 4 s1 s2 f (by decide) h1 h2 rfl
    refine gives_of (by omega) ?_
    rw [vecAct_acld low o, r1, isB, wides]
  case acad =>
    obtain ⟨o, r1, r2, isB, -, -, low, -⟩ := fields 5 s1 s2 f (by decide) h1 h2 rfl
    refine gives_of (by omega) ?_
    rw [vecAct_acad low o, r1, isB, accAdd_eq, wides, accIs]
  case acsb =>
    obtain ⟨o, r1, r2, isB, -, -, low, -⟩ := fields 6 s1 s2 f (by decide) h1 h2 rfl
    refine gives_of (by omega) ?_
    rw [vecAct_acsb low o, r1, isB, accAdd_neg, wides, accIs]
  case left =>
    obtain ⟨o, -, -, isB, -, -, low, shift⟩ := fields 7 (k / 8) (k % 8) (k * 2 ^ 8) (by decide) (by omega) (by omega) (by omega)
    refine gives_of (by omega) ?_
    rw [vecAct_acsh low o, isB, shift, accIs, show k / 8 * 8 + k % 8 = k by omega]
    rw [show accShift (signed 6 k) = (fun v : BitVec 40 => v <<< k) from funext fun v : BitVec 40 => accShift_left hk v]
  case right =>
    obtain ⟨o, -, -, isB, -, -, low, shift⟩ :=
      fields 7 ((64 - k) / 8) ((64 - k) % 8) ((64 - k) * 2 ^ 8) (by decide) (by omega) (by omega) (by omega)
    refine gives_of (by omega) ?_
    rw [vecAct_acsh low o, isB, shift, accIs, show (64 - k) / 8 * 8 + (64 - k) % 8 = 64 - k by omega]
    rw [show accShift (signed 6 ((64 - k : Nat))) = (fun v : BitVec 40 => v.sshiftRight k) from
      funext fun v : BitVec 40 => accShift_right pos hk v]
  case norm =>
    obtain ⟨o, r1, r2, isB, -, -, low, -⟩ := fields 0xA s1 s2 f (by decide) h1 h2 rfl
    refine gives_of (by omega) ?_
    rw [vecAct_norm low o, r1, isB, oldIs]
    simp only [accShift_normBy]
    rfl

theorem writeBack_d (r : CtxRegs) (n : Nat) (l : List (BitVec 16)) (s : Bool) (e : Option (BitVec 4)) :
    writeBack r none {} { d := some (n, l), qsat := s, bexp := e } {} {} =
      { r.aged with d := put lanes0 r.d n l, bexp := e.getD r.bexp, cstat := r.cstat ||| BitVec.ofNat 3 (2 * b2n s) } := by
  unfold writeBack
  simp only [List.filterMap_nil, List.filterMap_cons, id, List.map_nil, List.foldl_nil]
  cases e <;> cases s <;> rfl

theorem fst_fit16 (sat : Bool) (v : Int) : (fit16 sat v).1 =
    if sat = true then BitVec.ofInt 16 (max (-32768) (min 32767 v)) else BitVec.ofInt 16 v := by
  unfold fit16
  by_cases high : v > 32767
  · rw [if_pos high, show max (-32768) (min 32767 v) = 32767 by omega]
    rfl
  · by_cases low : v < -32768
    · rw [if_neg high, if_pos low, show max (-32768) (min 32767 v) = -32768 by omega]
      rfl
    · rw [if_neg high, if_neg low, show max (-32768) (min 32767 v) = v by omega, ite_self]

theorem snd_fit16 (sat : Bool) (v : Int) : (fit16 sat v).2 = (decide (v < -32768) || decide (32767 < v)) := by
  unfold fit16
  by_cases high : v > 32767
  · rw [if_pos high, decide_eq_true (show 32767 < v from high), Bool.or_true]
  · by_cases low : v < -32768
    · rw [if_neg high, if_pos low, decide_eq_true low, Bool.true_or]
    · rw [if_neg high, if_neg low, decide_eq_false low, decide_eq_false (show ¬ 32767 < v from high), Bool.or_false]

/-- Settles O42: what `vecAct` gives for each operation on a data register. -/
theorem dataRegisterOperations : Obligations.DataRegisterOperations := by
  unfold Obligations.DataRegisterOperations
  intro t c s1 s2 dd q det hc h1 h2 hd hq hdet x rep branch loops ldcr inside wf a b old y low writes fits
  have plain : x.Plain := ⟨rep, branch, loops, ldcr, inside⟩
  have fields (op : Nat) (hop : op < 64) := vec_fields h1 h2 hq hd hdet hop rfl
  have oldIs : accOld x.r (decide (q = 1)) = old := by simp only [accOld, old, decide_eq_true_eq]
  have writes_of {op : Nat} {l : List (BitVec 16)} {sat : Bool} (hop : op < 64)
      (hv : vecAct t c (op * 2 ^ 14 + (s1 * 2 ^ 11 + s2 * 2 ^ 8 + q * 2 ^ 7 + dd * 2 ^ 4 + det * 2 ^ 3)) =
        dResult x.r dd (decide (det = 1)) sat l) : writes (y op) l sat := by
    obtain ⟨g, hg⟩ : ∃ g, g = s1 * 2 ^ 11 + s2 * 2 ^ 8 + q * 2 ^ 7 + dd * 2 ^ 4 + det * 2 ^ 3 := ⟨_, rfl⟩
    rw [← hg] at hv
    have word : op * 2 ^ 38 + (s1 * 2 ^ 11 + s2 * 2 ^ 8 + q * 2 ^ 7 + dd * 2 ^ 4 + det * 2 ^ 3) * 2 ^ 24 =
        (op * 2 ^ 14 + g) * 2 ^ 24 := by omega
    have ran : y op = _ := (congrArg (fun w => (runBundle t c w).ctx c) word).trans
      (plain.computes hc (by omega) hv rfl rfl).2
    rw [ran]
    unfold dResult
    rw [writeBack_d]
    refine ⟨look_put_self _ _ _ _ wf, fun k hk => look_put_ne _ _ _ _ _ hk, ?_, ?_, rfl, rfl, rfl, rfl⟩
    · cases sat <;> rfl
    · obtain rfl | rfl : det = 0 ∨ det = 1 := by omega
      · rfl
      · rfl
  have fits_of {op : Nat} {l : List Int} (hop : op < 64)
      (hv : vecAct t c (op * 2 ^ 14 + (s1 * 2 ^ 11 + s2 * 2 ^ 8 + q * 2 ^ 7 + dd * 2 ^ 4 + det * 2 ^ 3)) =
        fitLanes x.r dd (decide (det = 1)) l) : fits (y op) l := by
    have ran := writes_of hop hv
    rw [List.map_map, List.any_map] at ran
    rw [show (Prod.fst ∘ fit16 x.r.sat) = _ from funext (fst_fit16 x.r.sat),
      show (Prod.snd ∘ fit16 x.r.sat) = _ from funext (snd_fit16 x.r.sat)] at ran
    exact ran
  refine ⟨?acrd, ?expo, ?vadd, ?vsub, ?vneg, ?vasr, ?vmov⟩
  case acrd =>
    obtain ⟨o, r1, r2, isB, rd, detect, low, -⟩ := fields 8 (by decide)
    refine fits_of (by decide) ?_
    rw [vecAct_acrd low o, r2, isB, rd, detect, oldIs]
  case expo =>
    obtain ⟨o, r1, r2, isB, rd, detect, low, -⟩ := fields 9 (by decide)
    refine writes_of (by decide) ?_
    rw [vecAct_expo low o, isB, rd, detect, oldIs]
  case vadd =>
    obtain ⟨o, r1, r2, isB, rd, detect, low, -⟩ := fields 0xB (by decide)
    refine fits_of (by decide) ?_
    rw [vecAct_vadd low o, r1, r2, rd, detect]
    rfl
  case vsub =>
    obtain ⟨o, r1, r2, isB, rd, detect, low, -⟩ := fields 0xC (by decide)
    refine fits_of (by decide) ?_
    rw [vecAct_vsub low o, r1, r2, rd, detect]
    rfl
  case vneg =>
    obtain ⟨o, r1, r2, isB, rd, detect, low, -⟩ := fields 0xD (by decide)
    refine fits_of (by decide) ?_
    rw [vecAct_vneg low o, r1, rd, detect]
  case vasr =>
    obtain ⟨o, r1, r2, isB, rd, detect, low, -⟩ := fields 0xE (by decide)
    refine writes_of (by decide) ?_
    rw [vecAct_vasr low o, r1, r2, rd, detect]
  case vmov =>
    obtain ⟨o, r1, r2, isB, rd, detect, low, -⟩ := fields 0xF (by decide)
    refine writes_of (by decide) ?_
    rw [vecAct_vmov low o, r1, rd, detect]
end Sys2Proof.Machine
end

section
/-! PROOFS. Moves (O44). -/

namespace Sys2Proof.Machine

/-- A move field of kind `kind` on `D[d]` through `A[n]` (R125). -/
theorem mov_fields {kind d n upd f : Nat} (hk : kind < 4) (hd : d < 8) (hn : n < 8) (hu : upd < 2)
    (hf : f = kind * 2 ^ 10 + d * 2 ^ 7 + n * 2 ^ 4 + upd * 2 ^ 3) :
    f < 2 ^ 12 ∧ f % 8 = 0 ∧ bitsOf f 11 10 = kind ∧ bitsOf f 9 7 = d ∧ bitsOf f 6 4 = n ∧ bitAt f 3 = decide (upd = 1) := by
  refine ⟨by omega, by omega, by unfold bitsOf; omega, by unfold bitsOf; omega, by unfold bitsOf; omega, ?_⟩
  unfold bitAt
  rw [Nat.testBit_eq_decide_div_mod_eq]
  exact decide_eq_decide.mpr (by omega)

/-- Where a move of a kind through the X or the Y field finds its memory (R125). -/
def movBase (isX : Bool) (kind : Nat) : Nat := if kind = 3 then 0 else if isX then xBase else yBase

section
variable {m : Mem} {r : CtxRegs} {f : Nat} (isX : Bool) (low : f % 8 = 0) (ok : modOk r (bitsOf f 6 4) = true)
  (aligned : eaOf r (bitsOf f 6 4) % 64 = 0)
  (inside : eaOf r (bitsOf f 6 4) < if bitsOf f 11 10 = 3 then 0x80000 else 0x10000)
include low ok aligned inside

theorem movAct_load (kind : bitsOf f 11 10 = 1 ∨ bitsOf f 11 10 = 3 ∧ isX = true) : movAct m r isX f =
    { load := some (bitsOf f 9 7, readLanes m (movBase isX (bitsOf f 11 10) + eaOf r (bitsOf f 6 4))),
      adv := if bitAt f 3 then some (bitsOf f 6 4) else none } := by
  unfold movAct movBase
  simp only
  rw [if_neg (by omega), if_neg (by omega), if_neg (by rw [ok]; decide), if_neg (by simp [aligned, Nat.not_le.mpr inside]),
    if_pos (by simpa using kind)]

theorem movAct_store (kind : bitsOf f 11 10 = 2 ∨ bitsOf f 11 10 = 3 ∧ isX = false) : movAct m r isX f =
    { store := some (movBase isX (bitsOf f 11 10) + eaOf r (bitsOf f 6 4), laneBytes (r.dreg (bitsOf f 9 7))),
      adv := if bitAt f 3 then some (bitsOf f 6 4) else none, toStore := bitsOf f 11 10 == 3 } := by
  have notLoad : ¬ (bitsOf f 11 10 = 1 ∨ bitsOf f 11 10 = 3 ∧ isX = true) := by
    rintro (h | ⟨h, hx⟩) <;> rcases kind with k | ⟨k, kx⟩ <;> simp_all
  unfold movAct movBase
  simp only
  rw [if_neg (by omega), if_neg (by omega), if_neg (by rw [ok]; decide), if_neg (by simp [aligned, Nat.not_le.mpr inside]),
    if_neg (by simpa using notLoad)]

end

/-- The registers after a move (R124): what it loads, and its advance. -/
def moved (r : CtxRegs) (mv : MovAct) : CtxRegs :=
  let q := match mv.load with | some (n, l) => { r.aged with d := put lanes0 r.d n l } | none => r.aged
  match mv.adv with | some n => putAdv q n (advOf r n) | none => q

theorem writeBack_x (r : CtxRegs) (mv : MovAct) : writeBack r none {} {} mv {} = moved r mv := by
  obtain ⟨cause, load, store, adv, toStore⟩ := mv
  unfold writeBack moved
  cases adv <;> simp only [List.filterMap_nil, List.filterMap_cons, id, List.map_nil, List.map_cons, List.foldl_nil,
    List.foldl_cons, CtxRegs.keepFlags] <;> rfl

theorem writeBack_y (r : CtxRegs) (mv : MovAct) : writeBack r none {} {} {} mv = moved r mv := by
  obtain ⟨cause, load, store, adv, toStore⟩ := mv
  unfold writeBack moved
  cases adv <;> simp only [List.filterMap_nil, List.filterMap_cons, id, List.map_nil, List.map_cons, List.foldl_nil,
    List.foldl_cons, CtxRegs.keepFlags] <;> rfl

theorem putAdv_d (q : CtxRegs) (n : Nat) (a : Advance) : (putAdv q n a).d = q.d := by
  cases a <;> rfl

theorem moved_d (r : CtxRegs) (mv : MovAct) :
    (moved r mv).d = match mv.load with | some (n, l) => put lanes0 r.d n l | none => r.d := by
  obtain ⟨cause, load, store, adv, toStore⟩ := mv
  unfold moved
  cases adv <;> cases load <;> simp only [putAdv_d, CtxRegs.aged]

/-- What an advance of An leaves of the address registers and the walk counters (R127). -/
theorem putAdv_eq {q r : CtxRegs} {n : Nat} (a : q.a = r.a) (c : q.c = r.c) (wa : tabWf 0 r.a = true) (wc : tabWf 0 r.c = true) :
    (modOf r n < 2 → (putAdv q n (advOf r n)).c = r.c ∧ advOf r n = .a (look 0 (putAdv q n (advOf r n)).a n)) ∧
      (2 ≤ modOf r n → (putAdv q n (advOf r n)).a = r.a ∧ advOf r n = .c (look 0 (putAdv q n (advOf r n)).c n)) := by
  have reads (v : BitVec 20) : look 0 (put 0 q.a n v) n = v := look_put_self _ _ _ _ (a ▸ wa)
  have counts (v : BitVec 12) : look 0 (put 0 q.c n v) n = v := look_put_self _ _ _ _ (c ▸ wc)
  refine ⟨fun line => ?_, fun walk => ?_⟩
  · obtain ⟨v, hv⟩ : ∃ v, advOf r n = .a v := by
      unfold advOf
      dsimp only
      by_cases zero : modOf r n = 0
      · exact ⟨_, if_pos zero⟩
      · exact ⟨_, (if_neg zero).trans (if_pos (by omega))⟩
    rw [hv]
    exact ⟨c, congrArg Advance.a (reads v).symm⟩
  · obtain ⟨v, hv⟩ : ∃ v, advOf r n = .c v := ⟨_, (if_neg (by omega)).trans (if_neg (by omega))⟩
    rw [hv]
    exact ⟨a, congrArg Advance.c (counts v).symm⟩

/-- Settles O44: what `movAct` gives for each kind, and what `writeBack` makes of it. -/
theorem moves : Obligations.Moves := by
  unfold Obligations.Moves
  intro t c d n upd hc hd hn hu x rep branch loops ldcr inside wd wa wc ok aligned ea f ux uy steps loads stores
  have plain : x.Plain := ⟨rep, branch, loops, ldcr, inside⟩
  have steps_of {z : Ctx} {l : Option (Nat × List (BitVec 16))} {s : Option (Nat × List Byte)} {b : Bool}
      (pc : z.pc = x.pc + 1)
      (hr : z.r = moved x.r { load := l, store := s, adv := if decide (upd = 1) = true then some n else none, toStore := b }) :
      steps z := by
    obtain ⟨q, ha, hb, hcc, hq⟩ : ∃ q : CtxRegs, q.a = x.r.a ∧ q.b = x.r.b ∧ q.c = x.r.c ∧
        z.r = if upd = 1 then putAdv q n (advOf x.r n) else q := by
      refine ⟨moved x.r { load := l, store := s, toStore := b }, ?_, ?_, ?_, ?_⟩
      · cases l <;> rfl
      · cases l <;> rfl
      · cases l <;> rfl
      · rw [hr]
        obtain rfl | rfl : upd = 0 ∨ upd = 1 := by omega
        · rfl
        · rfl
    obtain ⟨line, walk⟩ := putAdv_eq (n := n) ha hcc wa wc
    refine ⟨fun zero => ?_, fun one mode => ?_, fun one mode => ?_, ?_, pc⟩
    · rw [hq, if_neg (by omega)]
      exact ⟨ha, hcc⟩
    · rw [hq, if_pos one]
      exact line mode
    · rw [hq, if_pos one]
      exact walk mode
    · rw [hq]
      repeat' split
      · cases advOf x.r n <;> exact hb
      · exact hb
  have loads_of {u : Tile} {base : Nat} {isX : Bool} {k : Nat} (kind : k = 1 ∨ k = 3 ∧ isX = true)
      (limit : ea < if k = 3 then 0x80000 else 0x10000) (hb : base = movBase isX k)
      (runs : ∀ mv, movAct t.loc x.r isX (f k) = mv → mv.cause = none →
        u.loc = wrAll t.loc ([mv.store].filterMap id) ∧ (u.ctx c).pc = x.pc + 1 ∧ (u.ctx c).r = moved x.r mv) :
      loads u base := by
    obtain ⟨_, low, hk, hdd, hnn, hup⟩ := mov_fields (f := f k) (by omega) hd hn hu rfl
    have act := movAct_load (m := t.loc) (r := x.r) isX low (by rwa [hnn]) (by rwa [hnn]) (by rwa [hnn, hk]) (by rwa [hk])
    rw [hk, hnn, hdd, hup, ← hb] at act
    obtain ⟨loc, pc, r⟩ := runs _ act rfl
    refine ⟨?_, loc, steps_of pc r⟩
    unfold CtxRegs.dreg
    rw [r, moved_d]
    exact look_put_self _ _ _ _ wd
  have stores_of {u : Tile} {base : Nat} {isX : Bool} {k : Nat} (kind : k = 2 ∨ k = 3 ∧ isX = false)
      (limit : ea < if k = 3 then 0x80000 else 0x10000) (hb : base = movBase isX k)
      (runs : ∀ mv, movAct t.loc x.r isX (f k) = mv → mv.cause = none →
        u.loc = wrAll t.loc ([mv.store].filterMap id) ∧ (u.ctx c).pc = x.pc + 1 ∧ (u.ctx c).r = moved x.r mv) :
      stores u base := by
    obtain ⟨_, low, hk, hdd, hnn, hup⟩ := mov_fields (f := f k) (by omega) hd hn hu rfl
    have act := movAct_store (m := t.loc) (r := x.r) isX low (by rwa [hnn]) (by rwa [hnn]) (by rwa [hnn, hk]) (by rwa [hk])
    rw [hk, hnn, hdd, hup, ← hb] at act
    obtain ⟨loc, pc, r⟩ := runs _ act rfl
    refine ⟨loc, ?_, steps_of pc r⟩
    rw [r, moved_d]
  have runsX (k : Nat) (hk : k < 4) (mv : MovAct) (h : movAct t.loc x.r true (f k) = mv) (ok : mv.cause = none) :
      (ux k).loc = wrAll t.loc ([mv.store].filterMap id) ∧ ((ux k).ctx c).pc = x.pc + 1 ∧
        ((ux k).ctx c).r = moved x.r mv := by
    obtain ⟨small, -⟩ := mov_fields (f := f k) hk hd hn hu rfl
    have ran : ux k = t.done c {} {} mv {} := runBundle_x small h ok plain.next_inside
    rw [ran, Tile.loc_done, Tile.ctx_done _ hc, plain.done_next rfl, writeBack_x]
    exact ⟨by cases mv.store <;> rfl, rfl, rfl⟩
  have runsY (k : Nat) (hk : k < 4) (mv : MovAct) (h : movAct t.loc x.r false (f k) = mv) (ok : mv.cause = none) :
      (uy k).loc = wrAll t.loc ([mv.store].filterMap id) ∧ ((uy k).ctx c).pc = x.pc + 1 ∧
        ((uy k).ctx c).r = moved x.r mv := by
    obtain ⟨small, -⟩ := mov_fields (f := f k) hk hd hn hu rfl
    have ran : uy k = t.done c {} {} {} mv := runBundle_y small h ok plain.next_inside
    rw [ran, Tile.loc_done, Tile.ctx_done _ hc, plain.done_next rfl, writeBack_y]
    exact ⟨by cases mv.store <;> rfl, rfl, rfl⟩
  exact ⟨fun small => ⟨loads_of (.inl rfl) small rfl (runsX 1 (by decide)), stores_of (.inl rfl) small rfl (runsX 2 (by decide)),
      loads_of (.inl rfl) small rfl (runsY 1 (by decide)), stores_of (.inl rfl) small rfl (runsY 2 (by decide))⟩,
    fun small => ⟨loads_of (.inr ⟨rfl, rfl⟩) small rfl (runsX 3 (by decide)),
      stores_of (.inr ⟨rfl, rfl⟩) small rfl (runsY 3 (by decide))⟩⟩

end Sys2Proof.Machine
end

section
/-! PROOFS. The error event (O46). -/

namespace Sys2Proof.Machine

/-- A bundle's causes are numbered from 1 (R142). -/
def Numbered (cause : Option Nat) : Prop := ∀ e, cause = some e → 1 ≤ e

theorem Numbered.none : Numbered none := fun _ h => nomatch h

theorem Numbered.some {n : Nat} (h : 1 ≤ n) : Numbered (some n) := fun _ e => Option.some.inj e ▸ h

theorem Numbered.ite {α : Type} {p : Prop} [Decidable p] {f : α → Option Nat} {a b : α} (ha : Numbered (f a))
    (hb : Numbered (f b)) : Numbered (f (if p then a else b)) := by
  split
  · exact ha
  · exact hb

theorem cstAct_cause (j : TileJob) (r : CtxRegs) (f : Nat) : Numbered (cstAct j r f).cause := by
  unfold cstAct
  dsimp only
  split
  · exact .some (by decide)
  · exact .ite (f := VecAct.cause) (.some (by decide)) (.ite (f := VecAct.cause) (.some (by decide))
      (.ite (f := VecAct.cause) (.some (by decide)) (.ite (f := VecAct.cause) .none .none)))

theorem crdAct_cause (t : Tile) (c : Nat) : Numbered (crdAct t c).cause := by
  unfold crdAct
  split
  · exact .none
  · exact .ite (f := VecAct.cause) .none (.some (by decide))

theorem vecAct_cause (t : Tile) (c f : Nat) : Numbered (vecAct t c f).cause := by
  have next {p : Prop} [Decidable p] {a b : VecAct} (ha : Numbered a.cause) (hb : Numbered b.cause) :
      Numbered (if p then a else b).cause := .ite (f := VecAct.cause) ha hb
  unfold vecAct
  exact next (cstAct_cause _ _ _) (next (.some (by decide)) (next .none (next .none (next .none (next .none (next .none
    (next .none (next .none (next .none (next .none (next .none (next .none (next .none (next .none (next .none (next .none
    (next .none (next (crdAct_cause _ _) (next .none .none)))))))))))))))))))

theorem movAct_cause (m : Mem) (r : CtxRegs) (isX : Bool) (f : Nat) : Numbered (movAct m r isX f).cause := by
  have next {p : Prop} [Decidable p] {a b : MovAct} (ha : Numbered a.cause) (hb : Numbered b.cause) :
      Numbered (if p then a else b).cause := .ite (f := MovAct.cause) ha hb
  unfold movAct
  exact next (.some (by decide)) (next (next .none (.some (by decide))) (next (.some (by decide)) (next (.some (by decide))
    (next .none .none))))

theorem lowest_numbered {l : List (Option Nat)} (h : ∀ o ∈ l, Numbered o) : Numbered (lowest l) := by
  induction l with
  | nil => exact .none
  | cons o l ih =>
    have rest := ih fun o ho => h o (.tail _ ho)
    cases o with
    | none => exact rest
    | some c =>
      have first : 1 ≤ c := h _ (.head _) c rfl
      unfold lowest
      split
      · exact .some first
      · rename_i d least
        have := rest d least
        exact .some (by (repeat' split) <;> assumption)

/-- Cause 1 is the lowest. -/
theorem lowest_one {l : List (Option Nat)} (h : ∀ o ∈ l, Numbered o) : lowest (some 1 :: l) = some 1 := by
  unfold lowest
  split
  · rfl
  · rename_i d least
    rw [if_pos (lowest_numbered h d least)]

/-- A control field with a reserved code (R137). -/
theorem ctlAct_reserved (m : Mem) (x : Ctx) (left : Bool) {f : Nat} (h : 0x17 < f / 2 ^ 15) :
    ctlAct m x left f = { cause := some 1 } :=
  if_pos (Bool.or_eq_true_iff.mpr (.inl (decide_eq_true h)))

/-- The context that a bundle in error leaves to its error event (R142): the next address, and a pending load done. -/
def Ctx.erred (x : Ctx) : Ctx :=
  let r := match x.ldcr with | some (n, w) => ctlWrite x.r n w | none => x.r
  let y := advanceCtx { x.fresh with r := r.aged, ldcr := none } .next
  { y with pc := y.pc % 8192 }

theorem Ctx.erred_eq {x : Ctx} (rep : x.rep = 0) (branch : x.branch = none) (loops : x.loops = []) (ldcr : x.ldcr = none) :
    x.erred = { x.fresh with pc := (x.pc + 1) % 8192, r := x.r.aged } := by
  cases x
  cases rep
  cases branch
  cases loops
  cases ldcr
  rfl

/-- A bundle with a reserved control code, whatever its other fields hold (R142). -/
theorem runBundle_of_reserved {t : Tile} {c word : Nat} (h : 0x18 ≤ word / 2 ^ 59) (hw : word < 2 ^ 64)
    (rep : (t.ctx c).rep = 0) (branch : (t.ctx c).branch = none) (loops : (t.ctx c).loops = [])
    (ldcr : (t.ctx c).ldcr = none) :
    runBundle t c word = raiseError t c { (t.ctx c).fresh with
      pc := ((t.ctx c).pc + 1) % 8192, r := (t.ctx c).r.aged } 1 (t.ctx c).pc := by
  unfold runBundle
  extract_lets x pc x' kf cop xf yf k v mx my inLast mis bothLoad twoStores cause4 past
  have reserved : k = { cause := some 1 } := ctlAct_reserved _ _ _ (by unfold kf bitsOf; omega)
  have causes : lowest [k.cause, v.cause, mx.cause, my.cause, cause4, if past then some 7 else none] = some 1 := by
    rw [reserved]
    have placed : Numbered cause4 := by
      unfold cause4
      exact .ite (f := id) (.some (by decide)) .none
    have kept : Numbered (if past = true then some 7 else none) := .ite (f := id) (.some (by decide)) .none
    refine lowest_one fun o ho => ?_
    simp only [List.mem_cons, List.not_mem_nil, or_false] at ho
    obtain rfl | rfl | rfl | rfl | rfl := ho
    · exact vecAct_cause _ _ _
    · exact movAct_cause _ _ _ _
    · exact movAct_cause _ _ _ _
    · exact placed
    · exact kept
  rw [causes]
  exact congrArg (fun z => raiseError t c z 1 (t.ctx c).pc) (Ctx.erred_eq rep branch loops ldcr)

/-- The tile's error registers after an error event (R142): the first error stays. -/
def TileRegs.failed (g : TileRegs) (taken : Bool) (cause c pc : Nat) : TileRegs :=
  if g.valid then { g with err := true }
  else { g with err := true, valid := true, cause := cause, errCtx := c, taken := taken, errPc := pc % 8192 }

/-- The registers with the cause of an error in `ES` (R142). -/
def CtxRegs.caused (r : CtxRegs) (cause : Nat) : CtxRegs :=
  { r with es := (r.es &&& 0x0FFF#16) ||| BitVec.ofNat 16 (cause * 4096 + 1) }

theorem raiseError_eq (t : Tile) (c : Nat) (x : Ctx) (cause pc : Nat) : raiseError t c x cause pc =
    (let taken := x.r.emask.getLsbD 0 && !(x.r.caused cause).inh
    if taken = true then
      ({ t with r := t.r.failed taken cause c pc } : Tile).setCtx c (takeEvent { x with r := x.r.caused cause } 0)
    else
      ({ t with r := { t.r.failed taken cause c pc with fatal := true }, passes := withdrawAll t.passes c } : Tile).setCtx c
        { x with r := x.r.caused cause, ended := true, rep := 0, branch := none }) := by
  unfold TileRegs.failed
  rfl

theorem inh_caused (r : CtxRegs) : (r.caused 1).inh = r.es.getLsbD 9 := by
  unfold CtxRegs.inh CtxRegs.caused
  rw [BitVec.getLsbD_or, BitVec.getLsbD_and]
  simp

/-- Settles O46: the error event of `raiseError`, taken or fatal. -/
theorem errorEvent : Obligations.ErrorEvent := by
  unfold Obligations.ErrorEvent
  intro t c w hc reserved hw x rep branch loops ldcr inside u y
  have ran : u = _ := runBundle_of_reserved reserved hw rep branch loops ldcr
  rw [Nat.mod_eq_of_lt inside, raiseError_eq] at ran
  dsimp only at ran
  rw [inh_caused] at ran
  have first (taken : Bool) : (t.r.failed taken 1 c x.pc).err = true ∧
      ((t.r.failed taken 1 c x.pc).cause, (t.r.failed taken 1 c x.pc).errCtx, (t.r.failed taken 1 c x.pc).errPc) =
        (if t.r.valid = true then (t.r.cause, t.r.errCtx, t.r.errPc) else (1, c, x.pc)) ∧
      (t.r.failed taken 1 c x.pc).fatal = t.r.fatal := by
    unfold TileRegs.failed
    split
    · exact ⟨rfl, rfl, rfl⟩
    · rw [Nat.mod_eq_of_lt (Nat.lt_of_succ_lt inside)]
      exact ⟨rfl, rfl, rfl⟩
  by_cases taken : (x.r.emask.getLsbD 0 && !x.r.es.getLsbD 9) = true
  · have enabled : x.r.emask.getLsbD 0 = true ∧ x.r.es.getLsbD 9 = false := by simpa using taken
    have ran : u = _ := ran.trans (if_pos taken)
    have hy : y = _ := (congrArg (Tile.ctx · c) ran).trans (Tile.ctx_setCtx_self _ hc _)
    have hr : u.r = t.r.failed _ 1 c x.pc := (congrArg Tile.r ran).trans (Tile.setCtx_r _ _ _)
    obtain ⟨err, cause, fatal⟩ := first (x.r.emask.getLsbD 0 && !x.r.es.getLsbD 9)
    rw [hr, hy]
    refine ⟨(congrArg Tile.loc ran).trans (Tile.setCtx_loc _ _ _), (congrArg Tile.crq ran).trans (Tile.setCtx_crq _ _ _),
      rfl, rfl, rfl, rfl, err, cause, fun _ => ⟨rfl, ?_, ?_, ?_, fatal⟩, fun no => absurd enabled no⟩
    · exact Nat.mod_eq_of_lt (Nat.lt_of_lt_of_le x.r.evb.isLt (by decide))
    · change ((x.r.es &&& 0x0FFF#16 ||| 0x1001#16) &&& ~~~0x31#16) ||| 0x200#16 = (x.r.es &&& 0x0FCE) ||| 0x1200
      rw [BitVec.and_or_distrib_right, BitVec.and_assoc, BitVec.or_assoc]
      rfl
    · exact (congrArg Tile.passes ran).trans (Tile.setCtx_passes _ _ _)
  · have closed : ¬ (x.r.emask.getLsbD 0 = true ∧ x.r.es.getLsbD 9 = false) := by simpa using taken
    have ran : u = _ := ran.trans (if_neg taken)
    have hy : y = _ := (congrArg (Tile.ctx · c) ran).trans (Tile.ctx_setCtx_self _ hc _)
    have hr : u.r = { t.r.failed _ 1 c x.pc with fatal := true } := (congrArg Tile.r ran).trans (Tile.setCtx_r _ _ _)
    obtain ⟨err, cause, -⟩ := first (x.r.emask.getLsbD 0 && !x.r.es.getLsbD 9)
    rw [hr, hy]
    refine ⟨(congrArg Tile.loc ran).trans (Tile.setCtx_loc _ _ _), (congrArg Tile.crq ran).trans (Tile.setCtx_crq _ _ _),
      rfl, rfl, rfl, rfl, err, cause, fun yes => absurd yes closed, fun _ => ⟨rfl, rfl, rfl, ?_⟩⟩
    refine ((congrArg Tile.passes ran).trans (Tile.setCtx_passes _ _ _)).trans ?_
    simp [withdrawAll]
end Sys2Proof.Machine
end

section
/-! PROOFS. Wide operations (O43). -/

namespace Sys2Proof.Machine

theorem writeBack_w (r : CtxRegs) (l : List (BitVec 48)) (pop : Bool) :
    writeBack r none {} { w := some l, pop := pop } {} {} = { r.aged with w := l } := by
  unfold writeBack
  simp only [List.filterMap_nil, List.filterMap_cons, id, List.map_nil, List.foldl_nil]
  exact CtxRegs.keepFlags _ _

theorem writeBack_bfc (r : CtxRegs) (n : Nat) (l : List (BitVec 16)) (b : Option (BitVec 4)) (e : BitVec 16) (s : Bool) :
    writeBack r none {} { d := some (n, l), bexp := b, vexp := some e, spec := s } {} {} =
      { r.aged with d := put lanes0 r.d n l, bexp := b.getD r.bexp, vexp := e,
                    cstat := r.cstat ||| BitVec.ofNat 3 (4 * b2n s) } := by
  unfold writeBack
  simp only [List.filterMap_nil, List.filterMap_cons, id, List.map_nil, List.foldl_nil]
  cases b <;> cases s <;> rfl

theorem writeBack_cst (r : CtxRegs) (st : List (Nat × List Byte)) (e : Option DWord) (o : Option Nat) :
    writeBack r none {} { store := st, eidx := e, ovf := o } {} {} = { r.aged with srEidx := e.getD r.srEidx } := by
  unfold writeBack
  simp only [List.filterMap_nil, List.filterMap_cons, id, List.map_nil, List.foldl_nil]
  cases e <;> exact CtxRegs.keepFlags _ _

/-- A row of codes of whole bytes, packed (R61). -/
theorem packCodes_of_bytes {bits : Nat} (h : bits ≠ 4) (l : List Nat) :
    packCodes bits l = l.flatMap (leBytes (bits / 8)) := by
  induction l with
  | nil => rfl
  | cons a l ih =>
    cases l with
    | nil =>
      rw [packCodes, if_neg h]
      simp
    | cons b l =>
      rw [packCodes, if_neg h, ih]
      rfl

/-- The row taken out of the column-result queue is the context's own (R121). -/
theorem popRow_eq {c : Nat} {l : List CrqRow} {r : CrqRow} (h : l.find? (fun q => q.ctx == c) = some r) :
    (popRow c l).length + 1 = l.length ∧ (popRow c l).filter (fun q => q.ctx != c) = l.filter (fun q => q.ctx != c) := by
  induction l with
  | nil => cases h
  | cons q l ih =>
    unfold popRow
    by_cases own : q.ctx = c
    · rw [if_pos own]
      simp [own]
    · rw [if_neg own]
      rw [List.find?_cons_of_neg (by simpa using own)] at h
      obtain ⟨len, rest⟩ := ih h
      simp [len, rest, own]

/-- `CST` of a format of whole bytes, its address in local memory (R135, R136). -/
theorem cstAct_of_bytes {j : TileJob} {r : CtxRegs} {f code rnd n : Nat} {fmt : Fmt} (hc : bitsOf f 13 8 = code)
    (hr : bitsOf f 7 6 = rnd) (hn : bitsOf f 5 3 = n) (low : f % 8 = 0) (known : Fmt.ofCode code = some fmt)
    (notMx : fmt.isMx = false) (bytes : fmt.bits % 8 = 0) (some_ : 0 < fmt.bits) (round : rnd < 3)
    (aligned : r.areg n % 64 = 0) (inside : r.areg n + 4 * fmt.bits ≤ 0x80000) {how : Nat → Rnd}
    (rounding : ∀ i, rndOf rnd (if rnd = 2 then srWord j.sessSeed j.schedSeed j.counter r.srTid.toNat
      ((r.srEidx.toNat + i) % 2 ^ 64) else 0) = how i) :
    cstAct j r f = { store := [(r.areg n, (List.range 32).flatMap fun i =>
                       leBytes (fmt.bits / 8) (convert fmt (how i) (decode48 (r.w.getD i 0))).1)]
                     eidx := if rnd = 2 then some (r.srEidx + r.srStep.signExtend 64) else none
                     ovf := some ((List.range 32).filter fun i =>
                       (convert fmt (how i) (decode48 (r.w.getD i 0))).2).length } := by
  have noStep : bitAt f 2 = false := by
    unfold bitAt
    rw [Nat.testBit_eq_decide_div_mod_eq]
    exact decide_eq_false (by omega)
  have real : fmt ≠ .none := fun h => by simp [h, Fmt.bits] at some_
  have size : fmt.bits * 4 < 64 → fmt.bits = 8 := by omega
  have grid : r.areg n % (if fmt.bits * 4 < 64 then fmt.bits * 4 else 64) = 0 := by
    by_cases small : fmt.bits * 4 < 64
    · rw [if_pos small, size small]
      omega
    · rw [if_neg small]
      exact aligned
  unfold cstAct
  simp only [hc, hr, hn, known, noStep]
  rw [if_neg (by simp [real]; omega), if_neg (by simp), if_neg (by simp [grid]; omega), if_neg (by simp [notMx]),
    packCodes_of_bytes (by omega), List.map_map, List.map_map, List.flatMap_map, List.filter_map, List.length_map,
    List.filter_map, List.length_map]
  simp only [Function.comp_def, rounding]
  rfl

/-- A bundle whose vector field waits for a row (R121) changes nothing else. -/
theorem runBundle_of_wait {t : Tile} {c word f : Nat} (hv : vecAct t c f = { wait := true }) (field : bitsOf word 43 24 = f)
    (ctl : bitsOf word 63 44 = 0) (hx : bitsOf word 23 12 = 0) (hy : bitsOf word 11 0 = 0) :
    runBundle t c word = t.setCtx c { t.ctx c with waitCrd := true } := by
  unfold runBundle
  extract_lets x pc x' kf cop xf yf k v mx my inLast mis bothLoad twoStores cause4 past
  have waits : v = { wait := true } := by
    unfold v
    rw [field, hv]
  have hk : k = {} := by
    unfold k kf
    rw [ctl]
    rfl
  have placed : mis = false := by
    unfold mis cop kf
    rw [ctl]
    exact misplaced_zero _
  obtain ⟨hboth, htwo⟩ : bothLoad = false ∧ twoStores = false := Bool.or_eq_false_iff.mp (clashing_of_noY hy)
  have stays : past = false := by
    unfold past
    rw [waits]
    exact congrArg (· && _) (Bool.and_false _)
  have hmx : mx.cause = none := by
    unfold mx xf
    rw [hx]
    rfl
  have hmy : my.cause = none := by
    unfold my yf
    rw [hy]
    rfl
  have noCause : lowest [k.cause, v.cause, mx.cause, my.cause, cause4, if past then some 7 else none] = none := by
    simp only [cause4, placed, hboth, htwo, stays, hk, waits, hmx, hmy]
    rfl
  rw [noCause]
  dsimp only
  rw [waits, if_pos rfl]

theorem map_bfcLane (w : List (BitVec 48)) (e : Int) : w.map (bfcLane e) = w.map (fun v => match decode48 v with
    | .nan => 0
    | .inf neg => if neg = true then 0x8000 else 0x7FFF
    | .fin neg m q =>
      let k := roundTo .rne m q e
      if neg = true then BitVec.ofInt 16 (-(k : Int)) else BitVec.ofNat 16 (Nat.min k 32767)) := by
  refine List.map_congr_left fun v _ => ?_
  unfold bfcLane
  cases decode48 v with
  | nan => rfl
  | inf neg => rfl
  | fin neg m q =>
    dsimp only
    generalize roundTo .rne m q e = k
    split
    · rfl
    · split
      · rw [show Nat.min k 32767 = 32767 from Nat.min_eq_right (by omega)]
      · rw [show Nat.min k 32767 = k from Nat.min_eq_left (by omega)]

/-- Settles O43: what `vecAct` gives for `CRD`, `BFC`, `FLT` and `CST`. -/
theorem wideOperations : Obligations.WideOperations := by
  unfold Obligations.WideOperations
  intro t c s1 dd det hc h1 hd hdet x rep branch loops ldcr inside wf u y
  have plain : x.Plain := ⟨rep, branch, loops, ldcr, inside⟩
  have fields (op : Nat) (hop : op < 64) := vec_fields (s1 := s1) (s2 := 0) (q := 0) (dd := dd) (det := det)
    (f := op * 2 ^ 14 + (s1 * 2 ^ 11 + dd * 2 ^ 4 + det * 2 ^ 3)) h1 (by decide) (by decide) hd hdet hop (by omega)
  have word (op : Nat) : op * 2 ^ 38 + (s1 * 2 ^ 11 + dd * 2 ^ 4 + det * 2 ^ 3) * 2 ^ 24 =
    (op * 2 ^ 14 + (s1 * 2 ^ 11 + dd * 2 ^ 4 + det * 2 ^ 3)) * 2 ^ 24 := by omega
  have done {op : Nat} {v : VecAct} (hop : op < 64)
      (hv : vecAct t c (op * 2 ^ 14 + (s1 * 2 ^ 11 + dd * 2 ^ 4 + det * 2 ^ 3)) = v) (vc : v.cause = none)
      (run : v.wait = false) :
      u op = t.done c {} v {} {} ∧ y op = { x with
        waitp := false, waitCrd := false, safe := true, ended := false, pc := x.pc + 1,
        r := writeBack x.r none {} v {} {}, ldcr := none } := by
    obtain ⟨tile, ctx⟩ := plain.computes (f := op * 2 ^ 14 + (s1 * 2 ^ 11 + dd * 2 ^ 4 + det * 2 ^ 3)) hc (by omega) hv vc run
    exact ⟨(congrArg (runBundle t c) (word op)).trans tile, (congrArg (fun w => (runBundle t c w).ctx c) (word op)).trans ctx⟩
  refine ⟨fun r found => ?crd, fun none_ due => ?waits, ?bfc, ?flt, ?fltD, ?cst⟩
  case crd =>
    obtain ⟨o, -, -, -, -, -, low, -⟩ := fields 0x10 (by decide)
    have act : crdAct t c = { w := some r.vals, pop := true } := by
      unfold crdAct
      rw [found]
    obtain ⟨tile, ctx⟩ := done (by decide) ((vecAct_crd low o).trans act) rfl rfl
    obtain ⟨len, rest⟩ := popRow_eq found
    rw [ctx, writeBack_w, tile, Tile.crq_done]
    exact ⟨rfl, rfl, len, rest⟩
  case waits =>
    obtain ⟨o, -, -, -, -, -, low, -⟩ := fields 0x10 (by decide)
    have act : crdAct t c = { wait := true } := by
      unfold crdAct
      rw [none_]
      exact if_pos due
    exact (congrArg (runBundle t c) (word 0x10)).trans (runBundle_of_wait ((vecAct_crd low o).trans act)
      (by unfold bitsOf; omega) (by unfold bitsOf; omega) (by unfold bitsOf; omega) (by unfold bitsOf; omega))
  case bfc =>
    obtain ⟨o, -, -, -, rd, detect, low, -⟩ := fields 0x11 (by decide)
    obtain ⟨-, ctx⟩ := done (by decide) (vecAct_bfc low o) rfl rfl
    intro z top e
    have ctx : z = _ := ctx
    rw [ctx, rd, detect]
    unfold dResult
    rw [writeBack_bfc]
    refine ⟨rfl, rfl, ?_, ?_⟩
    · exact (look_put_self _ _ _ _ wf).trans (map_bfcLane _ _)
    · cases x.r.w.any (fun v => !(decode48 v).isFin) <;> rfl
  case flt =>
    obtain ⟨o, r1, -, -, -, -, low, -⟩ := fields 0x12 (by decide)
    obtain ⟨-, ctx⟩ := done (by decide) (vecAct_flt low o) rfl rfl
    rw [ctx, writeBack_w, r1]
    rfl
  case fltD =>
    obtain ⟨o, r1, -, -, -, -, low, -⟩ := fields 0x12 (by decide)
    obtain ⟨-, ctx⟩ := done (by decide) (vecAct_flt low o) rfl rfl
    rw [ctx, writeBack_w]
    rfl
  case cst =>
    intro code fmt rnd n hcode known notMx bytes some_ round hn aligned fits z j how
    obtain ⟨f, hf⟩ : ∃ f, f = 0x13 * 2 ^ 14 + code * 2 ^ 8 + rnd * 2 ^ 6 + n * 2 ^ 3 := ⟨_, rfl⟩
    have rounding (i : Nat) : rndOf rnd (if rnd = 2 then srWord j.sessSeed j.schedSeed j.counter x.r.srTid.toNat
        ((x.r.srEidx.toNat + i) % 2 ^ 64) else 0) = how i := by
      obtain rfl | rfl | rfl : rnd = 0 ∨ rnd = 1 ∨ rnd = 2 := by omega
      · rfl
      · rfl
      · rfl
    have act := (vecAct_cst (t := t) (c := c) (f := f) (by unfold bitsOf; omega)).trans
      (cstAct_of_bytes (code := code) (rnd := rnd) (n := n) (by unfold bitsOf; omega) (by unfold bitsOf; omega)
        (by unfold bitsOf; omega) (by omega) known notMx bytes some_ round aligned fits rounding)
    obtain ⟨tile, ctx⟩ := plain.computes hc (by omega) act rfl rfl
    have tile : z = _ := (congrArg (fun f => runBundle t c (f * 2 ^ 24)) hf.symm).trans tile
    have ctx : z.ctx c = _ := (congrArg (fun f => (runBundle t c (f * 2 ^ 24)).ctx c) hf.symm).trans ctx
    rw [ctx, writeBack_cst]
    refine ⟨(congrArg Tile.loc tile).trans (Tile.loc_done _ _ _ _ _ _), ?_, ?_, rfl, rfl⟩
    · rw [tile]
      refine (congrArg TileRegs.lastCount (Tile.setCtx_r _ _ _)).trans (Nat.min_eq_left ?_)
      exact Nat.le_trans (List.length_filter_le _ _) (by rw [List.length_range]; decide)
    · dsimp only
      (repeat' split) <;> rfl
end Sys2Proof.Machine
end

section
/-! PROOFS. Encoding a wide value (O47). -/

namespace Sys2Proof.Machine

/-- The magnitude 1.f x 2^(e - 1023), encoded (R93): nothing is rounded away. -/
theorem encode48_of_fields (neg : Bool) {e f : Nat} (e1 : 1 ≤ e) (e2 : e < 0x7FF) (hf : f < 2 ^ 36) :
    encode48 neg (2 ^ 36 + f) ((e : Int) - 1023 - 36) =
      (if neg then 0x800000000000#48 else 0#48) ||| BitVec.ofNat 48 (e * 2 ^ 36 + f) := by
  have top : Nat.log2 (2 ^ 36 + f) = 36 := (Nat.log2_eq_iff (by omega)).mpr ⟨by omega, by omega⟩
  have unit : expOf (2 ^ 36 + f) ((e : Int) - 1023 - 36) - 36 = (e : Int) - 1023 - 36 := by
    unfold expOf
    rw [top]
    omega
  have exact_ : roundTo .rne (2 ^ 36 + f) ((e : Int) - 1023 - 36) ((e : Int) - 1023 - 36) = 2 ^ 36 + f := by
    unfold roundTo
    rw [if_pos (Int.le_refl _), Int.sub_self]
    exact Nat.mul_one _
  have small : ¬ 2 ^ 36 + f ≥ 2 ^ 37 := by omega
  unfold encode48
  rw [if_neg (by omega)]
  dsimp only
  rw [unit, exact_, if_neg small]
  dsimp only
  rw [if_neg (by omega), if_neg (by omega), Nat.add_sub_cancel_left,
    show ((e : Int) - 1023 - 36 + 36 + 1023).toNat = e by omega]

/-- A word from its sign, exponent and fraction (R92). -/
theorem word48_of_fields (w : BitVec 48) : w = (if w.getLsbD 47 then 0x800000000000#48 else 0#48) |||
    BitVec.ofNat 48 (w.toNat / 2 ^ 36 % 2 ^ 11 * 2 ^ 36 + w.toNat % 2 ^ 36) := by
  have bound := w.isLt
  have sign : w.getLsbD 47 = decide (w.toNat / 2 ^ 47 % 2 = 1) := Nat.testBit_eq_decide_div_mod_eq
  have low : w.toNat / 2 ^ 36 % 2 ^ 11 * 2 ^ 36 + w.toNat % 2 ^ 36 = w.toNat % 2 ^ 47 := by omega
  rw [sign, low]
  refine BitVec.eq_of_toNat_eq ?_
  rw [BitVec.toNat_or, BitVec.toNat_ofNat, Nat.mod_eq_of_lt (a := w.toNat % 2 ^ 47) (by omega)]
  by_cases neg : w.toNat / 2 ^ 47 % 2 = 1
  · rw [decide_eq_true neg, if_pos rfl]
    have := Nat.two_pow_add_eq_or_of_lt (Nat.mod_lt w.toNat (show 0 < 2 ^ 47 by decide)) 1
    rw [Nat.mul_one] at this
    exact (show w.toNat = 2 ^ 47 + w.toNat % 2 ^ 47 by omega).trans this
  · rw [decide_eq_false neg, if_neg Bool.false_ne_true]
    exact (show w.toNat = w.toNat % 2 ^ 47 by omega).trans (Nat.zero_or _).symm

/-- Settles O47: a finite word that is no zero has its fraction's leading bit at 2^36, and encoding keeps it there. -/
theorem wideRoundTrip : Obligations.WideRoundTrip := by
  unfold Obligations.WideRoundTrip
  intro w neg m q decoded nonzero
  unfold decode48 at decoded
  dsimp only at decoded
  split at decoded
  · cases decoded
    exact absurd rfl nonzero
  · rename_i e0
    split at decoded
    · split at decoded <;> cases decoded
    · cases decoded
      rw [encode48_of_fields _ (Nat.one_le_iff_ne_zero.mpr e0) (by omega) (Nat.mod_lt _ (by decide))]
      exact (word48_of_fields w).symm
end Sys2Proof.Machine
end

section
/-! PROOFS. Registers at reset (O7). -/

namespace Sys2Proof.Machine

/-! The parts of the reset state that a register shows at a number which no table lists. -/

theorem clamped_reset (r : Nat) : State.reset.clamped r = false := BitVec.getLsbD_zero

theorem fabGone_reset (r : Nat) : State.reset.fabGone r = false := by
  change (((0#64).getLsbD r || (0#32).getLsbD (r / 2)) || (0#64).getLsbD r) = false
  simp only [BitVec.getLsbD_zero, Bool.or_false]

theorem tier_reset (lp : Bool) : State.reset.tier lp = {} := by
  cases lp <;> rfl

theorem lane_reset (l : Nat) : State.reset.units.retiredLanes.getLsbD l = false := BitVec.getLsbD_zero

theorem pwrRegion_reset (r : Nat) : State.reset.regValue (.pwrRegion r) = 0 := by
  simp only [State.regValue, clamped_reset]
  change State.reset.regValue (.pwrRegion 0) = 0
  decide +kernel

theorem memStatus_reset (n : Nat) : State.reset.regValue (.memStatus n) = 0 := by
  simp only [State.regValue, tier_reset]
  change State.reset.regValue (.memStatus 0) = 0
  decide +kernel

theorem memRetired_reset (n : Nat) : State.reset.regValue (.memRetired n) = 0 := by
  have units : State.reset.memCtl n = {} := rfl
  simp only [State.regValue, units, State.flags]
  exact (congrArg (0#32 ||| ·) (ite_self _)).trans rfl

theorem fabStatus_reset (r : Nat) : State.reset.regValue (.fabStatus r) = 0x40000000 := by
  simp only [State.regValue, fabGone_reset]
  change State.reset.regValue (.fabStatus 0) = 0x40000000
  decide +kernel

theorem ftxStatus_reset (l : Nat) : State.reset.regValue (.ftxStatus l) = 0x60000000 := by
  simp only [State.regValue, lane_reset]
  change State.reset.regValue (.ftxStatus 0) = 0x60000000
  decide +kernel

theorem gateIsle_reset {i : Nat} (h : i ≠ 0) : State.reset.regValue (.gateIsle i) = 0 := by
  simp only [State.regValue, State.gateIsle, State.flags]
  rw [show look 0 State.reset.clk.gateIsle i = 0 from if_neg h]
  exact BitVec.or_zero

/-- Every register of a kind as the first of it reads at reset. -/
theorem same_at_reset {v : Nat → Word} {w : Word} (same : ∀ n, v n = v 0) (first : v 0 = w) : ∀ n, v n = w :=
  fun n => (same n).trans first

theorem same_at_reset₂ {v : Nat → Nat → Word} {w : Word} (same : ∀ r n, v r n = v 0 0) (first : v 0 0 = w) :
    ∀ r n, v r n = w := fun r n => (same r n).trans first

/-- Settles O7: the registers of a part before power is good, in the order of their sections. -/
theorem registersAtReset : Obligations.RegistersAtReset := by
  unfold Obligations.RegistersAtReset
  exact ⟨by decide +kernel, by decide +kernel, by decide +kernel, by decide +kernel, by decide +kernel,
    by decide +kernel, by decide +kernel, by decide +kernel, by decide +kernel, by decide +kernel,
    by decide +kernel, by decide +kernel, by decide +kernel, same_at_reset (fun _ => rfl) (by decide +kernel),
    by decide +kernel, fun _ => gateIsle_reset, by decide +kernel, by decide +kernel, by decide +kernel,
    pwrRegion_reset, same_at_reset (fun _ => rfl) (by decide +kernel),
    same_at_reset (fun _ => rfl) (by decide +kernel), same_at_reset₂ (fun _ _ => rfl) (by decide +kernel),
    same_at_reset₂ (fun _ _ => rfl) (by decide +kernel), same_at_reset₂ (fun _ _ => rfl) (by decide +kernel),
    same_at_reset₂ (fun _ _ => rfl) (by decide +kernel), same_at_reset (fun _ => rfl) (by decide +kernel),
    same_at_reset (fun _ => rfl) (by decide +kernel), same_at_reset (fun _ => rfl) (by decide +kernel),
    same_at_reset (fun _ => rfl) (by decide +kernel), memStatus_reset,
    same_at_reset (fun _ => rfl) (by decide +kernel), same_at_reset (fun _ => rfl) (by decide +kernel),
    same_at_reset (fun _ => rfl) (by decide +kernel), memRetired_reset, by decide +kernel, by decide +kernel,
    by decide +kernel, by decide +kernel, fabStatus_reset, same_at_reset₂ (fun _ _ => rfl) (by decide +kernel),
    same_at_reset₂ (fun _ _ => rfl) (by decide +kernel), same_at_reset₂ (fun _ _ => rfl) (by decide +kernel),
    same_at_reset (fun _ => rfl) (by decide +kernel), same_at_reset (fun _ => rfl) (by decide +kernel),
    same_at_reset (fun _ => rfl) (by decide +kernel), same_at_reset (fun _ => rfl) (by decide +kernel),
    by decide +kernel, by decide +kernel, same_at_reset (fun _ => rfl) (by decide +kernel), by decide +kernel,
    by decide +kernel, by decide +kernel, same_at_reset (fun _ => rfl) (by decide +kernel), ftxStatus_reset,
    same_at_reset (fun _ => rfl) (by decide +kernel), by decide +kernel, by decide +kernel, by decide +kernel,
    by decide +kernel, by decide +kernel, by decide +kernel, by decide +kernel, by decide +kernel,
    same_at_reset (fun _ => rfl) (by decide +kernel), same_at_reset (fun _ => rfl) (by decide +kernel),
    same_at_reset (fun _ => rfl) (by decide +kernel), same_at_reset (fun _ => rfl) (by decide +kernel),
    by decide +kernel⟩

end Sys2Proof.Machine
end

section
/-! PROOFS. Register reads and writes (O10, O11). -/

namespace Sys2Proof.Machine

theorem latchKey_lowWord {g : Reg} (h : isLowWord g = true) : latchKey g = 0 := by
  cases g <;> trivial

/-- A low word's read (R10). -/
theorem State.readReg_lowWord (s : State) {g : Reg} (h : isLowWord g = true) : s.readReg g = (s.regValue g,
    { s with latch := (latches g).foldl (fun t h => put none t (latchKey h) (some (s.regValue h))) s.latch }) := by
  unfold State.readReg
  rw [if_pos (latchKey_lowWord h)]
  cases g <;> trivial

/-- Settles O10: reads of low words, and the cases of `State.readMailbox`. -/
theorem lowWordReads : Obligations.LowWordReads := by
  unfold Obligations.LowWordReads
  refine ⟨fun s addr g at_ low good on => ?_, fun s n off len reach hn pos fits => ?_⟩
  · have takes : s.takes g = true := Bool.and_eq_true_iff.mpr ⟨good, on⟩
    change Host.Outcome.next (s.latchRead addr 4) = _
    unfold State.latchRead
    rw [at_]
    dsimp only
    rw [low, takes, if_pos (by decide), State.readReg_lowWord s low]
  · intro gives
    have read {b : List Byte} (h : s.readMailbox n off len = (b, s)) : gives b := by
      change Host.Outcome.next (s.latchRead _ len) = _
      unfold State.latchRead
      rw [regOf_window hn (by omega)]
      dsimp only
      rw [reach, if_pos rfl]
      unfold State.readBar
      rw [mailboxAt_window hn pos fits]
      dsimp only
      rw [h]
    refine ⟨fun lo hi => read ?_, fun outside odd => read ?_, fun here word => read ?_⟩
    · unfold State.readMailbox inlineAt
      rw [if_pos (by simp [lo, hi])]
    · unfold State.readMailbox inlineAt windowTakes
      rw [if_neg (by simpa using outside), if_neg (by simpa using odd)]
    · subst here word
      rfl

/-- Settles O11: what `State.writeReg` makes of each write. -/
theorem registerWrites : Obligations.RegisterWrites := by
  unfold Obligations.RegisterWrites
  refine ⟨fun s w good on => ?_, fun s w good => ?_, fun s r w good hr => ?_, fun s i w good hi => ?_,
    fun s addr g w hw at_ good on flags => ?_⟩
  · intro p
    have takes : s.takes .tickCtrl = true := Bool.and_eq_true_iff.mpr ⟨good, on⟩
    change (if s.takes .tickCtrl = true then Host.Outcome.next (s.writeReg .tickCtrl w 0) else .next s) = _
    rw [if_pos takes]
    unfold State.writeReg State.tickCtrlRefused
    simp only [Bool.and_eq_true, decide_eq_true_eq, bne_iff_ne, and_assoc]
    rfl
  · have takes : s.takes .flagSel = true := Bool.and_eq_true_iff.mpr ⟨good, rfl⟩
    exact if_pos takes
  · have takes : s.takes (.gateRegion r) = true := Bool.and_eq_true_iff.mpr ⟨good, rfl⟩
    have answer : exec (.clockGateWrite false r w) s = .next ((s.putGate false r w).noteGate (.gateRegion r) w) :=
      if_pos (by rw [Bool.and_eq_true_iff]; exact ⟨takes, decide_eq_true hr⟩)
    rw [answer]
    exact ⟨_, rfl, rfl⟩
  · have takes : s.takes (.gateIsle i) = true := Bool.and_eq_true_iff.mpr ⟨good, rfl⟩
    have answer : exec (.clockGateWrite true i w) s = .next ((s.putGate true i w).noteGate (.gateIsle i) w) :=
      if_pos (by rw [Bool.and_eq_true_iff]; exact ⟨takes, decide_eq_true hi⟩)
    rw [answer]
    exact ⟨_, rfl, rfl⟩
  · have takes : s.takes g = true := Bool.and_eq_true_iff.mpr ⟨good, on⟩
    have other : ownRow g = false := by
      cases g <;> trivial
    change Host.Outcome.next (s.plainWrite addr _ hw) = _
    unfold State.plainWrite
    rw [at_]
    dsimp only
    rw [takes, other, length_leBytes, ofNat_ofLe_leBytes, if_pos (by decide)]
    have written : s.writeReg g w hw = s.w1c g w hw := by
      cases g <;> trivial
    rw [written]
end Sys2Proof.Machine
end

section
/-! PROOFS. The root of trust and the sealed key store (O58). -/

namespace Sys2Proof.Machine

theorem validAnswer_some (key nonce : List Byte) (a : RbAnswer) :
    validAnswer key nonce (some a) = if rbValid key nonce a = true then some a.counter else none := rfl

/-- `RB_ADV_FAIL` as hardware sets it. -/
theorem State.rbAdvFail_raise (s : State) : ((s.raise .secStatus 0x10000000).flags .secStatus).getLsbD 28 = true ∧
    (s.raise .secStatus 0x10000000).sec.rbCounter = s.sec.rbCounter ∧
    (s.raise .secStatus 0x10000000).sec.rbRetry = s.sec.rbRetry ∧
    (s.raise .secStatus 0x10000000).out = s.out := by
  refine ⟨?_, rfl, rfl, rfl⟩
  have bits (a b : Bool) : (bitsW [(28, (bitsW [(28, a), (27, b)] ||| (0x10000000#32 &&& 0x18000000#32)).getLsbD 28),
      (27, (bitsW [(28, a), (27, b)] ||| (0x10000000#32 &&& 0x18000000#32)).getLsbD 27)]).getLsbD 28 = true := by
    revert a b
    decide
  exact bits s.sec.rbAdvFail s.sec.schedAuthFail

/-- The read that ends an enrolment (R424). -/
theorem State.enrol_eq (s : State) (nonce : List Byte) (a : RbAnswer) : s.enrol nonce (some a) =
    if s.sec.idKey.isSome = true ∧ rbValid s.sec.rbKey nonce a = true then
      { s with sec := { s.sec with rbKey := [] }, flash := { s.flash with enrolment := some s.sec.rbKey } }
    else { s with sec := { s.sec with rbKey := [] } } := by
  unfold State.enrol
  dsimp only
  rw [validAnswer_some]
  by_cases valid : rbValid s.sec.rbKey nonce a = true
  · by_cases identity : s.sec.idKey.isSome = true
    · simp [valid, identity]
    · simp [valid, identity]
  · simp [valid]

/-- An operation of the store on an envelope with a fault (R426). -/
theorem State.sealOp_of_fault {s : State} {c : Nat} (h : s.envelopeFault s.envelope = some c) (ok : Bool)
    (act : List Byte → Except Nat State) : s.sealOp ok act = s.sealEnd c := by
  unfold State.sealOp
  rw [h]

theorem State.sealOp_of_right {s : State} (h : s.envelopeFault s.envelope = none) (ok : Bool)
    (act : List Byte → Except Nat State) : s.sealOp ok act = match act s.envelope with
      | .error c => s.sealEnd c
      | .ok t => if ok then t.sealEnd 0 else s.sealEnd 5 := by
  unfold State.sealOp
  rw [h] <;> rfl

/-- An envelope without a fault that a key write takes is one of a key write (R426). -/
theorem State.key_write_of_right {s : State} (h : s.envelopeFault s.envelope = none) (op : s.sealing 1 = true) :
    fld s.envelope 4 4 = ((s.sealSlot (fld s.envelope 1 1)).gen + 1) % 2 ^ 32 ∧ fld s.envelope 1 1 < 8 := by
  unfold State.envelopeFault at h
  unfold State.sealing at op
  dsimp only at h op
  split at h
  · cases h
  · rename_i known
    split at h
    · cases h
    · simp only [Bool.not_eq_true, Bool.not_eq_false', Bool.and_eq_true, decide_eq_true_eq] at known op
      obtain ⟨⟨⟨⟨⟨listed, slot⟩, -⟩, -⟩, -⟩, -⟩ := known
      obtain ⟨-, write⟩ := op
      rw [listed, Bool.not_true, Bool.or_false, beq_iff_eq] at write
      rw [if_neg (by omega : ¬ fld s.envelope 0 1 = 3)] at h
      split at h
      · cases h
      · rename_i newer
        rw [Bool.not_eq_true, Bool.not_eq_false', beq_iff_eq] at newer
        exact ⟨newer, slot⟩

/-- Settles O58: each exchange with the root of trust, and each operation of the store by its envelope. -/
theorem rootOfTrustAndSeals : Obligations.RootOfTrustAndSeals := by
  unfold Obligations.RootOfTrustAndSeals
  refine ⟨fun s may => ⟨fun k len curve => ?key, ?noKey, fun noRead key a => ?enrol⟩, fun s key a may enrolled => ?boot,
    fun s key a may enrolled => ?advance, fun s ok c fault => ?fault, fun s right => ?stores, fun s right op => ?gen⟩
  case key =>
    refine (if_pos may).trans ?_
    simp only [len, curve]
    rfl
  case noKey => exact if_pos may
  case enrol =>
    intro nonce
    have answer : exec (.rbRead (some a)) s =
        .next (({ s with free := s.free + 1 }.sendRb (2 :: nonce)).enrol nonce (some a)) :=
      (if_neg (by rw [noRead]; decide)).trans (if_pos (by simp [may, key]))
    rw [answer]
    refine ⟨_, rfl, ?_⟩
    have empty : s.flash.enrolment = none := by
      simp only [State.mayEnrol, Bool.and_eq_true, Option.isNone_iff_eq_none] at may
      exact may.2
    obtain ⟨u, hu, sec, flash, sent⟩ : ∃ u, u = State.sendRb { s with free := s.free + 1 } (2 :: nonce) ∧
      u.sec = s.sec ∧ u.flash = s.flash ∧ u.out.smbMaster = 2 :: nonce := ⟨_, rfl, rfl, rfl, rfl⟩
    rw [← hu, State.enrol_eq, sec, flash]
    by_cases valid : s.sec.idKey.isSome = true ∧ rbValid s.sec.rbKey nonce a = true
    · rw [if_pos valid, if_pos valid]
      exact ⟨sent, rfl, rfl⟩
    · rw [if_neg valid, if_neg valid]
      exact ⟨sent, rfl, empty⟩
  case boot =>
    intro nonce
    have answer : exec (.rbRead (some a)) s =
        .next (({ s with free := s.free + 1 }.sendRb (2 :: nonce)).bootRead nonce (some a)) := if_pos may
    rw [answer]
    refine ⟨_, rfl, ?_⟩
    unfold State.bootRead
    have kept : (State.sendRb { s with free := s.free + 1 } (2 :: nonce)).flash.enrolment = some key := enrolled
    rw [kept, Option.getD_some, validAnswer_some]
    by_cases valid : rbValid key nonce a = true
    · simp only [valid]
      exact ⟨rfl, rfl, rfl, rfl⟩
    · simp only [valid]
      exact ⟨rfl, rfl, by simp, rfl⟩
  case advance =>
    intro nonce
    have due : s.sec.rbRetry = true := by
      simp only [State.mayAdvance, Bool.and_eq_true] at may
      exact may.1.2
    have answer : exec (.rbAdvance (some a)) s =
        .next (({ s with free := s.free + 1 }.sendRb (3 :: leBytes 4 s.fwSvn ++ nonce)).advanceRb nonce (some a)) :=
      if_pos may
    rw [answer]
    refine ⟨_, rfl, ?_⟩
    unfold State.advanceRb
    have kept : (State.sendRb { s with free := s.free + 1 } (3 :: leBytes 4 s.fwSvn ++ nonce)).flash.enrolment =
      some key := enrolled
    rw [kept, Option.getD_some, validAnswer_some]
    by_cases valid : rbValid key nonce a = true
    · simp only [valid]
      exact ⟨rfl, rfl, rfl⟩
    · simp only [valid]
      obtain ⟨flag, counter, retry, out⟩ :=
        ({ s with free := s.free + 1 }.sendRb (3 :: leBytes 4 s.fwSvn ++ nonce)).rbAdvFail_raise
      exact ⟨congrArg (fun o => o.smbMaster) out, counter, retry.trans due, flag⟩
  case fault =>
    intro r
    have ends : s.sealEnd c = { s with sec := { s.sec with busy := false, sealResult := c, sealBuf := [] } } := rfl
    refine ⟨fun op => ?_, fun op => ?_, fun op => ?_⟩
    · exact (if_pos op).trans (congrArg Host.Outcome.next (State.sealOp_of_fault fault ok _))
    · exact (if_pos op).trans (congrArg Host.Outcome.next (State.sealOp_of_fault fault ok _))
    · exact (if_pos op).trans (congrArg Host.Outcome.next (State.sealOp_of_fault fault ok _))
  case stores =>
    intro k gen ended
    refine ⟨fun key op unwrapped => ?_, fun c ok op refused => ?_, fun op => ⟨?_, ?_⟩, fun op => ⟨?_, ?_⟩⟩
    · have stored : s.sealWrite s.envelope = .ok (s.putSeal k
          { gen := gen, cipher := some (gcmSeal s.sec.kSeal (sealNonce k gen) [] key) }) := by
        unfold State.sealWrite
        rw [unwrapped]
      intro text
      refine ⟨(if_pos op).trans ?_, (if_pos op).trans ?_⟩
      · rw [State.sealOp_of_right right, stored]
        rfl
      · rw [State.sealOp_of_right right, stored]
        rfl
    · have none_ : s.sealWrite s.envelope = .error c := by
        unfold State.sealWrite
        rw [refused]
      refine (if_pos op).trans ?_
      rw [State.sealOp_of_right right, none_]
      rfl
    · refine (if_pos op).trans ?_
      rw [State.sealOp_of_right right]
      rfl
    · refine (if_pos op).trans ?_
      rw [State.sealOp_of_right right]
      rfl
    · have answer : exec (.sealRemoveEnrolment true) s = .next (s.sealOp true s.sealRemove) := if_pos op
      rw [answer, State.sealOp_of_right right]
      exact ⟨_, rfl, rfl, rfl, rfl, rfl, rfl⟩
    · refine (if_pos op).trans ?_
      rw [State.sealOp_of_right right]
      rfl
  case gen => exact State.key_write_of_right right op
end Sys2Proof.Machine
end

section
/-! PROOFS. SPDM requests (O57). -/

namespace Sys2Proof.Machine

theorem State.negotiate_of_level {s : State} {level : Nat} (doe : s.doeOn = true) (served : s.spdmOn = true)
    (h : level ≤ s.sec.spdm) (f : State → State) : s.negotiate level f = f s := by
  unfold State.negotiate
  rw [doe, served, if_neg (by decide), if_neg (by decide), if_neg (by omega)]

theorem State.serve_of_noIdentity {s : State} (doe : s.doeOn = true) (served : s.spdmOn = true) (none_ : s.sec.idKey = none)
    (f : State → State) : s.serve f = s.spdmError 5 := by
  unfold State.serve
  rw [State.negotiate_of_level doe served (Nat.zero_le _), none_]
  rfl

theorem State.serve_of_identity {s : State} {d : Nat} (doe : s.doeOn = true) (served : s.spdmOn = true)
    (key : s.sec.idKey = some d) (level : 3 ≤ s.sec.spdm) (f : State → State) : s.serve f = f s := by
  unfold State.serve
  rw [State.negotiate_of_level doe served (Nat.zero_le _), key, if_neg (by simp), if_neg (by omega)]

/-- The nonce and the signature that a signed response ends with (R428). -/
theorem State.signed_eq {s : State} {d : Nat} (key : s.sec.idKey = some d) (m : List Byte) :
    s.signed m = (Config.freeBytes s.free 32 ++ ecdsaSign d (1 + Config.freeValue (s.free + 1) % (p256N - 1))
      (sha256 (m ++ Config.freeBytes s.free 32)), { s with free := s.free + 1 + 1 }) := by
  unfold State.signed State.drawBytes State.signId State.draw
  simp only [key]

/-! The secured sessions by their numbers. -/

theorem find?_map_of_id {l : List SpdmSess} {f : SpdmSess → SpdmSess} (h : ∀ y, (f y).id = y.id) (sid : Nat) :
    (l.map f).find? (fun y => y.id == sid) = (l.find? (fun y => y.id == sid)).map f := by
  rw [List.find?_map]
  simp only [Function.comp_def, h]

theorem State.spdmOf_ends (s : State) (sid k : Nat) :
    (s.setSpdmSess (s.sec.spdmSess.filter (fun y => y.id != sid))).spdmOf k = if k = sid then none else s.spdmOf k := by
  change (s.sec.spdmSess.filter (fun y => y.id != sid)).find? (fun y => y.id == k) = _
  rw [List.find?_filter]
  split
  · rename_i same
    rw [List.find?_eq_none]
    intro y _
    simp [same]
  · rename_i other
    unfold State.spdmOf
    congr 1
    funext y
    by_cases hy : y.id = k
    · simp [hy, other]
    · simp [hy]

/-- One secured session changed, by its number. -/
theorem State.spdmOf_changes (s : State) {sid : Nat} {x : SpdmSess} (h : s.spdmOf sid = some x) {f : SpdmSess → SpdmSess}
    (hf : ∀ y, (f y).id = y.id) :
    (s.setSpdmSess (s.sec.spdmSess.map (fun y => if y.id = sid then f y else y))).spdmOf sid = some (f x) ∧
      ∀ k, k ≠ sid → (s.setSpdmSess (s.sec.spdmSess.map (fun y => if y.id = sid then f y else y))).spdmOf k = s.spdmOf k := by
  have same (y : SpdmSess) : (if y.id = sid then f y else y).id = y.id := by
    repeat' split
    · exact hf y
    · rfl
  have reads (k : Nat) : (s.setSpdmSess (s.sec.spdmSess.map (fun y => if y.id = sid then f y else y))).spdmOf k =
      (s.spdmOf k).map (fun y => if y.id = sid then f y else y) := find?_map_of_id same k
  refine ⟨?_, fun k hk => ?_⟩
  · have own : x.id = sid := by simpa using List.find?_some h
    rw [reads, h, Option.map_some, if_pos own]
  · rw [reads]
    cases found : s.spdmOf k with
    | none => rfl
    | some y =>
      have own : y.id = k := by simpa using List.find?_some found
      rw [Option.map_some, if_neg (by omega)]

/-- An IDE stream that is keyed (R403). -/
theorem State.keyStream_eq (s : State) {k : Nat} (hk : k < 3) : (s.keyStream k).cxl.ideKeyed.getLsbD k = true ∧
    (s.keyStream k).cxl.ideStopped.getLsbD k = false ∧ (s.keyStream k).sec = s.sec := by
  have cxl : (s.keyStream k).cxl = { s.cxl with
      ideKeyed := s.cxl.ideKeyed ||| BitVec.ofNat 3 (2 ^ k)
      ideStopped := s.cxl.ideStopped &&& ~~~ BitVec.ofNat 3 (2 ^ k) } := by
    unfold State.keyStream State.flushVectors
    (repeat' split) <;> rfl
  have sec : (s.keyStream k).sec = s.sec := by
    unfold State.keyStream State.flushVectors
    (repeat' split) <;> rfl
  rw [cxl]
  refine ⟨?_, ?_, sec⟩
  · rw [BitVec.getLsbD_or, getLsbD_two_pow]
    · simp
    · exact hk
  · rw [BitVec.getLsbD_and, BitVec.getLsbD_not, getLsbD_two_pow]
    · simp
    · exact hk

/-- Settles O57: each request as the negotiation and the identity let it be served. -/
theorem spdmRequests : Obligations.SpdmRequests := by
  unfold Obligations.SpdmRequests
  refine ⟨fun s doe served => ⟨?_, fun level => ?_, fun level => ?_⟩,
    fun s slot off len index sid k b ok doe served none_ => ?_, fun s d doe served key level => ?_⟩
  · exact congrArg Host.Outcome.next (State.negotiate_of_level doe served (Nat.zero_le _) _)
  · exact congrArg Host.Outcome.next (State.negotiate_of_level doe served level _)
  · exact congrArg Host.Outcome.next (State.negotiate_of_level doe served level _)
  · have error (f : State → State) : s.serve f = s.spdmError 5 := State.serve_of_noIdentity doe served none_ f
    exact ⟨congrArg Host.Outcome.next (error _), congrArg Host.Outcome.next (error _), congrArg Host.Outcome.next (error _),
      congrArg Host.Outcome.next (error _), congrArg Host.Outcome.next (error _), congrArg Host.Outcome.next (error _),
      congrArg Host.Outcome.next (error _), congrArg Host.Outcome.next (error _), congrArg Host.Outcome.next (error _)⟩
  · have serves (f : State → State) : s.serve f = f s := State.serve_of_identity doe served key level f
    intro nonce sig
    have signed (m : List Byte) : s.signed m = (nonce ++ sig m, { s with free := s.free + 1 + 1 }) := State.signed_eq key m
    refine ⟨fun chain => ?digests, fun off len ok => ?certificate, fun m => ?challenge, fun i m lo hi => ?measure,
      fun m room => ?exchange, fun m full => ?busy, fun sid x found shut => ⟨?finish, ?refuse⟩,
      fun sid x found open_ => ⟨?update, ?ends, fun k hk => ?ide⟩⟩
    case digests =>
      refine (congrArg Host.Outcome.next (serves _)).trans ?_
      rw [if_neg (by simpa using chain)]
      rfl
    case certificate =>
      refine (congrArg Host.Outcome.next (serves _)).trans ?_
      rw [if_neg (by decide), ok]
      rfl
    case challenge =>
      refine ⟨_, congrArg Host.Outcome.next (serves _), ?_⟩
      dsimp only
      rw [if_neg (by decide), signed]
      exact ⟨rfl, ⟨rfl, rfl, rfl, rfl, rfl, rfl, rfl, rfl, rfl, rfl, rfl⟩, rfl⟩
    case measure =>
      refine ⟨_, congrArg Host.Outcome.next (serves _), ?_⟩
      dsimp only
      have known : ¬ (decide (i ≠ 0xFF) && decide (5 < i)) = true := by simp; omega
      have one : (if i = 0 then [] else if i = 0xFF then [1, 2, 3, 4, 5] else [i]) = [i] := by
        rw [if_neg (by omega), if_neg (by omega)]
      rw [if_neg known, one, signed]
      refine ⟨rfl, ⟨rfl, rfl, rfl, rfl, rfl, rfl, rfl, rfl, rfl, rfl, rfl⟩, ?_⟩
      change leBytes 1 0x12 ++ leBytes 1 0x60 ++ leBytes 1 (if i = 0 then 5 else 0) ++ leBytes 1 0 ++
        (leBytes 1 1 ++ [i].flatMap s.measureBlock ++ (nonce ++ sig m)) = _
      rw [if_neg (by omega), List.flatMap_singleton]
      obtain rfl | rfl | rfl | rfl | rfl : i = 1 ∨ i = 2 ∨ i = 3 ∨ i = 4 ∨ i = 5 := by omega
      all_goals rfl
    case exchange =>
      refine ⟨_, congrArg Host.Outcome.next (serves _), ?_⟩
      dsimp only
      rw [if_neg (show ¬ 2 ≤ s.sec.spdmSess.length by omega), signed]
      refine ⟨?_, rfl, rfl, rfl, rfl, rfl, rfl, rfl, rfl, rfl, rfl, rfl⟩
      change s.sec.spdmSess ++ [{ id := if (s.spdmOf 1).isNone = true then 1 else 2 }] = _
      simp only [Option.isNone_iff_eq_none]
    case busy =>
      refine (congrArg Host.Outcome.next (serves _)).trans ?_
      rw [if_pos full]
      rfl
    case finish =>
      refine ⟨_, congrArg Host.Outcome.next (serves _), ?_⟩
      dsimp only
      simp only [found, shut]
      exact s.spdmOf_changes found fun _ => rfl
    case refuse =>
      refine ⟨_, congrArg Host.Outcome.next (serves _), ?_⟩
      dsimp only
      simp only [found, shut]
      exact ⟨(s.spdmOf_ends sid sid).trans (if_pos rfl), fun k hk => (s.spdmOf_ends sid k).trans (if_neg hk)⟩
    case update =>
      refine ⟨_, congrArg Host.Outcome.next (serves _), ?_⟩
      have secured : s.secured sid = true := by
        unfold State.secured
        rw [found]
        exact open_
      dsimp only
      rw [secured, if_pos rfl]
      exact s.spdmOf_changes found fun _ => rfl
    case ends =>
      refine ⟨_, congrArg Host.Outcome.next (serves _), ?_⟩
      have secured : s.secured sid = true := by
        unfold State.secured
        rw [found]
        exact open_
      dsimp only
      rw [secured, if_pos rfl]
      exact ⟨(s.spdmOf_ends sid sid).trans (if_pos rfl), fun k hk => (s.spdmOf_ends sid k).trans (if_neg hk)⟩
    case ide =>
      refine ⟨_, congrArg Host.Outcome.next (serves _), ?_⟩
      have secured : s.secured sid = true := by
        unfold State.secured
        rw [found]
        exact open_
      dsimp only
      rw [secured, decide_eq_true hk, if_pos (by decide)]
      exact s.keyStream_eq hk
end Sys2Proof.Machine
end

section
/-! PROOFS. A running design: what its cells show, ports, lines and control ports (O54). -/

namespace Sys2Proof.Machine

/-- What everything but a design's own cells sees of a fabric region: the cells' states, the block RAMs' contents and
errors, and the reads kept by the control ports are left out. -/
def FabRegion.view (f : FabRegion) : FabRegion :=
  { f with brams := [], eccFix := 0, eccSeen := 0, cps := [], cells := { clocks := f.cells.clocks } }

/-- What reads a region without its design's cells reads the same in two regions that show the same. -/
theorem FabRegion.of_view {α : Type} {f g : FabRegion} (read : FabRegion → α) (ignores : ∀ f, read f.view = read f)
    (same : f.view = g.view) : read f = read g := by
  rw [← ignores f, same, ignores]

/-! One fabric region of the state. -/

theorem State.fabric_setFab_ne (s : State) {q r : Nat} (h : q ≠ r) (f : FabRegion → FabRegion) :
    (s.setFab r f).fabric q = s.fabric q := look_modify_ne _ _ _ h

theorem State.wf_fabric {s : State} (hs : s.canon) (r : Nat) : (s.fabric r).wf :=
  look_of_forall (P := FabRegion.wf) FabRegion.wf_default (s.canon_iff.mp hs).fabric r

/-! The design's cells at the edges that come before an event. -/

theorem clocks_foldl {α : Type} (l : List α) (step : FabRegion → α → FabRegion)
    (keeps : ∀ f a, (step f a).cells.clocks = f.cells.clocks) (f : FabRegion) :
    (l.foldl step f).cells.clocks = f.cells.clocks := by
  induction l generalizing f with
  | nil => rfl
  | cons a l ih => exact (ih _).trans (keeps f a)

theorem FabRegion.clocks_ramPort (f : FabRegion) (opts : List Byte) (r b p before after : Nat) (x : RamIn) :
    (f.ramPort opts r b p before after x).cells.clocks = f.cells.clocks := by
  unfold FabRegion.ramPort
  dsimp only
  repeat' split
  all_goals rfl

theorem FabRegion.clocks_ramEdge (r t : Nat) (f : FabRegion) (b : Nat) :
    (f.ramEdge r t b).cells.clocks = f.cells.clocks := by
  unfold FabRegion.ramEdge
  dsimp only
  repeat' split
  all_goals simp only [FabRegion.clocks_ramPort]

theorem FabRegion.clocks_pinEdge (r t : Nat) (f : FabRegion) (k : Nat) :
    (f.pinEdge r t k).cells.clocks = f.cells.clocks := by
  unfold FabRegion.pinEdge
  dsimp only
  split <;> rfl

theorem FabRegion.clocks_treeEdge (f : FabRegion) (r border t : Nat) :
    (f.treeEdge r border t).cells.clocks = f.cells.clocks := by
  have ffs : (f.ffEdge r t border).cells.clocks = f.cells.clocks := by
    unfold FabRegion.ffEdge
    split <;> rfl
  have wires (g : FabRegion) : (g.wireEdge r).cells.clocks = g.cells.clocks := by
    unfold FabRegion.wireEdge
    split <;> rfl
  have rams (l : List Nat) := clocks_foldl l (FabRegion.ramEdge r t) (FabRegion.clocks_ramEdge r t) (f.ffEdge r t border)
  have pins (l : List Nat) (g : FabRegion) := clocks_foldl l (FabRegion.pinEdge r t) (FabRegion.clocks_pinEdge r t) g
  have counted (g : FabRegion) :
      ({ g with cells := { g.cells with edges := g.cells.edges + 1 } } : FabRegion).cells.clocks = g.cells.clocks := rfl
  exact (counted _).trans ((wires _).trans ((pins _ _).trans ((rams _).trans ffs)))

theorem FabRegion.clocks_run (f : FabRegion) (r border : Nat) (on : Nat → Bool) :
    (f.run r border on).cells.clocks = f.cells.clocks := by
  unfold FabRegion.run
  dsimp only
  refine clocks_foldl _ _ (fun f i => ?_) f
  split
  · exact f.clocks_treeEdge ..
  · rfl

theorem State.fabric_runDesign_ne (s : State) {q r : Nat} (h : q ≠ r) : (s.runDesign r).fabric q = s.fabric q := by
  unfold State.runDesign
  dsimp only
  split
  · exact s.fabric_setFab_ne h _
  · rfl

theorem State.cps_runDesign {s : State} (hs : s.canon) (r : Nat) :
    ((s.runDesign r).fabric r).cps = (s.fabric r).cps := by
  unfold State.runDesign
  dsimp only
  split
  · rw [State.setFab_fabric_self hs]
  · rfl

/-- A design that runs shows nothing of it outside its cells and block RAMs. -/
theorem State.view_runDesign {s : State} (hs : s.canon) (r q : Nat) :
    ((s.runDesign r).fabric q).view = (s.fabric q).view := by
  by_cases other : q = r
  · subst other
    unfold State.runDesign
    dsimp only
    split
    · rw [State.setFab_fabric_self hs]
      simp only [FabRegion.view, FabRegion.clocks_run]
    · rfl
  · rw [s.fabric_runDesign_ne other]

theorem State.canon_runDesign {s : State} (hs : s.canon) (r : Nat) : (s.runDesign r).canon :=
  State.canon_of_keeps (.runDesign (.refl s)) hs

theorem State.canon_setFab {s : State} (hs : s.canon) {r : Nat} {f : FabRegion → FabRegion}
    (hf : ∀ x : FabRegion, x.wf → (f x).wf) : (s.setFab r f).canon :=
  State.canon_of_keeps (.setFab (.refl s) hf) hs

theorem State.port_runDesign {s : State} (hs : s.canon) (r q p : Nat) :
    ((s.runDesign r).fabric q).port p = (s.fabric q).port p :=
  FabRegion.of_view (fun f => f.port p) (fun _ => rfl) (State.view_runDesign hs r q)

/-- A region of the state after its design has run and it was changed. -/
theorem State.fabric_runDesign_setFab {s : State} (hs : s.canon) (r : Nat) (f : FabRegion → FabRegion) :
    ((s.runDesign r).setFab r f).fabric r = f ((s.runDesign r).fabric r) :=
  State.setFab_fabric_self (State.canon_runDesign hs r) r f

/-! What the registers that a control port reads show does not depend on the cells. -/

section Shows
variable {s : State} {fab : Tab FabRegion} (same : ∀ q, (look {} fab q).view = (s.fabric q).view)
include same

theorem isolated_of_view (q : Nat) : (look {} fab q).isolated = (s.fabric q).isolated :=
  FabRegion.of_view FabRegion.isolated (fun _ => rfl) (same q)

theorem State.treeOn_of_view (q t : Nat) : ({ s with fab := fab } : State).treeOn q t = s.treeOn q t :=
  FabRegion.of_view (fun f => f.sourceOn q (f.tree t).sel && !s.clk.hold && !s.pwr.inTrip) (fun _ => rfl) (same q)

theorem State.elemRuns_of_view (q e : Nat) : ({ s with fab := fab } : State).elemRuns q e = s.elemRuns q e :=
  FabRegion.of_view (fun f => s.dev.pwrGood && decide (q < 64) && !f.isolated &&
    (f.sourceOn q (f.tree (look 0 f.cells.clocks e)).sel && !s.clk.hold && !s.pwr.inTrip)) (fun _ => rfl) (same q)

theorem State.portHas_of_view (q n p need owed : Nat) :
    ({ s with fab := fab } : State).portHas q n p need owed = s.portHas q n p need owed :=
  FabRegion.of_view (fun f => let m := (look [] (s.stream q n).portBack p ++ (f.port p).txBuf).length
    !f.isolated && decide (need ≤ m) && (decide (8 ≤ m) || decide (owed ≤ m))) (fun _ => rfl) (same q)

theorem State.deliverable_of_view (q : Nat) (h : Home) (d : SDesc) (x : Stream) (b : Burst) :
    ({ s with fab := fab } : State).deliverable q h d x b = s.deliverable q h d x b := by
  have cred (p : Nat) : ((look {} fab q).port p).rxCred = ((s.fabric q).port p).rxCred :=
    FabRegion.of_view (fun f => (f.port p).rxCred) (fun _ => rfl) (same q)
  have place : ({ s with fab := fab } : State).dstPlace h d = s.dstPlace h d := rfl
  unfold State.deliverable
  rw [place]
  cases s.dstPlace h d with
  | port p =>
    simp only [State.elemRuns_of_view same]
    rw [show ({ s with fab := fab } : State).fabric q = look {} fab q from rfl, cred, isolated_of_view same]
  | _ => rfl

theorem State.mayDeliver_of_view (q n : Nat) :
    ({ s with fab := fab } : State).mayDeliver q n = s.mayDeliver q n := by
  unfold State.mayDeliver
  simp only [State.deliverable_of_view same]
  rfl

theorem State.nextBurst_of_view (q n : Nat) : ({ s with fab := fab } : State).nextBurst q n = s.nextBurst q n := by
  unfold State.nextBurst
  simp only [State.portHas_of_view same]
  rw [show ({ s with fab := fab } : State).fabric q = look {} fab q from rfl, isolated_of_view same]
  rfl

theorem State.waitCredit_of_view (q n : Nat) : ({ s with fab := fab } : State).waitCredit q n = s.waitCredit q n := by
  unfold State.waitCredit
  simp only [State.deliverable_of_view same, State.mayDeliver_of_view same]
  rfl

theorem State.burstReady_of_view (q n : Nat) : ({ s with fab := fab } : State).burstReady q n = s.burstReady q n := by
  unfold State.burstReady
  rw [State.nextBurst_of_view same]

theorem State.fabricWait_of_view (q n : Nat) : ({ s with fab := fab } : State).fabricWait q n = s.fabricWait q n := by
  unfold State.fabricWait
  simp only [State.deliverable_of_view same, State.nextBurst_of_view same]
  rw [show ({ s with fab := fab } : State).fabric q = look {} fab q from rfl, isolated_of_view same]
  rfl

/-- A register that a control port may read (R242) shows the same. -/
theorem State.regValue_of_view {r a : Nat} {over_ : Bool} {g : Reg} (read : cpReg r over_ a = some g) :
    ({ s with fab := fab } : State).regValue g = s.regValue g := by
  unfold cpReg at read
  split at read
  case h_1 q n _ =>
    obtain rfl := Option.some.inj read
    unfold State.regValue
    dsimp only
    rw [State.waitCredit_of_view same, State.burstReady_of_view same, State.fabricWait_of_view same]
    rfl
  case h_2 | h_3 =>
    obtain rfl := Option.some.inj read
    rfl
  case h_4 q _ =>
    obtain rfl := Option.some.inj read
    unfold State.regValue
    dsimp only
    simp only [State.treeOn_of_view same]
    exact FabRegion.of_view (fun f => bitW 26 f.isoSeen ||| fieldsW [(31, b2n f.configured), (30, b2n f.isolated),
      (29, b2n f.loading), (28, b2n (s.fabGone q)), (27, b2n f.borderOpen),
      (8, (List.range 8).foldl (fun v t => v + (if s.treeOn q t then 2 ^ t else 0)) 0), (0, f.pllLock.toNat)])
      (fun _ => rfl) (same q)
  case h_5 q t _ =>
    obtain rfl := Option.some.inj read
    exact FabRegion.of_view (fun f => (0 : Word) ||| fieldsW [(31, b2n (f.tree t).switching.isSome),
      (30, b2n (f.tree t).runtime), (4, (f.tree t).div % 16), (0, (f.tree t).sel % 16)]) (fun _ => rfl) (same q)
  case h_6 q p _ =>
    obtain rfl := Option.some.inj read
    exact FabRegion.of_view (fun f => (0 : Word) |||
      fieldsW [(31, b2n ((s.armed q).any (fun x => x.2.dst == 3 && x.2.dstUnit == p))),
        (30, b2n ((s.armed q).any (fun x => (x.2.src == 3 && x.2.srcUnit == p) || (x.2.idxPort && x.2.idxPortNum == p)))),
        (29, b2n ((s.armed q).any (fun x => x.2.idxPort && x.2.idxPortNum == p))),
        (16, (f.port p).rxCred % 512), (0, (f.port p).txBuf.length % 64)]) (fun _ => rfl) (same q)
  case h_7 => cases read

end Shows

/-! Trees, delay lines and control ports of a region that changes. -/

theorem FabRegion.tree_put_self {f : FabRegion} (wf : f.wf) (n : Nat) (g : Tree → Tree) :
    ({ f with trees := modify {} f.trees n g } : FabRegion).tree n = g (f.tree n) := by
  obtain ⟨-, trees, -⟩ := wf
  exact look_modify_self n g trees

theorem FabRegion.tree_put_ne (f : FabRegion) {k n : Nat} (h : k ≠ n) (g : Tree → Tree) :
    ({ f with trees := modify {} f.trees n g } : FabRegion).tree k = f.tree k := look_modify_ne _ _ _ h

theorem FabRegion.delay_setDelay_self {f : FabRegion} (wf : f.wf) (pin : Nat) (g : DelayLine → DelayLine) :
    (f.setDelay pin g).delay pin = g (f.delay pin) := by
  obtain ⟨-, -, delays, -⟩ := wf
  exact look_modify_self pin g delays

theorem FabRegion.delay_setDelay_ne (f : FabRegion) {k pin : Nat} (h : k ≠ pin) (g : DelayLine → DelayLine) :
    (f.setDelay pin g).delay k = f.delay k := look_modify_ne _ _ _ h

theorem DelayLine.move_of_ne {d : DelayLine} (h : d.tap ≠ d.target) :
    d.move = { d with tap := if d.tap < d.target then d.tap + 1 else d.tap - 1 } := by
  unfold DelayLine.move
  by_cases up : d.tap < d.target
  · rw [if_pos up, if_pos up]
  · rw [if_neg up, if_neg up, if_pos (by omega)]

/-- The delay lines of a region after its design has run and one of them was changed. -/
theorem State.delay_runDesign_setDelay {s : State} (hs : s.canon) (r pin : Nat) (g : DelayLine → DelayLine) :
    let t := (s.runDesign r).setFab r (fun f => f.setDelay pin g)
    (t.fabric r).delay pin = g ((s.fabric r).delay pin) ∧ ∀ k, k ≠ pin → (t.fabric r).delay k = (s.fabric r).delay k := by
  have before (k : Nat) : ((s.runDesign r).fabric r).delay k = (s.fabric r).delay k :=
    FabRegion.of_view (fun f => f.delay k) (fun _ => rfl) (State.view_runDesign hs r r)
  intro t
  have after : t.fabric r = ((s.runDesign r).fabric r).setDelay pin g := State.fabric_runDesign_setFab hs r _
  rw [after]
  refine ⟨?_, fun k other => ?_⟩
  · rw [FabRegion.delay_setDelay_self (State.wf_fabric (State.canon_runDesign hs r) r), before]
  · rw [FabRegion.delay_setDelay_ne _ other, before]

/-- A port of a region after its design has run and it was changed. -/
theorem State.port_runDesign_setPort {s : State} (hs : s.canon) (r p : Nat) (g : Port → Port) :
    (((s.runDesign r).setPort r p g).fabric r).port p = g ((s.fabric r).port p) := by
  rw [State.setPort_port_self (State.canon_runDesign hs r), State.port_runDesign hs]

/-- The error of a stream port (R236, R237): its flag, and the count of such errors. -/
theorem State.portErr_raise {s : State} (hs : s.canon) (r p : Nat) {bit : Nat} (ofTwo : bit = 31 ∨ bit = 30)
    {mask : Word} (is : mask = bitW bit true) :
    let t := (s.raise (.portErr r p) mask).setPort r p (fun q => { q with credErrs := q.credErrs + 1 })
    let x := (s.fabric r).port p
    (t.flags (.portErr r p)).getLsbD bit = true ∧ ((t.fabric r).port p).rxCred = x.rxCred ∧
      ((t.fabric r).port p).txBuf = x.txBuf ∧ ((t.fabric r).port p).credErrs = x.credErrs + 1 := by
  intro t x
  obtain ⟨u, hu⟩ : ∃ u, u = s.raise (.portErr r p) mask := ⟨_, rfl⟩
  have canon : u.canon := hu ▸ State.canon_of_keeps (.raise (.refl s)) hs
  have set : (u.flags (.portErr r p)).getLsbD bit = true := by
    have bits (a b : Bool) : ((bitsW [(31, a), (30, b)] ||| (mask &&& 0xC0000000#32)) &&& 0xC0000000#32).getLsbD bit =
        true := by
      subst is
      revert a b
      rcases ofTwo with rfl | rfl <;> decide
    have raised : u.flags (.portErr r p) = (s.flags (.portErr r p) ||| (mask &&& 0xC0000000#32)) &&& 0xC0000000#32 :=
      hu ▸ (State.flags_withCounters _ _ _).trans (State.flags_putFlags hs (.portErr r p) _)
    rw [raised]
    exact bits _ _
  have port : ∃ a b, (u.fabric r).port p = { x with credOvf := a, noCred := b } := by
    rw [hu]
    exact ⟨_, _, State.setPort_port_self hs r p (fun q => { q with
      credOvf := (s.flags (.portErr r p) ||| (mask &&& 0xC0000000#32)).getLsbD 31
      noCred := (s.flags (.portErr r p) ||| (mask &&& 0xC0000000#32)).getLsbD 30 })⟩
  have after : (t.fabric r).port p = { (u.fabric r).port p with credErrs := ((u.fabric r).port p).credErrs + 1 } := by
    have made : t = u.setPort r p (fun q => { q with credErrs := q.credErrs + 1 }) := by rw [hu]
    rw [made, State.setPort_port_self canon]
  obtain ⟨a, b, port⟩ := port
  refine ⟨?_, ?_, ?_, ?_⟩
  · refine Eq.trans ?_ set
    change (bitsW [(31, ((t.fabric r).port p).credOvf), (30, ((t.fabric r).port p).noCred)]).getLsbD bit = _
    rw [after]
    rfl
  · rw [after, port]
  · rw [after, port]
  · rw [after, port]

theorem State.fabric_of_fab {s t : State} (h : t.fab = s.fab) (r : Nat) : t.fabric r = s.fabric r := by
  rw [State.fabric, h, State.fabric]

theorem State.fabric_portDry (s : State) (r p q : Nat) : (s.portDry r p).fabric q = s.fabric q := by
  unfold State.portDry State.draw
  dsimp only
  repeat' split
  · exact State.fabric_of_fab ((Only.markLate (l := [.eng, .flagCnt]) (.refl _) rfl).frame .fab rfl) q
  · rfl
  · rfl

/-- A control port's read answered (R241, R242): with the register's value, or with an error and its flag. -/
theorem State.cpAnswer_eq (s : State) (r c : Nat) (fab : Bool) (a : Nat) :
    let u := s.setFab r (fun f => { f with cps := put none f.cps c none })
    let v := (cpReg r fab a).bind (fun g => if u.blockOn g && !u.units.fenced r then some (u.regValue g) else none)
    let w := { u with out := { u.out with cpAck := some (r, c, v.getD 0, v.isNone) } }
    s.cpAnswer r c fab a = if v.isNone then w.cpFails r c fab a else w := by
  unfold State.cpAnswer
  cases cpReg r fab a <;> rfl

theorem State.cps_cpFails {s : State} (hs : s.canon) (r c : Nat) (fab : Bool) (a : Nat) :
    ((s.cpFails r c fab a).fabric r).cps = (s.fabric r).cps := by
  have raised : (((s.raise (.cpErr r) (bitW (28 + c) true)).fabric r)).cps = (s.fabric r).cps :=
    (congrArg FabRegion.cps (State.setFab_fabric_self hs r (fun f => { f with
      cpErr := ((s.flags (.cpErr r) ||| (bitW (28 + c) true &&& Reg.flagMask (.cpErr r))) >>> 28).setWidth 4 })) : _)
  refine Eq.trans ?_ raised
  unfold State.cpFails
  rw [State.setFab_fabric_self (State.canon_of_keeps (.raise (.refl s)) hs)]

theorem State.cpErr_cpFails {s : State} (hs : s.canon) (r : Nat) {c : Nat} (inRange : c < 4) (fab : Bool) (a : Nat) :
    ((s.cpFails r c fab a).flags (.cpErr r)).getLsbD (28 + c) = true := by
  obtain ⟨u, hu⟩ : ∃ u, u = s.raise (.cpErr r) (bitW (28 + c) true) := ⟨_, rfl⟩
  have canon : u.canon := hu ▸ State.canon_of_keeps (.raise (.refl s)) hs
  have same : (s.cpFails r c fab a).flags (.cpErr r) = u.flags (.cpErr r) := by
    change BitVec.setWidth 32 ((s.cpFails r c fab a).fabric r).cpErr <<< 28 = BitVec.setWidth 32 (u.fabric r).cpErr <<< 28
    have made : s.cpFails r c fab a = u.setFab r (fun f => { f with lastCp := c, lastSel := fab, lastAddr := a }) := by
      rw [hu]
      rfl
    rw [made, State.setFab_fabric_self canon]
  have raised : u.flags (.cpErr r) = (s.flags (.cpErr r) ||| (bitW (28 + c) true &&& 0xF0000000#32)) &&& 0xF0000000#32 :=
    hu ▸ (State.flags_withCounters _ _ _).trans (State.flags_putFlags hs (.cpErr r) _)
  have kept : (0xF0000000#32).getLsbD (28 + c) = true := by
    obtain rfl | rfl | rfl | rfl : c = 0 ∨ c = 1 ∨ c = 2 ∨ c = 3 := by omega
    all_goals decide
  rw [same, raised, BitVec.getLsbD_and, BitVec.getLsbD_or, BitVec.getLsbD_and, getLsbD_bitW _ _ (by omega), kept]
  simp

/-- Settles O54: each command by the region, the port or the line it changes; the design's own cells show nothing of it. -/
theorem runningDesign : Obligations.RunningDesign := by
  unfold Obligations.RunningDesign
  refine ⟨fun s r n sel div hs on inRange => ?tree, fun s r pin tap hs runs inRange => ?load,
    fun s r pin hs good region inRange on => ?move, fun s r p hs on inRange => ?credit,
    fun s r p beat hs on inRange => ?beat, fun s r c fab addr hs on free => ?request,
    fun s r c a fab hs good region inRange on kept => ?answer⟩
  case tree =>
    intro x runtime idle other
    refine ⟨_, if_pos ?may, ?tree, fun k hk => ?trees, fun q hq => ?regions⟩
    case may =>
      simp only [x] at runtime idle
      simp only [on, inRange, runtime, idle, decide_true, Option.isNone_none, Bool.and_self, Bool.true_and,
        Bool.not_eq_true', Bool.and_eq_false_iff, beq_eq_false_iff_ne, ne_eq]
      exact Decidable.not_and_iff_or_not.mp other
    case tree =>
      rw [State.fabric_runDesign_setFab hs, FabRegion.tree_put_self (State.wf_fabric (State.canon_runDesign hs r) r)]
      exact congrArg (fun y : Tree => { y with switching := some (sel.toNat, div.toNat) })
        (FabRegion.of_view (fun f => f.tree n) (fun _ => rfl) (State.view_runDesign hs r r))
    case trees =>
      rw [State.fabric_runDesign_setFab hs, FabRegion.tree_put_ne _ hk]
      exact (FabRegion.of_view (fun f => f.tree k) (fun _ => rfl) (State.view_runDesign hs r r))
    case regions => rw [State.fabric_setFab_ne _ hq, State.fabric_runDesign_ne _ hq]
  case load =>
    obtain ⟨moved, -⟩ := State.delay_runDesign_setDelay hs r pin (fun d => { d with target := tap.toNat })
    refine ⟨_, if_pos (by simp [runs, inRange]), by rw [moved], by rw [moved], ?_⟩
    exact (Only.setFab (l := [.fab]) (.runDesign (.refl s) rfl) rfl).frame .mem rfl
  case move =>
    intro d apart
    obtain ⟨moved, others⟩ := State.delay_runDesign_setDelay hs r pin DelayLine.move
    refine ⟨_, if_pos ?_, moved.trans (DelayLine.move_of_ne apart), others⟩
    simp only [good, region, inRange, on, decide_true, Bool.and_self, Bool.true_and]
    exact bne_iff_ne.mpr apart
  case credit =>
    intro x
    refine ⟨_, if_pos (by simp [on, inRange]), ?_⟩
    have port := State.port_runDesign hs r r p
    unfold State.creditBack
    dsimp only
    rw [port]
    by_cases room : x.rxCred < x.rxDepth
    · rw [if_pos room, if_pos room, State.fabric_portDry, State.port_runDesign_setPort hs]
    · rw [if_neg room, if_neg room]
      obtain ⟨set, cred, -, errs⟩ := State.portErr_raise (State.canon_runDesign hs r) r p (.inl rfl)
        (mask := 0x80000000) (by decide)
      rw [port] at cred errs
      exact ⟨set, cred, errs⟩
  case beat =>
    intro x
    refine ⟨_, if_pos (by simp [on, inRange]), ?_⟩
    have port := State.port_runDesign hs r r p
    unfold State.takeBeat
    dsimp only
    rw [port]
    by_cases credit : 0 < x.txCred
    · rw [if_pos credit, if_pos credit, State.port_runDesign_setPort hs]
    · rw [if_neg credit, if_neg credit]
      obtain ⟨set, -, buf, errs⟩ := State.portErr_raise (State.canon_runDesign hs r) r p (.inr rfl)
        (mask := 0x40000000) (by decide)
      rw [port] at buf errs
      exact ⟨set, buf, errs⟩
  case request =>
    refine ⟨_, if_pos (by simp [on, free]), ?_, fun k other => ?_⟩
    · rw [State.fabric_runDesign_setFab hs]
      obtain ⟨-, -, -, cps⟩ := State.wf_fabric (State.canon_runDesign hs r) r
      exact look_put_self _ _ _ _ cps
    · rw [State.fabric_runDesign_setFab hs]
      exact (look_put_ne _ _ _ _ _ other).trans (congrArg (fun cps => look none cps k) (State.cps_runDesign hs r))
  case answer =>
    have taken : exec (.cpAck r c) s = .next ((s.runDesign r).cpAnswer r c fab a) := by
      change execCpAck r c s = _
      unfold execCpAck
      rw [if_pos (by simp [good, region, inRange, on]), kept]
    rw [taken]
    refine ⟨_, rfl, ?_⟩
    obtain ⟨u, hu⟩ : ∃ u, u = (s.runDesign r).setFab r (fun f => { f with cps := put none f.cps c none }) := ⟨_, rfl⟩
    have canon : u.canon := by
      rw [hu]
      exact State.canon_setFab (State.canon_runDesign hs r) fun _ ⟨ports, trees, delays, cps⟩ =>
        ⟨ports, trees, delays, tabWf_put _ _ _ _ cps⟩
    have cps : (u.fabric r).cp c = none := by
      obtain ⟨-, -, -, cps⟩ := State.wf_fabric (State.canon_runDesign hs r) r
      rw [hu, State.fabric_runDesign_setFab hs]
      exact look_put_self _ _ _ _ cps
    have view (q : Nat) : (u.fabric q).view = (s.fabric q).view := by
      by_cases own : q = r
      · subst own
        rw [hu, State.fabric_runDesign_setFab hs]
        exact State.view_runDesign hs q q
      · rw [hu, State.fabric_setFab_ne _ own, State.fabric_runDesign_ne _ own]
    have answer := State.cpAnswer_eq (s.runDesign r) r c fab a
    rw [← hu] at answer
    dsimp only at answer
    rw [answer]
    obtain ⟨fab', is⟩ : ∃ fab', u = { s with fab := fab' } := by
      rw [hu]
      unfold State.runDesign
      dsimp only
      split
      · exact ⟨_, rfl⟩
      · exact ⟨_, rfl⟩
    have value (g : Reg) (reads : cpReg r fab a = some g) : u.regValue g = s.regValue g := by
      subst is
      exact State.regValue_of_view view reads
    have block (g : Reg) : u.blockOn g = s.blockOn g := by
      subst is
      cases g <;> rfl
    have units : u.units = s.units := by rw [is]
    refine ⟨?_, fun g reads clocked inService => ?_, fun unread => ?_⟩
    · repeat' split
      · exact (congrArg (fun cps => look none cps c) (State.cps_cpFails (State.canon_of_keeps (.refl u) canon) r c fab a)).trans
          cps
      · exact cps
    · rw [reads, Option.bind_some, block, clocked, units, inService, value g reads]
      rfl
    · rw [unread, Option.bind_none]
      exact ⟨rfl, State.cpErr_cpFails (s := { u with out := { u.out with cpAck := some (r, c, 0, true) } }) canon r inRange
        fab a⟩

end Sys2Proof.Machine
end

section
/-! PROOFS. Parts held, parked and woken, and the management bus (O60). -/

namespace Sys2Proof.Machine

/-! Events that change one thing at each of a list of places. -/

/-- What a place holds after a change at each place of a list: its own change, once. -/
theorem foldl_places {S V : Type} {step : S → Nat → S} {get : S → Nat → V} {change : Nat → V → V} {inv : S → Prop}
    (keep : ∀ s i, inv s → inv (step s i)) (self : ∀ s i, inv s → get (step s i) i = change i (get s i))
    (ne : ∀ s i j, inv s → j ≠ i → get (step s i) j = get s j) {l : List Nat} (nodup : l.Nodup) {s : S} (h : inv s)
    (j : Nat) : get (l.foldl step s) j = if j ∈ l then change j (get s j) else get s j := by
  induction l generalizing s with
  | nil => rfl
  | cons i l ih =>
    obtain ⟨fresh, nodup⟩ := List.nodup_cons.mp nodup
    rw [List.foldl_cons, ih nodup (keep s i h)]
    by_cases own : j = i
    · subst own
      rw [if_neg fresh, if_pos List.mem_cons_self, self s j h]
    · rw [ne s i j h own]
      simp only [List.mem_cons, own, false_or]

theorem foldl_range_places {S V : Type} {step : S → Nat → S} {get : S → Nat → V} {change : Nat → V → V} {inv : S → Prop}
    (keep : ∀ s i, inv s → inv (step s i)) (self : ∀ s i, inv s → get (step s i) i = change i (get s i))
    (ne : ∀ s i j, inv s → j ≠ i → get (step s i) j = get s j) {n : Nat} {s : S} (h : inv s) {j : Nat} (hj : j < n) :
    get ((List.range n).foldl step s) j = change j (get s j) := by
  rw [foldl_places keep self ne List.nodup_range h, if_pos (List.mem_range.mpr hj)]

theorem inv_foldl {S : Type} {inv : S → Prop} {step : S → Nat → S} (keep : ∀ s i, inv s → inv (step s i)) (l : List Nat)
    {s : S} (h : inv s) : inv (l.foldl step s) := by
  induction l generalizing s with
  | nil => exact h
  | cons i l ih => exact ih (keep s i h)

/-! A fabric region isolated and held. -/

/-- What the isolation cells of a region leave of it (R243, R244): its image, start-up order, set/reset and trees. -/
def FabRegion.core (f : FabRegion) : FabRegion :=
  { f.view with isolated := true, borderOpen := false, isoSeen := false, ports := [] }

theorem FabRegion.of_core {α : Type} {f g : FabRegion} (read : FabRegion → α) (ignores : ∀ f, read f.core = read f)
    (same : f.core = g.core) : read f = read g := by
  rw [← ignores f, same, ignores]

theorem FabRegion.core_of_view {f g : FabRegion} (h : f.view = g.view) : f.core = g.core := by
  unfold FabRegion.core
  rw [h]

/-- A change of one region that its core does not see. -/
theorem State.core_setFab {s : State} (hs : s.canon) {r : Nat} {f : FabRegion → FabRegion} (hf : ∀ x, (f x).core = x.core)
    (q : Nat) : ((s.setFab r f).fabric q).core = (s.fabric q).core := by
  by_cases own : q = r
  · subst own
    rw [State.setFab_fabric_self hs, hf]
  · rw [State.fabric_setFab_ne _ own]

theorem State.isolated_setFab {s : State} (hs : s.canon) {r : Nat} {f : FabRegion → FabRegion}
    (hf : ∀ x, (f x).isolated = x.isolated) (q : Nat) : ((s.setFab r f).fabric q).isolated = (s.fabric q).isolated := by
  by_cases own : q = r
  · subst own
    rw [State.setFab_fabric_self hs, hf]
  · rw [State.fabric_setFab_ne _ own]

/-- The parts of `State.isolate` before and after the cells engage, none of which a region's core or its cells' state
shows. -/
theorem State.isolate_eq (s : State) (r : Nat) :
    let drained := (List.range 8).foldl (fun s p => s.setPort r p (fun q => { q with txBuf := [] }))
      (if (s.fabric r).isolated then s else s.runDesign r)
    let closed := drained.setFab r (fun f => { f with isolated := true, borderOpen := false, cps := [] })
    let shut := closed.setFab (r ^^^ 1) (fun f => { f with borderOpen := false })
    let seen := if shut.afterStage1 && !(s.fabric r).isolated then shut.raise (.fabStatus r) 0x04000000 else shut
    s.isolate r = if r % 2 = 0 then seen.fixLane (r / 2) else seen := rfl

/-- What `State.isolate` leaves of every region, and the cells of its own engaged (R243). -/
theorem State.fabric_isolate {s : State} (hs : s.canon) (r q : Nat) :
    ((s.isolate r).fabric q).core = (s.fabric q).core ∧
      ((s.isolate r).fabric q).isolated = (decide (q = r) || (s.fabric q).isolated) := by
  obtain ⟨drained, hd⟩ : ∃ u, u = (List.range 8).foldl (fun s p => s.setPort r p (fun q => { q with txBuf := [] }))
      (if (s.fabric r).isolated then s else s.runDesign r) := ⟨_, rfl⟩
  have made := s.isolate_eq r
  simp only [← hd] at made
  have first : drained.canon ∧ (drained.fabric q).core = (s.fabric q).core ∧
      (drained.fabric q).isolated = (s.fabric q).isolated := by
    rw [hd]
    refine inv_foldl (inv := fun u : State => u.canon ∧ (u.fabric q).core = (s.fabric q).core ∧
      (u.fabric q).isolated = (s.fabric q).isolated) (fun u p ⟨hu, core, cells⟩ => ?_) _ ?_
    · refine ⟨State.canon_of_keeps (.setPort (.refl u)) hu, (State.core_setFab hu ?_ q).trans core,
        (State.isolated_setFab hu ?_ q).trans cells⟩
      · exact fun _ => rfl
      · exact fun _ => rfl
    · split
      · exact ⟨hs, rfl, rfl⟩
      · exact ⟨State.canon_runDesign hs r, FabRegion.core_of_view (State.view_runDesign hs r q),
          FabRegion.of_view FabRegion.isolated (fun _ => rfl) (State.view_runDesign hs r q)⟩
  obtain ⟨canonD, core, cells⟩ := first
  obtain ⟨closed, hc⟩ : ∃ u, u = drained.setFab r (fun f => { f with isolated := true, borderOpen := false, cps := [] }) :=
    ⟨_, rfl⟩
  have canonC : closed.canon := hc ▸ State.canon_setFab canonD fun _ ⟨ports, trees, delays, _⟩ => ⟨ports, trees, delays, rfl⟩
  have coreC : (closed.fabric q).core = (s.fabric q).core := by
    rw [hc]
    refine (State.core_setFab canonD ?_ q).trans core
    exact fun _ => rfl
  have cellsC : (closed.fabric q).isolated = (decide (q = r) || (s.fabric q).isolated) := by
    rw [hc]
    by_cases own : q = r
    · subst own
      rw [State.setFab_fabric_self canonD]
      simp
    · rw [State.fabric_setFab_ne _ own, cells]
      simp [own]
  obtain ⟨shut, hu⟩ : ∃ u, u = closed.setFab (r ^^^ 1) (fun f => { f with borderOpen := false }) := ⟨_, rfl⟩
  have canonU : shut.canon := hu ▸ State.canon_setFab canonC fun _ => id
  have coreU : (shut.fabric q).core = (s.fabric q).core := by
    rw [hu]
    refine (State.core_setFab canonC ?_ q).trans coreC
    exact fun _ => rfl
  have cellsU : (shut.fabric q).isolated = (decide (q = r) || (s.fabric q).isolated) := by
    rw [hu]
    refine (State.isolated_setFab canonC ?_ q).trans cellsC
    exact fun _ => rfl
  have seen (c : Bool) : let u := if c then shut.raise (.fabStatus r) 0x04000000 else shut
      (u.fabric q).core = (s.fabric q).core ∧ (u.fabric q).isolated = (decide (q = r) || (s.fabric q).isolated) := by
    cases c
    · exact ⟨coreU, cellsU⟩
    · change ((shut.setFab r (fun x => { x with isoSeen := _ })).fabric q).core = _ ∧
        ((shut.setFab r (fun x => { x with isoSeen := _ })).fabric q).isolated = _
      refine ⟨(State.core_setFab canonU ?_ q).trans coreU, (State.isolated_setFab canonU ?_ q).trans cellsU⟩
      · exact fun _ => rfl
      · exact fun _ => rfl
  simp only [← hc, ← hu] at made
  rw [made]
  split
  · exact seen _
  · exact seen _

theorem State.canon_holdFabric {s : State} (hs : s.canon) (r : Nat) : (s.holdFabric r).canon :=
  State.canon_of_keeps (.holdFabric (.refl s)) hs

/-- A region held (R362, R395): isolated, with set/reset asserted and block RAM writes off; what else the others see of any
region stays. -/
theorem State.fabric_holdFabric {s : State} (hs : s.canon) (r q : Nat) :
    ((s.holdFabric r).fabric q).isolated = (decide (q = r) || (s.fabric q).isolated) ∧
      ((s.holdFabric r).fabric q).gsr = (decide (q = r) || (s.fabric q).gsr) ∧
      ((s.holdFabric r).fabric q).writes = (decide (q ≠ r) && (s.fabric q).writes) ∧
      { ((s.holdFabric r).fabric q).core with gsr := true, writes := false } =
        { (s.fabric q).core with gsr := true, writes := false } := by
  have canon := State.canon_of_keeps (.isolate (r := r) (.refl s)) hs
  obtain ⟨core, cells⟩ := State.fabric_isolate hs r q
  unfold State.holdFabric
  by_cases own : q = r
  · subst own
    rw [State.setFab_fabric_self canon]
    refine ⟨cells.trans (by simp), by simp [FabRegion.freeze], by simp [FabRegion.freeze], ?_⟩
    rw [← core]
    rfl
  · rw [State.fabric_setFab_ne _ own, core, cells]
    have gsr := FabRegion.of_core FabRegion.gsr (fun _ => rfl) core
    have writes := FabRegion.of_core FabRegion.writes (fun _ => rfl) core
    simp [own, gsr, writes]

/-- Every region held. -/
theorem State.fabric_holdFabrics {s : State} (hs : s.canon) {r : Nat} (hr : r < 64) :
    (((List.range 64).foldl State.holdFabric s).fabric r).isolated = true ∧
      (((List.range 64).foldl State.holdFabric s).fabric r).gsr = true ∧
      (((List.range 64).foldl State.holdFabric s).fabric r).writes = false := by
  have places := foldl_range_places (step := State.holdFabric) (inv := State.canon)
    (get := fun s r => ((s.fabric r).isolated, (s.fabric r).gsr, (s.fabric r).writes))
    (change := fun _ _ => (true, true, false)) (fun s i h => State.canon_holdFabric h i)
    (fun s i h => by
      obtain ⟨cells, gsr, writes, -⟩ := State.fabric_holdFabric h i i
      simp only [cells, gsr, writes]
      simp)
    (fun s i j h other => by
      obtain ⟨cells, gsr, writes, -⟩ := State.fabric_holdFabric h i j
      simp only [cells, gsr, writes]
      simp [other]) hs hr
  simp only [Prod.mk.injEq] at places
  exact places

/-! The gates of tiles and stream engines. -/

theorem State.gateOf_gateTiles {s : State} (hs : s.canon) (on : Bool) {r : Nat} (hr : r < 64) :
    (s.gateTiles on).gateOf r = if on && !s.units.fenced r then s.gateOf r ||| 0x2F else s.gateOf r &&& ~~~ (0x2F : Word) := by
  unfold State.gateTiles
  refine foldl_range_places (get := State.gateOf) (inv := fun t => tabWf 0 t.clk.gateRegion = true ∧ t.units = s.units)
    (change := fun r w => if on && !s.units.fenced r then w ||| 0x2F else w &&& ~~~ (0x2F : Word))
    ?keep ?self ?ne ⟨(s.canon_iff.mp hs).gateRegion, rfl⟩ hr
  case keep => exact fun t i ⟨wf, units⟩ => ⟨tabWf_put _ _ _ _ wf, units⟩
  case self =>
    intro t i ⟨wf, units⟩
    rw [← units]
    exact look_put_self _ _ _ _ wf
  case ne => exact fun t i j _ other => look_put_ne 0 t.clk.gateRegion i j _ other

theorem and_not_and_self (w m : Word) : (w &&& ~~~ m) &&& m = 0 := by
  refine BitVec.eq_of_getLsbD_eq fun i _ => ?_
  simp

theorem or_and_self (w m : Word) : (w ||| m) &&& m = m := by
  refine BitVec.eq_of_getLsbD_eq fun i _ => ?_
  simp only [BitVec.getLsbD_and, BitVec.getLsbD_or]
  grind

section Frames
variable {l : List Piece} {s t : State}

theorem Only.fixLane {n : Nat} (h : Only l s t) (sub : within [.ftx] l = true) : Only l s (t.fixLane n) := h.setLane sub

theorem Only.fixLanes (h : Only l s t) (sub : within [.ftx] l = true) : Only l s t.fixLanes :=
  h.then (k := [.ftx]) (.foldl (.refl t) fun _ _ h => h.fixLane rfl) sub

theorem Only.gateTiles {on : Bool} (h : Only l s t) (sub : within [.clk] l = true) : Only l s (t.gateTiles on) :=
  h.then (k := [.clk]) (.foldl (.refl t) fun _ _ h => h.withClk rfl) sub

theorem Only.gateTier {lp on : Bool} (h : Only l s t) (sub : within [.clk] l = true) : Only l s (t.gateTier lp on) :=
  h.then (k := [.clk]) (.foldl (.refl t) fun _ _ h => h.withClk rfl) sub

theorem Only.setTier {lp : Bool} {x : TierSr} (h : Only l s t) (sub : within [.mpk] l = true) : Only l s (t.setTier lp x) := by
  unfold State.setTier
  exact .ite (h.withMpk sub) (h.withMpk sub)

theorem Only.holdFabric {r : Nat} (h : Only l s t) (sub : within [.fab, .flagCnt, .ftx] l = true) :
    Only l s (t.holdFabric r) :=
  h.then (k := [.fab, .flagCnt, .ftx]) (.setFab (.isolate (.refl t) rfl) rfl) sub

theorem Only.judgeLink (h : Only l s t) (sub : within [.strait, .flagCnt] l = true) : Only l s t.judgeLink := by
  refine h.then (k := [.strait, .flagCnt]) ?_ sub
  unfold State.judgeLink
  exact .ite (.raise (.withStrait (.refl t) rfl) rfl) (.withStrait (.refl t) rfl)

theorem Only.idleStrait (h : Only l s t) (sub : within [.strait, .flagCnt] l = true) : Only l s t.idleStrait :=
  h.then (k := [.strait, .flagCnt]) (.judgeLink (.foldl (.refl t) fun _ _ h => h.setStrLane rfl) rfl) sub

theorem Only.restartFabrics (h : Only l s t) (sub : within [.fab] l = true) : Only l s t.restartFabrics :=
  h.then (k := [.fab]) (.foldl (.refl t) fun _ _ h => .ite (h.setFab rfl) h) sub

end Frames

/-- The gates of the tiles are not those of the isles, where the memory controllers have theirs. -/
theorem State.gateRegion_gateTier (s : State) (lp on : Bool) : (s.gateTier lp on).clk.gateRegion = s.clk.gateRegion := by
  unfold State.gateTier
  refine inv_foldl (inv := fun t : State => t.clk.gateRegion = s.clk.gateRegion) ?_ _ rfl
  exact fun _ _ h => h

theorem State.strLane_setStrLane_ne (s : State) {k l : Nat} (h : k ≠ l) (f : StrLane → StrLane) :
    (s.setStrLane l f).strLane k = s.strLane k := look_modify_ne _ _ _ h

theorem State.strLane_judgeLink (s : State) (l : Nat) : s.judgeLink.strLane l = s.strLane l := by
  unfold State.judgeLink
  split <;> rfl

/-- Every Strait lane idle (R362, R414). -/
theorem State.strLane_idleStrait {s : State} (hs : s.canon) {l : Nat} (hl : l < 32) :
    s.idleStrait.strLane l = { s.strLane l with
      up := false, training := false, step := 0, idle := true, back := false, rejoin := false } := by
  unfold State.idleStrait
  rw [State.strLane_judgeLink]
  refine foldl_range_places (get := State.strLane) (inv := State.canon)
    (change := fun _ x => { x with up := false, training := false, step := 0, idle := true, back := false, rejoin := false })
    ?keep ?self ?ne hs hl
  case keep => exact fun t _ h => State.canon_of_keeps (.setStrLane (.refl t)) h
  case self => exact fun _ i h => State.setStrLane_strLane_self h i _
  case ne => exact fun t i j _ other => t.strLane_setStrLane_ne other _

/-! Tiers that wake, and the accesses that they served not. -/

/-- What serving an access leaves of the memory package: whether the real-time tier was read is all it notes. -/
def State.Calm (s t : State) : Prop :=
  t.mpk.hbm = s.mpk.hbm ∧ t.mpk.lp = s.mpk.lp ∧ t.mpk.held = s.mpk.held ∧ t.mpk.panic = s.mpk.panic ∧
    t.out.smbAck = s.out.smbAck

theorem State.Calm.refl (s : State) : s.Calm s := ⟨rfl, rfl, rfl, rfl, rfl⟩

theorem State.Calm.trans {s t u : State} (h : s.Calm t) (k : t.Calm u) : s.Calm u := by
  obtain ⟨a, b, c, d, e⟩ := h
  obtain ⟨a', b', c', d', e'⟩ := k
  exact ⟨a'.trans a, b'.trans b, c'.trans c, d'.trans d, e'.trans e⟩

theorem State.calm_of_only {s t : State} (h : Only [.free, .mem, .ctl, .cxl, .pair] s t) : s.Calm t := by
  have mpk := h.frame .mpk rfl
  have out := h.frame .out rfl
  exact ⟨congrArg MemPkg.hbm mpk, congrArg MemPkg.lp mpk, congrArg MemPkg.held mpk, congrArg MemPkg.panic mpk,
    congrArg Outputs.smbAck out⟩

theorem State.calm_touch (s : State) (a n : Nat) (write : Bool) : s.Calm (s.touch a n write) := by
  unfold State.touch
  exact (State.Calm.trans (t := { s with mpk := { s.mpk with served := s.mpk.served || isLp a } }) ⟨rfl, rfl, rfl, rfl, rfl⟩
    (State.calm_of_only (.foldl (.refl _) fun _ _ h => h.setCtl rfl)))

theorem State.calm_correctRead (s : State) (a n : Nat) : s.Calm (s.correctRead a n) := by
  unfold State.correctRead
  exact State.calm_of_only (.foldl (.refl _) fun _ _ h => .setCtl (.withFree h rfl) rfl)

theorem State.calm_mark (s : State) (a n : Nat) : s.Calm (s.mark a n) := by
  unfold State.mark
  split
  · exact ⟨rfl, rfl, rfl, rfl, rfl⟩
  · exact .refl s

theorem State.calm_hostStore (s : State) (a : Nat) (b : List Byte) : s.Calm (s.hostStore a b) := by
  unfold State.hostStore State.wrMem State.untrack
  split
  · exact (s.calm_touch a b.length true).trans (State.calm_mark _ a b.length)
  · exact .refl s

theorem State.calm_hostLoad (s : State) (a n : Nat) : s.Calm (s.hostLoad a n) := by
  unfold State.hostLoad State.track State.untrack
  split
  · exact (s.calm_touch a n false).trans (State.calm_correctRead { s.touch a n false with cxl := _ } a n)
  · exact ⟨rfl, rfl, rfl, rfl, rfl⟩

/-- An access that is served ends with the tiers, and what is held, as they were. -/
theorem State.calm_serveAccess (s : State) (h : HeldAccess) : s.Calm (s.serveAccess h) := by
  unfold State.serveAccess
  split
  · exact s.calm_hostLoad ..
  · exact s.calm_hostStore ..
  · exact s.calm_mark h.addr h.len
  · exact (s.calm_touch ..).trans (State.calm_correctRead ..)

/-- The accesses that need wait no longer (R191, R198): their service moves no tier; out of panic, with both tiers awake,
none goes on waiting. -/
theorem State.serveReady_calm (s : State) : s.serveReady.mpk.hbm = s.mpk.hbm ∧ s.serveReady.mpk.lp = s.mpk.lp ∧
    s.serveReady.mpk.panic = s.mpk.panic ∧ s.serveReady.out.smbAck = s.out.smbAck ∧
    (s.mpk.hbm = {} → s.mpk.lp = {} → s.mpk.panic = false → s.serveReady.mpk.held = []) := by
  unfold State.serveReady
  obtain ⟨u, hu⟩ : ∃ u, u = { s with mpk := { s.mpk with held := [] } } := ⟨_, rfl⟩
  rw [← hu]
  suffices all : ∀ (l : List HeldAccess) (u : State), u.mpk.hbm = s.mpk.hbm → u.mpk.lp = s.mpk.lp →
      u.mpk.panic = s.mpk.panic → u.out.smbAck = s.out.smbAck →
      (s.mpk.hbm = {} → s.mpk.lp = {} → s.mpk.panic = false → u.mpk.held = []) →
      let t := l.foldl (fun s h =>
        if s.holds h.addr h.len then { s with mpk := { s.mpk with held := s.mpk.held ++ [h] } } else s.serveAccess h) u
      t.mpk.hbm = s.mpk.hbm ∧ t.mpk.lp = s.mpk.lp ∧ t.mpk.panic = s.mpk.panic ∧ t.out.smbAck = s.out.smbAck ∧
        (s.mpk.hbm = {} → s.mpk.lp = {} → s.mpk.panic = false → t.mpk.held = []) by
    exact all _ u (by rw [hu]) (by rw [hu]) (by rw [hu]) (by rw [hu]) (fun _ _ _ => by rw [hu])
  intro l
  induction l with
  | nil => exact fun u a b c d e => ⟨a, b, c, d, e⟩
  | cons h l ih =>
    intro u a b c d e
    rw [List.foldl_cons]
    obtain ⟨a', b', held, c', d'⟩ := u.calm_serveAccess h
    split
    · rename_i waits
      refine ih _ a b c d fun hbm lp panic => ?_
      have awake : u.holds h.addr h.len = false := by
        have tier (k : Bool) : u.tier k = {} := by cases k <;> simp [State.tier, a, b, hbm, lp]
        simp [State.holds, State.waits, State.tierHeld, State.outranked, tier, c, panic, e hbm lp panic]
      rw [awake] at waits
      cases waits
    · exact ih _ (a'.trans a) (b'.trans b) (c'.trans c) (d'.trans d) fun x y z => held.trans (e x y z)

section Frames
variable {l : List Piece} {s t : State}

theorem Only.touch {a n : Nat} {w : Bool} (h : Only l s t) (sub : within [.mpk, .ctl] l = true) : Only l s (t.touch a n w) :=
  h.then (k := [.mpk, .ctl]) (.foldl (.withMpk (.refl t) rfl) fun _ _ h => h.setCtl rfl) sub

theorem Only.correctRead {a n : Nat} (h : Only l s t) (sub : within [.free, .ctl] l = true) :
    Only l s (t.correctRead a n) :=
  h.then (k := [.free, .ctl]) (.foldl (.refl t) fun _ _ h => .setCtl (.withFree h rfl) rfl) sub

theorem Only.mark {a n : Nat} (h : Only l s t) (sub : within [.pair] l = true) : Only l s (t.mark a n) := by
  unfold State.mark
  exact .ite (h.withPair sub) h

theorem Only.hostStore {a : Nat} {b : List Byte} (h : Only l s t) (sub : within [.mpk, .ctl, .cxl, .pair, .mem] l = true) :
    Only l s (t.hostStore a b) := by
  refine h.then (k := [.mpk, .ctl, .cxl, .pair, .mem]) ?_ sub
  unfold State.hostStore State.wrMem State.untrack
  exact .ite (.withMem (.mark (.withCxl (.touch (.refl t) rfl) rfl) rfl) rfl) (.refl t)

theorem Only.hostLoad {a n : Nat} (h : Only l s t) (sub : within [.mpk, .ctl, .cxl, .free, .out] l = true) :
    Only l s (t.hostLoad a n) := by
  refine h.then (k := [.mpk, .ctl, .cxl, .free, .out]) ?_ sub
  unfold State.hostLoad State.track State.untrack State.drawBytes
  exact .ite (.withOut (.correctRead (.withCxl (.touch (.refl t) rfl) rfl) rfl) rfl) (.withOut (.withFree (.refl t) rfl) rfl)

theorem Only.serveAccess {x : HeldAccess} (h : Only l s t)
    (sub : within [.mpk, .ctl, .cxl, .pair, .mem, .free, .out] l = true) : Only l s (t.serveAccess x) := by
  refine h.then (k := [.mpk, .ctl, .cxl, .pair, .mem, .free, .out]) ?_ sub
  unfold State.serveAccess State.zeroMem
  split
  · exact .hostLoad (.refl t) rfl
  · exact .hostStore (.refl t) rfl
  · exact .withMem (.mark (.refl t) rfl) rfl
  · exact .correctRead (.touch (.refl t) rfl) rfl

theorem Only.serveReady (h : Only l s t) (sub : within [.mpk, .ctl, .cxl, .pair, .mem, .free, .out] l = true) :
    Only l s t.serveReady :=
  h.then (k := [.mpk, .ctl, .cxl, .pair, .mem, .free, .out]) (.foldl (.withMpk (.refl t) rfl) fun _ _ h =>
    .ite (h.withMpk rfl) (h.serveAccess rfl)) sub

end Frames

/-- Start-up orders begin again in the regions with an image (R363). -/
theorem State.fabric_restartFabrics {s : State} (hs : s.canon) {r : Nat} (hr : r < 64) :
    s.restartFabrics.fabric r = if (s.fabric r).configured && !s.fabGone r then { s.fabric r with startup := {
      (s.fabric r).startup with slot := none, running := true, steps := 0, done := false, timedOut := false } }
      else s.fabric r := by
  unfold State.restartFabrics
  refine foldl_range_places (get := State.fabric) (inv := fun t => t.canon ∧ t.units = s.units)
    (change := fun r f => if f.configured && !s.fabGone r then { f with startup := {
      f.startup with slot := none, running := true, steps := 0, done := false, timedOut := false } } else f)
    ?keep ?self ?ne ⟨hs, rfl⟩ hr
  case keep =>
    intro t i ⟨canon, units⟩
    dsimp only
    split
    · exact ⟨State.canon_setFab canon fun _ => id, units⟩
    · exact ⟨canon, units⟩
  case self =>
    intro t i ⟨canon, units⟩
    have gone : t.fabGone i = s.fabGone i := congrArg (fun u : Units => u.fenced i || u.fabFenced.getLsbD i) units
    dsimp only
    rw [gone]
    split
    · exact State.setFab_fabric_self canon i _
    · rfl
  case ne =>
    intro t i j _ other
    dsimp only
    split
    · exact t.fabric_setFab_ne other _
    · rfl

theorem State.wakeTiers_calm (s : State) : s.wakeTiers.mpk.hbm = {} ∧ s.wakeTiers.mpk.lp = {} ∧
    s.wakeTiers.out.smbAck = s.out.smbAck ∧ (s.mpk.panic = false → s.wakeTiers.mpk.held = []) := by
  obtain ⟨u, hu⟩ : ∃ u, u = (((s.setTier false {}).setTier true {}).gateTier false true).gateTier true true := ⟨_, rfl⟩
  have gated : Only [.clk] ((s.setTier false {}).setTier true {}) u := hu ▸ .gateTier (.gateTier (.refl _) rfl) rfl
  have mpk := gated.frame .mpk rfl
  have out := gated.frame .out rfl
  obtain ⟨hbm, lp, -, ack, none_⟩ := u.serveReady_calm
  have made : s.wakeTiers = u.serveReady := hu ▸ rfl
  rw [made]
  refine ⟨hbm.trans (congrArg MemPkg.hbm mpk), lp.trans (congrArg MemPkg.lp mpk),
    ack.trans (congrArg Outputs.smbAck out), fun calm => ?_⟩
  exact none_ (congrArg MemPkg.hbm mpk) (congrArg MemPkg.lp mpk) ((congrArg MemPkg.panic mpk).trans calm)

theorem State.gateRegion_wakeTiers (s : State) : s.wakeTiers.clk.gateRegion = s.clk.gateRegion := by
  unfold State.wakeTiers
  have served := (Only.serveReady (l := [.mpk, .ctl, .cxl, .pair, .mem, .free, .out])
    (.refl ((((s.setTier false {}).setTier true {}).gateTier false true).gateTier true true)) rfl).frame .clk rfl
  exact (congrArg Clk.gateRegion served).trans ((State.gateRegion_gateTier _ _ _).trans (State.gateRegion_gateTier _ _ _))

/-! Commands over the management bus. -/

theorem State.smbWrites_nak {s : State} {pec : Bool} (h : s.dev.pwrGood = false ∨ pec = false) (ok : Bool)
    (f : State → State) : s.smbWrites pec ok f = s.nak := by
  unfold State.smbWrites
  rw [if_pos]
  rcases h with h | h <;> simp [h]

theorem State.smbWrites_refused {s : State} (good : s.dev.pwrGood = true) {ok : Bool} (no : ok = false)
    (f : State → State) : s.smbWrites true ok f = s.ack.raise .devStatus 0x02000000 := by
  unfold State.smbWrites
  rw [good, no]
  rfl

theorem State.smbWrites_taken {s : State} (good : s.dev.pwrGood = true) {ok : Bool} (yes : ok = true)
    (f : State → State) : s.smbWrites true ok f = f s.ack := by
  unfold State.smbWrites
  rw [good, yes]
  rfl

/-- An acknowledgement on the bus changes nothing for the settings. -/
theorem State.writeSettings_ack (s : State) (b : List Byte) (ok : Bool) :
    s.ack.writeSettings b true ok = (s.writeSettings b true ok).map (fun p => (p.1, p.2.1, p.2.2.ack)) := by
  have loaded : s.ack.imageLoaded = s.imageLoaded := rfl
  have tick : s.ack.tick = s.tick := rfl
  unfold State.writeSettings
  rw [loaded, tick]
  by_cases len : b.length = 8192
  · rw [if_neg (not_not_intro len), if_neg (not_not_intro len)]
    cases fieldFault b true with
    | some o => rfl
    | none =>
      dsimp only
      by_cases late : (decide (fld b 0x10 2 ≠ s.tick.period) && s.imageLoaded) = true
      · rw [if_pos late, if_pos late]
        rfl
      · rw [if_neg late, if_neg late]
        cases ok
        · rfl
        · rfl
  · rw [if_pos len, if_pos len]
    rfl

theorem State.applyAt_of_writeSettings {s : State} {b : List Byte} {bus ok : Bool} {p : Nat × Nat × State}
    (h : s.writeSettings b bus ok = .ok p) : p.2.2.dev.applyAt = true := by
  unfold State.writeSettings at h
  dsimp only at h
  split at h
  · cases h
  · split at h
    · cases h
    · split at h
      · cases h
      · split at h
        · cases h
        · obtain rfl := Except.ok.inj h
          rfl

/-- `SMB_REFUSED` as hardware sets it. -/
theorem State.smbRefused_raise (s : State) : ((s.raise .devStatus 0x02000000).flags .devStatus).getLsbD 25 = true := by
  have bits (a : Bool) :
      (bitW 25 ((bitW 25 a ||| (0x02000000#32 &&& 0x02000000#32)).getLsbD 25)).getLsbD 25 = true := by
    revert a
    decide
  exact bits s.dev.smbRefused

/-! Bytes laid over others. -/

theorem fit_of_le {n : Nat} {l : List Byte} (h : n ≤ l.length) : fit n l = l.take n := by
  rw [fit, List.take_append_of_le_length h]

theorem length_overlay {l : List Byte} {o : Nat} {p : List Byte} (h : o + p.length ≤ l.length) :
    (overlay l o p).length = l.length := by
  unfold overlay
  rw [List.length_append, List.length_append, length_fit, List.length_drop]
  omega

theorem slice_overlay (l : List Byte) (o : Nat) (p : List Byte) : slice (overlay l o p) o p.length = p := by
  unfold slice overlay
  rw [List.append_assoc, List.drop_append_of_le_length (Nat.le_of_eq (length_fit ..).symm),
    List.drop_eq_nil_of_le (Nat.le_of_eq (length_fit ..)), List.nil_append, List.take_left]

theorem getD_overlay {l : List Byte} {o : Nat} {p : List Byte} (h : o + p.length ≤ l.length) {i : Nat}
    (outside : i < o ∨ o + p.length ≤ i) : (overlay l o p).getD i 0 = l.getD i 0 := by
  unfold overlay
  rw [fit_of_le (by omega), List.append_assoc, List.getD_eq_getElem?_getD, List.getD_eq_getElem?_getD]
  rcases outside with before | after
  · rw [List.getElem?_append_left (by rw [List.length_take]; omega), List.getElem?_take, if_pos before]
  · rw [List.getElem?_append_right (by rw [List.length_take]; omega), List.length_take, Nat.min_eq_left (by omega),
      List.getElem?_append_right (by omega), List.getElem?_drop,
      show o + p.length + (i - o - p.length) = i by omega]

/-- Settles O60: each command acknowledged, refused or carried out; what a part that parks or leaves that state shows. -/
theorem boardManagement : Obligations.BoardManagement := by
  unfold Obligations.BoardManagement
  refine ⟨fun s good => ⟨if_pos good, if_pos good, fun i => ?scan⟩, fun s data off b pec f absent => ?absent,
    fun s data off b f good => ?refused, fun s hs good stage none_ alone => ?park, fun s hs good stage => ?unpark,
    fun s good => ?reset, fun s off b good may aligned inside len => ?stage, fun s ok good may => ?commit⟩
  case scan =>
    refine (if_pos good).trans ?_
    rw [Bool.beq_eq_decide_eq, Bool.beq_eq_decide_eq]
  case absent =>
    have nak (ok : Bool) (f : State → State) := congrArg (Host.Outcome.next (φ := Fault) (ρ := Refusal))
      (State.smbWrites_nak absent ok f)
    exact ⟨nak _ _, nak _ _, nak _ _, nak _ _, nak _ _⟩
  case refused =>
    have no (ok : Bool) (f : State → State) (h : ok = false) := congrArg (Host.Outcome.next (φ := Fault) (ρ := Refusal))
      (State.smbWrites_refused good h f)
    refine ⟨fun h => no _ _ ?_, fun h => no _ _ ?_, fun h => no _ _ ?_, fun h => no _ _ ?_, fun h => no _ _ ?_⟩
    · simpa only [State.mayPark, Bool.and_eq_false_iff, beq_eq_false_iff_ne, ne_eq, List.isEmpty_eq_false_iff,
        or_assoc] using h
    · simpa only [Bool.and_eq_false_iff, beq_eq_false_iff_ne] using h
    · simpa only [beq_eq_false_iff_ne] using h
    · simpa only [Bool.and_eq_false_iff, beq_eq_false_iff_ne, decide_eq_false_iff_not, Nat.not_lt, ne_eq,
        or_assoc] using h
    · simpa only [Bool.and_eq_false_iff, beq_eq_false_iff_ne, ne_eq, or_comm] using h
  case park =>
    have ready : (0x5A#8 == 0x5A && s.mayPark) = true := by
      simp [State.mayPark, stage, none_, alone]
    refine ⟨_, congrArg Host.Outcome.next (State.smbWrites_taken good ready _), ?_⟩
    obtain ⟨a, ha⟩ : ∃ a, a = ({ s.ack with dev := { s.dev with stage := 3 } }).gateTiles false := ⟨_, rfl⟩
    obtain ⟨b, hb⟩ : ∃ b, b = (((a.setTier false { inSr := true }).setTier true { inSr := true }).gateTier false
      false).gateTier true false := ⟨_, rfl⟩
    obtain ⟨c, hc⟩ : ∃ c, c = ((List.range 64).foldl State.holdFabric b).fixLanes := ⟨_, rfl⟩
    have made : s.ack.park = c.idleStrait := by
      rw [hc, hb, ha]
      rfl
    have canonA : a.canon := ha ▸ State.canon_of_keeps (.gateTiles (.refl _)) hs
    have canonB : b.canon := hb ▸ State.canon_of_keeps (.gateTier (.gateTier (.setTier (.setTier (.refl _))))) canonA
    have canonC : c.canon := hc ▸ State.canon_of_keeps (.fixLanes (.foldl (.refl _) fun _ _ h => h.holdFabric)) canonB
    have onlyA : Only [.clk] { s.ack with dev := { s.dev with stage := 3 } } a := ha ▸ .gateTiles (.refl _) rfl
    have onlyB : Only [.clk] ((a.setTier false { inSr := true }).setTier true { inSr := true }) b :=
      hb ▸ .gateTier (.gateTier (.refl _) rfl) rfl
    have held : Only [.fab, .flagCnt, .ftx, .strait] b ((List.range 64).foldl State.holdFabric b) :=
      .foldl (.refl b) fun _ _ h => h.holdFabric rfl
    have all : Only [.fab, .flagCnt, .ftx, .strait] b c.idleStrait := .idleStrait (hc ▸ held.fixLanes rfl) rfl
    have shown : c.idleStrait.fab = ((List.range 64).foldl State.holdFabric b).fab :=
      ((Only.idleStrait (l := [.strait, .flagCnt]) (.refl c) rfl).frame .fab rfl).trans
        (hc ▸ (Only.fixLanes (l := [.ftx]) (.refl _) rfl).frame .fab rfl)
    rw [made]
    have mpk : c.idleStrait.mpk = ((a.setTier false { inSr := true }).setTier true { inSr := true }).mpk :=
      (all.frame .mpk rfl).trans (onlyB.frame .mpk rfl)
    refine ⟨?_, congrArg MemPkg.hbm mpk, congrArg MemPkg.lp mpk, ?_, ?_, fun r hr => ?_, fun l hl => ?_⟩
    · exact congrArg Dev.stage ((all.frame .dev rfl).trans ((onlyB.frame .dev rfl).trans (onlyA.frame .dev rfl)))
    · exact congrArg Outputs.smbAck ((all.frame .out rfl).trans ((onlyB.frame .out rfl).trans (onlyA.frame .out rfl)))
    · exact (all.frame .mem rfl).trans ((onlyB.frame .mem rfl).trans (onlyA.frame .mem rfl))
    · obtain ⟨isolated, gsr, -⟩ := State.fabric_holdFabrics canonB hr
      rw [State.fabric_of_fab shown]
      refine ⟨isolated, gsr, ?_⟩
      have clk : c.idleStrait.clk.gateRegion = a.clk.gateRegion := by
        rw [show c.idleStrait.clk = b.clk from all.frame .clk rfl, hb, State.gateRegion_gateTier, State.gateRegion_gateTier]
        rfl
      rw [show c.idleStrait.gateOf r = a.gateOf r from congrArg (fun t => look 0 t r) clk, ha,
        State.gateOf_gateTiles (s := { s.ack with dev := { s.dev with stage := 3 } }) hs false hr]
      exact and_not_and_self _ _
    · rw [State.strLane_idleStrait canonC hl]
      exact ⟨rfl, rfl⟩
  case unpark =>
    have ready : (0x5A#8 == 0x5A && s.dev.stage == 3) = true := by simp [stage]
    refine ⟨_, congrArg Host.Outcome.next (State.smbWrites_taken good ready _), ?_⟩
    obtain ⟨a, ha⟩ : ∃ a, a = ({ s.ack with dev := { s.dev with stage := 2 } }).gateTiles true := ⟨_, rfl⟩
    have made : s.ack.unpark = a.wakeTiers.restartFabrics.fixLanes := by
      rw [ha]
      rfl
    have canonA : a.canon := ha ▸ State.canon_of_keeps (.gateTiles (.refl _)) hs
    have canonB : a.wakeTiers.canon := State.canon_of_keeps (.wakeTiers (.refl _)) canonA
    have onlyA : Only [.clk] { s.ack with dev := { s.dev with stage := 2 } } a := ha ▸ .gateTiles (.refl _) rfl
    have woken : Only [.mpk, .ctl, .cxl, .pair, .mem, .free, .out, .clk] a a.wakeTiers :=
      .serveReady (.gateTier (.gateTier (.setTier (.setTier (.refl a) rfl) rfl) rfl) rfl) rfl
    have last : Only [.fab, .ftx] a.wakeTiers a.wakeTiers.restartFabrics.fixLanes :=
      .fixLanes (.restartFabrics (.refl _) rfl) rfl
    obtain ⟨hbm, lp, ack, none_⟩ := a.wakeTiers_calm
    have mpk := last.frame .mpk rfl
    have units : a.wakeTiers.units = s.units := (woken.frame .units rfl).trans (onlyA.frame .units rfl)
    rw [made]
    refine ⟨?_, (congrArg MemPkg.hbm mpk).trans hbm, (congrArg MemPkg.lp mpk).trans lp, ?_, fun calm => ?_,
      fun r hr serves => ⟨?_, fun image fine => ?_⟩⟩
    · exact congrArg Dev.stage ((last.frame .dev rfl).trans ((woken.frame .dev rfl).trans (onlyA.frame .dev rfl)))
    · exact (congrArg Outputs.smbAck (last.frame .out rfl)).trans
        (ack.trans (congrArg Outputs.smbAck (onlyA.frame .out rfl)))
    · exact (congrArg MemPkg.held mpk).trans (none_ ((congrArg MemPkg.panic (onlyA.frame .mpk rfl)).trans calm))
    · have clk : a.wakeTiers.restartFabrics.fixLanes.clk.gateRegion = a.clk.gateRegion :=
        (congrArg Clk.gateRegion (last.frame .clk rfl)).trans a.gateRegion_wakeTiers
      rw [show a.wakeTiers.restartFabrics.fixLanes.gateOf r = a.gateOf r from congrArg (fun t => look 0 t r) clk, ha,
        State.gateOf_gateTiles (s := { s.ack with dev := { s.dev with stage := 2 } }) hs true hr,
        if_pos (by simp [show s.ack.units = s.units from rfl, serves])]
      exact or_and_self _ _
    · have same : a.wakeTiers.fabric r = s.fabric r :=
        State.fabric_of_fab ((woken.frame .fab rfl).trans (onlyA.frame .fab rfl)) r
      have gone : a.wakeTiers.fabGone r = s.fabGone r :=
        congrArg (fun u : Units => u.fenced r || u.fabFenced.getLsbD r) units
      rw [State.fabric_of_fab ((Only.fixLanes (.refl _) rfl : Only [.ftx] a.wakeTiers.restartFabrics _).frame .fab rfl),
        State.fabric_restartFabrics canonB hr, same, gone, image, fine]
      rfl
  case reset =>
    exact ⟨_, congrArg Host.Outcome.next (State.smbWrites_taken good rfl _), rfl, rfl, rfl, rfl, rfl, rfl, rfl, rfl, rfl⟩
  case stage =>
    have taken : (s.smbSettings && off.toNat % 32 == 0 && decide (off.toNat < 8192) && b.length == 32) = true := by
      simp [may, aligned, inside, len]
    have room : off.toNat + b.length ≤ (fit 8192 s.dev.staging).length := by
      rw [length_fit]
      omega
    refine ⟨_, congrArg Host.Outcome.next (State.smbWrites_taken good taken _), rfl, ?_, ?_, rfl, fun i outside => ?_⟩
    · exact (length_overlay room).trans (length_fit _ _)
    · rw [← len]
      exact slice_overlay _ _ _
    · exact getD_overlay room (by rwa [len])
  case commit =>
    have ready : (0x5A#8 == 0x5A && s.smbSettings) = true := by
      rw [may]
      rfl
    refine ⟨_, congrArg Host.Outcome.next (State.smbWrites_taken good ready _), ?_⟩
    have written := s.writeSettings_ack (fit 8192 s.dev.staging) ok
    have settings : s.ack.dev.staging = s.dev.staging := rfl
    dsimp only
    unfold State.commitSettings
    rw [settings, written]
    cases outcome : s.writeSettings (fit 8192 s.dev.staging) true ok with
    | error f => exact ⟨rfl, rfl, rfl, rfl, s.ack.smbRefused_raise⟩
    | ok p =>
      have apply_ := State.applyAt_of_writeSettings outcome
      obtain ⟨q, copy, u⟩ := p
      dsimp only [Except.map]
      split
      · exact ⟨rfl, rfl, rfl, rfl, rfl, apply_⟩
      · exact ⟨rfl, rfl, rfl, rfl, rfl, apply_⟩

end Sys2Proof.Machine
end

section
/-! PROOFS. The host's accesses to device memory (O49). -/

namespace Sys2Proof.Machine

/-! Decoders, holds and service of the host's accesses. -/

theorem State.hdm_dec0 {s : State} {h n : Nat} (committed : s.cxl.dec0.committed = true) (low : s.cxl.dec0.base ≤ h)
    (high : h + n ≤ s.cxl.dec0.base + 0x139C0000000) : s.hdm h n = some (h - s.cxl.dec0.base) := by
  have window : s.hdmSize 0 = 0x139C0000000 := rfl
  unfold State.hdm
  simp only [committed, low, window, high, decide_true, Bool.and_self, if_true, Nat.zero_add]

theorem State.holds_of_frozen {s : State} {a n : Nat} (h : s.frozenAt a n = true) : s.holds a n = false := by
  simp [State.holds, h]

theorem State.served_of_frozen {s : State} {a n : Nat} (h : s.frozenAt a n = true) : s.served a n = false := by
  simp [State.served, h]

theorem State.hostRead_eq {s : State} {h n a : Nat} (port : s.memPort = true) (mapped : s.hdm h n = some a) :
    exec (.hostMemRead h n) s =
      .next (if s.holds a n then s.holdAccess { kind := .read, addr := a, len := n } else s.hostLoad a n) := by
  refine (if_pos port).trans ?_
  unfold State.hostRead
  rw [mapped]

theorem State.hostWrite_eq {s : State} {h a : Nat} {b : List Byte} (port : s.memPort = true)
    (mapped : s.hdm h b.length = some a) :
    exec (.hostMemWrite h b) s = .next (s.completeWrite (s.hostWriteAt a b)) := by
  refine (if_pos port).trans ?_
  unfold State.hostWrite
  rw [mapped]

/-- An access held begins its tier's exit from self-refresh (R198). -/
theorem State.holdAccess_eq (s : State) (h : HeldAccess) : (s.holdAccess h).mpk.held = s.mpk.held ++ [h] ∧
    (s.tierHeld h.addr = true → ((s.holdAccess h).tier (isLp h.addr)).leaving = true) ∧
    (s.holdAccess h).out = s.out ∧ (s.holdAccess h).mem = s.mem ∧ (s.holdAccess h).pair = s.pair := by
  have exit (u : State) (a : Nat) : (u.startExit a).mpk.held = u.mpk.held ∧
      ((u.startExit a).tier (isLp a)).leaving = true ∧ (u.startExit a).out = u.out ∧ (u.startExit a).mem = u.mem ∧
      (u.startExit a).pair = u.pair := by
    unfold State.startExit
    split
    · exact ⟨rfl, ‹_›, rfl, rfl, rfl⟩
    · cases isLp a <;> exact ⟨rfl, rfl, rfl, rfl, rfl⟩
  unfold State.holdAccess
  dsimp only
  have held : ({ s with mpk := { s.mpk with held := s.mpk.held ++ [h] } } : State).tierHeld h.addr = s.tierHeld h.addr := by
    unfold State.tierHeld State.tier
    cases isLp h.addr <;> rfl
  rw [held]
  split
  · obtain ⟨held, leaving, out, mem, pair⟩ := exit { s with mpk := { s.mpk with held := s.mpk.held ++ [h] } } h.addr
    exact ⟨held, fun _ => leaving, out, mem, pair⟩
  · exact ⟨rfl, fun asleep => absurd asleep ‹_›, rfl, rfl, rfl⟩

/-- A write that nothing forwards completes at once (R324). -/
theorem State.completeWrite_of_unacked {s t : State} (h : t.pair.unacked.length = s.pair.unacked.length) :
    s.completeWrite t = { t with out := { t.out with writesDone := t.out.writesDone + 1 } } := if_pos h

theorem State.unacked_mark (s : State) (a n : Nat) : (s.mark a n).pair.unacked = s.pair.unacked := by
  unfold State.mark
  split <;> rfl

theorem State.unacked_hostStore (s : State) (a : Nat) (b : List Byte) :
    (s.hostStore a b).pair.unacked = s.pair.unacked := by
  unfold State.hostStore
  split
  · exact (State.unacked_mark _ a b.length).trans (congrArg Pair.unacked (State.touch_pair s a b.length true))
  · rfl

/-- The flag of a write that the secondary's host made (R325). -/
theorem State.secWrite_raise (s : State) : (s.raise .pairState 0x00200000).pair = { s.pair with secWrite := true } ∧
    ((s.raise .pairState 0x00200000).flags .pairState).getLsbD 21 = true := by
  have bits (a b c d e f : Bool) :
      let w := bitsW [(26, a), (25, b), (24, c), (23, d), (21, e), (20, f)] ||| (0x00200000#32 &&& 0x07B00000#32)
      (w.getLsbD 26, w.getLsbD 25, w.getLsbD 24, w.getLsbD 23, w.getLsbD 21, w.getLsbD 20) = (a, b, c, d, true, f) := by
    revert a b c d e f
    decide
  obtain ⟨w, hw⟩ : ∃ w, w = bitsW [(26, s.pair.partnerLost), (25, s.pair.linkLost), (24, s.pair.hbFault),
    (23, s.pair.diverged), (21, s.pair.secWrite), (20, s.pair.laneOvf)] ||| (0x00200000#32 &&& 0x07B00000#32) := ⟨_, rfl⟩
  have all := bits s.pair.partnerLost s.pair.linkLost s.pair.hbFault s.pair.diverged s.pair.secWrite s.pair.laneOvf
  simp only [← hw, Prod.mk.injEq] at all
  obtain ⟨a, b, c, d, e, f⟩ := all
  have pair : (s.raise .pairState 0x00200000).pair = { s.pair with secWrite := true } := by
    have raised : (s.raise .pairState 0x00200000).pair = { s.pair with
        partnerLost := w.getLsbD 26, linkLost := w.getLsbD 25, hbFault := w.getLsbD 24, diverged := w.getLsbD 23
        secWrite := w.getLsbD 21, laneOvf := w.getLsbD 20 } := by
      rw [hw]
      rfl
    rw [raised, a, b, c, d, e, f]
  refine ⟨pair, ?_⟩
  unfold State.flags
  rw [pair]
  rw [getLsbD_bitsW _ (by decide)]
  simp

/-- Settles O49: each access by the decoder, the holds and the pair's role. -/
theorem hostMemory : Obligations.HostMemory := by
  unfold Obligations.HostMemory
  refine ⟨fun s h n => State.hdm_dec0, fun s h n port none_ => ?readNone, fun s h b port none_ => ?writeNone,
    fun s h n a port mapped free served => ?read, fun s h n a port mapped frozen => ?poison,
    fun s h a b port mapped alone free on => ?write, fun s h n a port mapped waits serves => ?heldRead,
    fun s h a b port mapped alone waits serves => ?heldWrite, fun s h a b port mapped shadow => ⟨fun role => ?drop, fun role => ?forward⟩⟩
  case readNone =>
    refine (if_pos port).trans ?_
    unfold State.hostRead
    rw [none_]
  case writeNone =>
    refine (if_pos port).trans ?_
    unfold State.hostWrite
    rw [none_]
    exact congrArg Host.Outcome.next (State.completeWrite_of_unacked rfl)
  case read =>
    refine ⟨_, State.hostRead_eq port mapped, ?_⟩
    have only : Only [.mpk, .ctl, .cxl, .free, .out] s (s.hostLoad a n) := .hostLoad (.refl s) rfl
    rw [if_neg (by simp [State.holds, free])]
    refine ⟨?_, ?_, only.frame .mem rfl, only.frame .tiles rfl, only.frame .sess rfl⟩
    · unfold State.hostLoad
      rw [if_pos served]
      rfl
    · unfold State.hostLoad
      rw [if_pos served]
  case poison =>
    refine ⟨_, State.hostRead_eq port mapped, ?_⟩
    have only : Only [.mpk, .ctl, .cxl, .free, .out] s (s.hostLoad a n) := .hostLoad (.refl s) rfl
    rw [if_neg (by simp [State.holds_of_frozen frozen])]
    refine ⟨?_, only.frame .mem rfl⟩
    unfold State.hostLoad
    rw [if_neg (by simp [State.served_of_frozen frozen])]
  case write =>
    have stored : s.hostWriteAt a b = s.hostStore a b := by
      unfold State.hostWriteAt State.devStore
      rw [alone, if_neg (by simp), if_neg (by simp), if_neg (by simp [State.holds, free])]
    refine ⟨_, State.hostWrite_eq port mapped, ?_⟩
    have only : Only [.mpk, .ctl, .cxl, .pair, .mem] s (s.hostStore a b) := .hostStore (.refl s) rfl
    rw [stored, State.completeWrite_of_unacked (congrArg List.length (s.unacked_hostStore a b))]
    refine ⟨?_, only.frame .tiles rfl, only.frame .sess rfl, ?_⟩
    · refine (State.hostStore_mem s a b).trans ?_
      cases frozen : s.frozenAt a b.length
      · simp [State.served, frozen, on]
      · simp [State.served, frozen]
    · exact congrArg (fun o : Outputs => o.writesDone + 1) (only.frame .out rfl)
  case heldRead =>
    refine ⟨_, State.hostRead_eq port mapped, ?_⟩
    rw [if_pos (by simp [State.holds, waits, serves])]
    obtain ⟨held, leaving, out, mem, -⟩ := s.holdAccess_eq { kind := .read, addr := a, len := n }
    exact ⟨held, leaving, out, mem⟩
  case heldWrite =>
    have stored : s.hostWriteAt a b = s.holdAccess { kind := .write, addr := a, len := b.length, data := b, mb := none } := by
      unfold State.hostWriteAt State.devStore
      rw [alone, if_neg (by simp), if_neg (by simp), if_pos (by simp [State.holds, waits, serves])]
    refine ⟨_, State.hostWrite_eq port mapped, ?_⟩
    obtain ⟨held, leaving, -, mem, pair⟩ :=
      s.holdAccess_eq { kind := .write, addr := a, len := b.length, data := b, mb := none }
    rw [stored, State.completeWrite_of_unacked (by rw [pair])]
    exact ⟨held, leaving, mem⟩
  case drop =>
    have dropped : s.hostWriteAt a b = s.raise .pairState 0x00200000 := by
      unfold State.hostWriteAt
      rw [if_pos (by simp [shadow, role])]
    obtain ⟨pair, set⟩ := s.secWrite_raise
    refine ⟨_, State.hostWrite_eq port mapped, ?_⟩
    rw [dropped, State.completeWrite_of_unacked (by rw [pair])]
    exact ⟨rfl, set, pair⟩
  case forward =>
    refine ⟨_, State.hostWrite_eq port mapped, ?_⟩
    have sent : s.hostWriteAt a b = { s with pair := { s.pair with
        seq := s.pair.seq + 1
        unacked := s.pair.unacked ++ [{ seq := s.pair.seq + 1, tag := s.tick.count + 1, input := .write a b }]
        inputs := s.pair.inputs ++ [{ seq := s.pair.seq + 1, tag := s.tick.count + 1, input := .write a b }] } } := by
      unfold State.hostWriteAt State.forward
      rw [if_neg (by simp [role]), if_pos shadow, if_pos (by simp [shadow, role])]
    rw [sent]
    unfold State.completeWrite
    rw [if_neg (by simp)]
    exact ⟨rfl, rfl, rfl, rfl, rfl⟩

end Sys2Proof.Machine
end

section
/-! PROOFS. A failed buffer and a step that is not its region's (O50). -/

namespace Sys2Proof.Machine

/-- A part whose one session runs its step on cluster 0 and holds no region. -/
def strayStep : State := { dev := { pwrGood := true }, sess := [{ id := 1, running := some {
  item := { image := 0, counter := 0, cookie := 0, replay := none }, live := [0], begun := true } }] }

/-- Its tables are those at reset. -/
theorem canon_strayStep : strayStep.canon := by
  obtain ⟨canon, -⟩ := resetIsCanonical
  exact (strayStep.canon_iff).mpr ((State.reset.canon_iff).mp canon)

theorem bufServes_strayStep : strayStep.bufServes 0 = true := by decide

/-- Its step goes on as cluster 0's buffer fails. -/
theorem strayStep_goesOn : ∃ t, exec (.clusterBufferUncorrectable 0) strayStep = .next t ∧ t.sess = strayStep.sess := by
  refine ⟨_, (if_pos bufServes_strayStep : execClusterBufferUncorrectable 0 strayStep = _), ?_⟩
  rfl

/-- Refutes O50: its last part takes every session whose step runs on the cluster, also one that does not hold the
cluster's region, as the one of `strayStep`; only the steps of sessions that hold the region stop. -/
theorem not_memoryEvents : ¬ Obligations.MemoryEvents := by
  unfold Obligations.MemoryEvents
  intro h
  obtain ⟨-, -, -, -, -, -, -, buffer⟩ := h
  obtain ⟨t, answer, _, _, _, stops⟩ := buffer strayStep 0 canon_strayStep bufServes_strayStep
  obtain ⟨u, goesOn, kept⟩ := strayStep_goesOn
  obtain rfl := Host.Outcome.next.inj (goesOn.symm.trans answer)
  obtain ⟨y, found, stopped⟩ := stops 1 _ _ rfl rfl rfl rfl (List.mem_singleton.mpr rfl) rfl
  rw [State.session, kept] at found
  obtain rfl := Option.some.inj found
  cases stopped

end Sys2Proof.Machine
end

section
/-! PROOFS. Fabric lanes, Strait lanes and the CXL link (O55). -/

namespace Sys2Proof.Machine

/-! Flags. -/

/-- A flag that hardware sets reads 1 (R375). -/
theorem State.flag_raised {s : State} (hs : s.canon) (g : Reg) {mask : Word} {bit : Nat}
    (set : (mask &&& g.flagMask).getLsbD bit = true) : ((s.raise g mask).flags g).getLsbD bit = true := by
  have raised : (s.raise g mask).flags g = (s.flags g ||| (mask &&& g.flagMask)) &&& g.kept :=
    (State.flags_withCounters _ _ _).trans (State.flags_putFlags hs g _)
  have stays : (mask &&& g.flagMask) &&& g.kept = mask &&& g.flagMask := by
    rw [BitVec.and_assoc, Reg.flagMask_and_kept]
  rw [raised, BitVec.getLsbD_and, BitVec.getLsbD_or, set, Bool.or_true, Bool.true_and]
  have kept := congrArg (fun w => w.getLsbD bit) stays
  simp only [BitVec.getLsbD_and (y := g.kept), set, Bool.true_and] at kept
  exact kept

/-- A flag that is set stays set when hardware sets others of its register (R375). -/
theorem State.flag_stays {s : State} (hs : s.canon) (g : Reg) {mask : Word} {bit : Nat}
    (set : (s.flags g).getLsbD bit = true) : ((s.raise g mask).flags g).getLsbD bit = true := by
  have raised : (s.raise g mask).flags g = (s.flags g ||| (mask &&& g.flagMask)) &&& g.kept :=
    (State.flags_withCounters _ _ _).trans (State.flags_putFlags hs g _)
  have kept := congrArg (fun w => w.getLsbD bit) (State.flags_and_kept s g)
  simp only [BitVec.getLsbD_and, set, Bool.true_and] at kept
  rw [raised, BitVec.getLsbD_and, BitVec.getLsbD_or, set, Bool.true_or, Bool.true_and]
  exact kept

/-- The flags of the CXL port as hardware sets one. -/
theorem State.cxlFlag_raised (s : State) {mask : Word} {bit : Nat}
    (one : bit = 27 ∨ bit = 26 ∨ bit = 25) (is : mask = bitW bit true) :
    ((s.raise .cxlStatus mask).flags .cxlStatus).getLsbD bit = true := by
  have bits (a b c : Bool) :
      let w := bitsW [(27, a), (26, b), (25, c)] ||| (mask &&& 0x0E000000#32)
      (bitsW [(27, w.getLsbD 27), (26, w.getLsbD 26), (25, w.getLsbD 25)]).getLsbD bit = true := by
    subst is
    revert a b c
    rcases one with rfl | rfl | rfl <;> decide
  exact bits _ _ _

/-! Fabric lanes. -/

theorem State.lane_setLane_ne (s : State) {k l : Nat} (h : k ≠ l) (f : FabLane → FabLane) :
    (s.setLane l f).lane k = s.lane k := look_modify_ne _ _ _ h

theorem State.canon_setLane {s : State} (hs : s.canon) (l : Nat) (f : FabLane → FabLane) : (s.setLane l f).canon :=
  State.canon_of_keeps (.setLane (.refl s)) hs

/-- What holds a fabric lane's transmitter idle, whatever its design asks (R244, R326, R414). -/
def State.laneStill (s : State) (l : Nat) : Bool :=
  s.laneHeld l || (s.pair.shadow && s.pair.role == 2 && (s.lane l).mirrored)

theorem State.lane_fixLane {s : State} (hs : s.canon) (l : Nat) :
    (s.fixLane l).lane l =
      { s.lane l with txIdle := s.laneStill l || (s.lane l).designIdle || (s.lane l).holdIdle } :=
  State.setLane_lane_self hs l _

/-- The flags of a fabric lane as hardware sets one (R410, R411). -/
theorem State.lane_raise_ftxStatus {s : State} (hs : s.canon) (l : Nat) {bit : Nat} (ofTwo : bit = 27 ∨ bit = 26)
    {mask : Word} (is : mask = bitW bit true) :
    (∃ a b, (s.raise (.ftxStatus l) mask).lane l = { s.lane l with coefErr := a, lockLost := b }) ∧
      (∀ k, k ≠ l → (s.raise (.ftxStatus l) mask).lane k = s.lane k) ∧
      ((s.raise (.ftxStatus l) mask).flags (.ftxStatus l)).getLsbD bit = true := by
  have bits (a b : Bool) : ((bitsW [(27, a), (26, b)] ||| (mask &&& 0x0C000000#32)) &&& 0x0C000000#32).getLsbD bit =
      true := by
    subst is
    revert a b
    rcases ofTwo with rfl | rfl <;> decide
  have raised : (s.raise (.ftxStatus l) mask).flags (.ftxStatus l) =
      (s.flags (.ftxStatus l) ||| (mask &&& 0x0C000000#32)) &&& 0x0C000000#32 :=
    (State.flags_withCounters _ _ _).trans (State.flags_putFlags hs (.ftxStatus l) _)
  refine ⟨⟨_, _, State.setLane_lane_self hs l (fun x => { x with
    coefErr := (s.flags (.ftxStatus l) ||| (mask &&& 0x0C000000#32)).getLsbD 27
    lockLost := (s.flags (.ftxStatus l) ||| (mask &&& 0x0C000000#32)).getLsbD 26 })⟩,
    fun k other => s.lane_setLane_ne other (fun x => { x with coefErr := _, lockLost := _ }), ?_⟩
  rw [raised]
  exact bits _ _

/-! Strait lanes. -/

theorem State.straitTaps_bounds {v top rest : Nat} {a : TapAsk} (h : v ≤ top) (sum : v + rest ≤ 32) :
    (askTap v top rest a).1 ≤ top ∧ (askTap v top rest a).1 + rest ≤ 32 := by
  unfold askTap
  cases a with
  | hold => exact ⟨h, sum⟩
  | inc =>
    dsimp only
    repeat' split
    · dsimp only
      omega
    · exact ⟨h, sum⟩
  | dec =>
    dsimp only
    repeat' split
    · dsimp only
      omega
    · exact ⟨h, sum⟩

section Frames
variable {l : List Piece} {s t : State}

theorem Only.notify {id bits : Nat} (h : Only l s t) (sub : within [.sess, .mbx, .flagCnt, .out] l = true) :
    Only l s (t.notify id bits) := by
  refine h.then (k := [.sess, .mbx, .flagCnt, .out]) ?_ sub
  unfold State.notify
  split
  · exact .refl t
  · exact .foldl (.setSess (.refl t) rfl) fun _ _ h => h.setEvent rfl

theorem Only.notifyAll {bits : Nat} (h : Only l s t) (sub : within [.sess, .mbx, .flagCnt, .out] l = true) :
    Only l s (t.notifyAll bits) :=
  h.then (k := [.sess, .mbx, .flagCnt, .out]) (.foldl (.refl t) fun _ _ h => h.notify rfl) sub

theorem Only.setRole {role : Nat} (h : Only l s t) (sub : within [.pair, .ftx, .sess, .mbx, .flagCnt, .out] l = true) :
    Only l s (t.setRole role) :=
  h.then (k := [.pair, .ftx, .sess, .mbx, .flagCnt, .out]) (.notifyAll (.fixLanes (.withPair (.refl t) rfl) rfl) rfl) sub

theorem Only.formPair {f : PartnerFit} (h : Only l s t) (sub : within [.pair, .ftx, .sess, .mbx, .flagCnt, .out] l = true) :
    Only l s (t.formPair f) := by
  refine h.then (k := [.pair, .ftx, .sess, .mbx, .flagCnt, .out]) ?_ sub
  unfold State.formPair
  exact .ite (.refl t) (.ite (.setRole (.refl t) rfl) (.ite (.refl t) (.setRole (.withPair (.refl t) rfl) rfl)))

end Frames

theorem State.strait_linkTrained (s : State) (up : Bool) (fit : Option PartnerFit) :
    (s.linkTrained up fit).strait = s.strait := by
  unfold State.linkTrained
  split
  · split
    · exact (Only.formPair (l := [.pair, .ftx, .sess, .mbx, .flagCnt, .out]) (.refl s) rfl).frame .strait rfl
    · rfl
  · rfl

/-- A training step of a Strait lane (R406): the lane, and the order of the lanes where it went well. -/
theorem State.straitLaneTraining_eq {s : State} (hs : s.canon) {l : Nat} (on : s.straitOn = true) (inRange : l < 32)
    (down : (s.strLane l).up = false) (settled : (s.strLane l).rejoin = false) (ok : Bool) (found : LaneTrial) :
    Answers (exec (.straitLaneTraining l ok found) s) (fun t => t.strLane l = (s.strLane l).train ok ∧
      (ok = true → t.strait.reversed = found.reversed)) := by
  refine ⟨_, if_pos (by simp [on, inRange, down, settled]), ?_⟩
  have strait := State.strait_linkTrained (s.trainLane l ok found.reversed) (decide (16 ≤ s.lanesUp)) found.fit
  have lane : (s.trainLane l ok found.reversed).strLane l = (s.strLane l).train ok := by
    unfold State.trainLane
    dsimp only
    rw [State.strLane_judgeLink]
    refine Eq.trans ?_ (State.setStrLane_strLane_self hs l (fun x => x.train ok))
    split <;> rfl
  refine ⟨?_, fun well => ?_⟩
  · rw [← lane, State.strLane, strait, State.strLane]
  · rw [strait]
    unfold State.trainLane State.judgeLink
    dsimp only
    rw [if_pos well]
    split <;> rfl

theorem StrLane.answer_preset {x : StrLane} {p : Nat} {c : Nat × Nat × Nat} (h : presetOf p = some c) :
    x.answer { preset := some p } = ({ x with pre2 := c.1, pre1 := c.2.1, post1 := c.2.2 }, [0, 0, 0]) := by
  unfold StrLane.answer
  simp only [h]
  rfl

theorem presetOf_bounds {p a b c : Nat} (h : presetOf p = some (a, b, c)) :
    a ≤ 6 ∧ b ≤ 16 ∧ c ≤ 12 ∧ a + b + c ≤ 32 := by
  unfold presetOf at h
  (repeat' split at h) <;> cases h <;> decide

/-- A request of the partner's (R407) leaves the taps in their limits, with one status for each. -/
theorem StrLane.answer_bounds (x : StrLane) (q : EqRequest) : (x.answer q).2.length = 3 ∧
    (x.pre2 ≤ 6 → x.pre1 ≤ 16 → x.post1 ≤ 12 → x.pre2 + x.pre1 + x.post1 ≤ 32 →
      (x.answer q).1.pre2 ≤ 6 ∧ (x.answer q).1.pre1 ≤ 16 ∧ (x.answer q).1.post1 ≤ 12 ∧
        (x.answer q).1.pre2 + (x.answer q).1.pre1 + (x.answer q).1.post1 ≤ 32) := by
  unfold StrLane.answer
  dsimp only
  split
  · split
    · rename_i found
      refine ⟨rfl, fun _ _ _ _ => ?_⟩
      split at found
      · cases found
      · exact presetOf_bounds found
    · exact ⟨rfl, fun a b c sum => ⟨a, b, c, sum⟩⟩
  · refine ⟨rfl, fun a b c sum => ?_⟩
    obtain ⟨low, one⟩ := State.straitTaps_bounds (a := q.pre2) (rest := x.pre1 + x.post1) a (by omega)
    obtain ⟨mid, two⟩ := State.straitTaps_bounds (a := q.pre1)
      (rest := (askTap x.pre2 6 (x.pre1 + x.post1) q.pre2).1 + x.post1) b (by omega)
    obtain ⟨high, three⟩ := State.straitTaps_bounds (a := q.post1)
      (rest := (askTap x.pre2 6 (x.pre1 + x.post1) q.pre2).1 + (askTap x.pre1 16
        ((askTap x.pre2 6 (x.pre1 + x.post1) q.pre2).1 + x.post1) q.pre1).1) c (by omega)
    refine ⟨low, mid, high, ?_⟩
    dsimp only
    omega

/-- A lane that answers a request of its partner's (R407). -/
def State.answerRequest (s : State) (l : Nat) (q : EqRequest) : State :=
  let t := s.setStrLane l (fun _ => { ((s.strLane l).answer q).1 with requests := (s.strLane l).requests + 1 })
  { t with out := { t.out with trainReply := ((s.strLane l).answer q).2 } }

/-- A request of the partner's to a lane in its third step (R407). -/
theorem State.equalisationRequest_eq {s : State} {l : Nat} (q : EqRequest)
    (begun : (s.straitOn && decide (l < 32) && (s.strLane l).training && (s.strLane l).step == 3) = true) :
    exec (.equalisationRequest l q) s = .next (if q.done then s.setStrLane l StrLane.endStep3
      else if (s.strLane l).requests < 4000 then
        s.answerRequest l q
      else s) := by
  refine (if_pos begun).trans ?_
  split
  · rfl
  · split <;> rfl

theorem State.lanes_trained {s : State} (hs : s.canon) (l : Nat) (q : EqRequest) :
    (s.answerRequest l q).strLane l = { ((s.strLane l).answer q).1 with requests := (s.strLane l).requests + 1 } ∧
      (s.answerRequest l q).out.trainReply = ((s.strLane l).answer q).2 :=
  ⟨State.setStrLane_strLane_self hs l (fun _ => { ((s.strLane l).answer q).1 with
    requests := (s.strLane l).requests + 1 }), rfl⟩

/-! Links. -/

theorem State.lanesUp_judgeLink (s : State) : s.judgeLink.lanesUp = s.lanesUp := by
  unfold State.lanesUp
  simp only [State.strLane_judgeLink]

theorem State.laneDrop_judgeLink {s : State} (hs : s.canon) (set : (s.flags .strStatus).getLsbD 28 = true) :
    (s.judgeLink.flags .strStatus).getLsbD 28 = true := by
  unfold State.judgeLink
  split
  · exact State.flag_stays (State.canon_of_keeps (Keeps.refl s |>.congr rfl) hs) .strStatus set
  · exact set

/-- A link that loses its width (R405). -/
theorem State.down_judgeLink {s : State} (hs : s.canon) (was : s.strait.wasUp = true) (few : s.lanesUp < 16) :
    (s.judgeLink.flags .strStatus).getLsbD 27 = true := by
  unfold State.judgeLink
  rw [if_pos (by simp [was, few])]
  exact State.flag_raised (State.canon_of_keeps (Keeps.refl s |>.congr rfl) hs) .strStatus (by decide)

/-- A Strait lane as hardware sets its flag (R408). -/
theorem State.strLane_raise {s : State} (hs : s.canon) (l : Nat) (mask : Word) :
    (∃ b, (s.raise (.strLane l) mask).strLane l = { s.strLane l with removed := b }) ∧
      ∀ k, k ≠ l → (s.raise (.strLane l) mask).strLane k = s.strLane k :=
  ⟨⟨_, State.setStrLane_strLane_self hs l (fun x => { x with
    removed := (s.flags (.strLane l) ||| (mask &&& 0x40000000#32)).getLsbD 30 })⟩,
    fun _ other => s.strLane_setStrLane_ne other (fun x => { x with removed := _ })⟩

/-- A lane removed from the link (R408, R416). -/
theorem State.removeLane_spec {s : State} (hs : s.canon) (l codewords : Nat) :
    let t := s.removeLane l codewords
    (∃ b, t.strLane l = { s.strLane l with
        up := false, training := false, step := 0, kept := true, back := true
        fecUe := (s.strLane l).fecUe + codewords, removed := b }) ∧
      (t.flags (.strLane l)).getLsbD 30 = true ∧ (t.flags .strStatus).getLsbD 28 = true ∧
      (∀ k, k ≠ l → t.strLane k = s.strLane k) ∧
      (s.strait.wasUp = true → t.lanesUp < 16 → (t.flags .strStatus).getLsbD 27 = true) := by
  intro t
  obtain ⟨u, hu⟩ : ∃ u, u = s.setStrLane l (fun x => { x with
    up := false, training := false, step := 0, kept := true, back := true, fecUe := x.fecUe + codewords }) := ⟨_, rfl⟩
  obtain ⟨v, hv⟩ : ∃ v, v = u.raise (.strLane l) 0x40000000 := ⟨_, rfl⟩
  obtain ⟨w, hw⟩ : ∃ w, w = v.raise .strStatus 0x10000000 := ⟨_, rfl⟩
  obtain ⟨x, hx⟩ : ∃ x, x = { w with strait := { w.strait with replays := w.strait.replays + 1 } } := ⟨_, rfl⟩
  have made : t = x.judgeLink := by rw [hx, hw, hv, hu]; rfl
  have canonU : u.canon := hu ▸ State.canon_of_keeps (.setStrLane (.refl s)) hs
  have canonV : v.canon := hv ▸ State.canon_of_keeps (.raise (.refl u)) canonU
  have canonW : w.canon := hw ▸ State.canon_of_keeps (.raise (.refl v)) canonV
  have canonX : x.canon := hx ▸ State.canon_of_keeps (Keeps.refl w |>.congr rfl) canonW
  have lanes (k : Nat) : t.strLane k = v.strLane k := by
    rw [made, State.strLane_judgeLink, hx, hw]
    rfl
  have self := State.setStrLane_strLane_self hs l (fun x => { x with
    up := false, training := false, step := 0, kept := true, back := true, fecUe := x.fecUe + codewords })
  rw [← hu] at self
  obtain ⟨⟨b, lane⟩, others⟩ := State.strLane_raise canonU l 0x40000000
  rw [← hv] at lane others
  refine ⟨⟨b, ?_⟩, ?_, ?_, fun k other => ?_, fun was few => ?_⟩
  · rw [lanes, lane, self]
  · have set : (v.flags (.strLane l)).getLsbD 30 = true := hv ▸ State.flag_raised canonU (.strLane l)
      (show (0x40000000 &&& 0x40000000#32 : Word).getLsbD 30 = true by decide)
    change (bitW 30 (t.strLane l).removed).getLsbD 30 = true
    rw [lanes]
    exact set
  · have set : (w.flags .strStatus).getLsbD 28 = true := hw ▸ State.flag_raised canonV .strStatus (by decide)
    rw [made]
    refine State.laneDrop_judgeLink canonX ?_
    rw [hx]
    exact set
  · rw [lanes, others k other, hu]
    exact s.strLane_setStrLane_ne other _
  · rw [made]
    refine State.down_judgeLink canonX ?_ ?_
    · rw [hx, hw, hv, hu]
      exact was
    · rw [made, State.lanesUp_judgeLink] at few
      exact few

/-- A frame in sequence (R191, R405). -/
theorem State.acceptFrame_spec (s : State) (body : List Byte) :
    (s.acceptFrame body).mem = s.mem ∧ (s.acceptFrame body).strait.rxSeq = s.strait.rxSeq + 1 := by
  have entered (u : State) (a : Nat) : (u.ingress a body).mem = u.mem ∧ (u.ingress a body).strait = u.strait := by
    unfold State.ingress State.enterPanic
    dsimp only
    split <;> exact ⟨rfl, rfl⟩
  unfold State.acceptFrame
  dsimp only
  split
  · obtain ⟨mem, strait⟩ := entered { s.draw.2 with
      strait := { s.draw.2.strait with rxSeq := s.draw.2.strait.rxSeq + 1 } } (s.draw.1 / 2 * 32)
    exact ⟨mem, congrArg StraitLink.rxSeq strait⟩
  · exact ⟨rfl, rfl⟩

theorem State.sameWork_raise (s : State) (mask : Word) : SameWork s (s.raise .cxlStatus mask) :=
  ⟨rfl, rfl, rfl, rfl, rfl, rfl, rfl, rfl, rfl, rfl, rfl⟩

theorem State.dropLink_spec (s : State) : s.dropLink.cxl.up = false ∧ s.dropLink.sess = s.sess ∧
    s.dropLink.mbx = s.mbx ∧ s.dropLink.dev = s.dev ∧ SameWork s s.dropLink := by
  unfold State.dropLink
  split
  · exact ⟨rfl, rfl, rfl, rfl, State.sameWork_raise _ _⟩
  · exact ⟨Bool.eq_false_iff.mpr ‹_›, rfl, rfl, rfl, rfl, rfl, rfl, rfl, rfl, rfl, rfl, rfl, rfl, rfl, rfl⟩

/-- Settles O55: each event of a lane or of a link by the fields it changes. -/
theorem lanesAndLinks : Obligations.LanesAndLinks := by
  unfold Obligations.LanesAndLinks
  refine ⟨fun s l pre post hs on design runtime => ?coef, fun s l hs on design lock => ?slip,
    fun s l idle hs on change => ?txIdle, fun s l hs on lock => ?lost, fun s l hs on kept none_ => ?acquired,
    fun s l idle hs on => ?rxIdle, fun s l reversed fit hs on inRange down settled => ⟨?fails, ?trains⟩,
    fun s l q hs on inRange => ?request, fun s seq kind body intact on wide room => ?frame,
    fun s l codewords hs on inRange up => ?removal, fun s rate width may => ?training,
    fun s up => ⟨?down, ⟨_, if_pos up, rfl⟩, fun replays => ?recovery, fun replays l1 => ?wake, fun d3 => ?power,
      fun k inRange keyed runs => ?ide, fun base size ways => ?first, fun base size ways populated => ?second⟩,
    fun s good => ?reset⟩
  case coef =>
    have answer : exec (.txCoefLoad l pre post) s = if pre.toNat + post.toNat ≤ 40 then
        .next (s.setLane l (fun x => { x with pre := pre.toNat, post := post.toNat }))
        else .next (s.raise (.ftxStatus l) 0x08000000) := if_pos (by simp [on, design, runtime])
    rw [answer]
    by_cases fits : pre.toNat + post.toNat ≤ 40
    · rw [if_pos fits]
      refine ⟨_, rfl, fun k other => s.lane_setLane_ne other _, ?_⟩
      rw [if_pos fits]
      exact State.setLane_lane_self hs l _
    · rw [if_neg fits]
      obtain ⟨⟨a, b, lane⟩, others, set⟩ := State.lane_raise_ftxStatus hs l (.inl rfl) (mask := 0x08000000) (by decide)
      refine ⟨_, rfl, others, ?_⟩
      rw [if_neg fits, lane]
      exact ⟨rfl, rfl, set⟩
  case slip =>
    exact ⟨_, if_pos (by simp [on, design, lock]), State.setLane_lane_self hs l _⟩
  case txIdle =>
    refine ⟨_, if_pos ?_, ?_⟩
    · rw [on]
      exact bne_iff_ne.mpr change
    · unfold State.designIdles
      dsimp only
      obtain ⟨u, hu⟩ : ∃ u, u = s.setLane l (fun x => { x with
        designIdle := idle, holdIdle := if idle then x.holdIdle else s.clk.hold || s.pwr.inTrip }) := ⟨_, rfl⟩
      have lane : u.lane l = { s.lane l with
          designIdle := idle, holdIdle := if idle then (s.lane l).holdIdle else s.clk.hold || s.pwr.inTrip } := by
        rw [hu]
        exact State.setLane_lane_self hs l _
      have canon : u.canon := hu ▸ State.canon_setLane hs l _
      have held : u.laneHeld l = s.laneHeld l := by
        rw [hu]
        rfl
      have still : u.laneStill l = (s.laneHeld l || (s.pair.shadow && s.pair.role == 2 && (s.lane l).mirrored)) := by
        unfold State.laneStill
        rw [held, lane, hu]
        rfl
      rw [← hu, State.lane_fixLane canon, still, lane]
      refine ⟨rfl, fun yes => ?_, fun no stopped => ?_, fun no free alone => ?_⟩
      · simp [yes]
      · have holds : s.laneHeld l = true := by
          unfold State.laneHeld
          rcases stopped with h | h <;> simp [h]
        have kept : (s.clk.hold || s.pwr.inTrip) = true := by
          rcases stopped with h | h <;> simp [h]
        simp [no, holds, kept]
      · have kept : (s.clk.hold || s.pwr.inTrip) = false := by
          unfold State.laneHeld at free
          simp only [Bool.or_eq_false_iff] at free
          obtain ⟨⟨⟨-, hold⟩, trip⟩, -⟩ := free
          rw [hold, trip]
          rfl
        simp [no, free, alone, kept]
  case lost =>
    refine ⟨_, if_pos (by simp [on, lock]), ?_⟩
    obtain ⟨⟨a, b, lane⟩, -, set⟩ := State.lane_raise_ftxStatus (State.canon_setLane hs l (fun x => { x with rxLock := false }))
      l (.inr rfl) (mask := 0x04000000) (by decide)
    rw [lane, State.setLane_lane_self hs]
    exact ⟨rfl, set⟩
  case acquired => exact ⟨_, if_pos (by simp [on, kept, none_]), State.setLane_lane_self hs l _⟩
  case rxIdle => exact ⟨_, if_pos on, State.setLane_lane_self hs l _⟩
  case fails =>
    obtain ⟨t, ran, lane, -⟩ := State.straitLaneTraining_eq hs on inRange down settled false ⟨reversed, fit⟩
    refine ⟨t, ran, ?_⟩
    dsimp only
    rw [lane]
    exact ⟨down, rfl, rfl⟩
  case trains =>
    obtain ⟨t, ran, lane, order⟩ := State.straitLaneTraining_eq hs on inRange down settled true ⟨reversed, fit⟩
    refine ⟨t, ran, order rfl, fun fresh first => ?_, fun under last => ?_⟩
    · rw [lane]
      simp [StrLane.train, fresh, first, StrLane.begin]
    · rw [lane]
      simp [StrLane.train, under, last, StrLane.finish]
  case request =>
    intro x training step
    have begun : (s.straitOn && decide (l < 32) && x.training && x.step == 3) = true := by
      simp [on, inRange, training, step]
    refine ⟨_, State.equalisationRequest_eq q begun, ?_⟩
    dsimp only
    by_cases ends : q.done = true
    · rw [if_pos ends, State.setStrLane_strLane_self hs]
      exact ⟨fun _ => ⟨rfl, rfl, rfl, rfl, rfl⟩, fun no => absurd ends (by simp [no])⟩
    · refine ⟨fun yes => absurd yes ends, fun _ few => ?_⟩
      obtain ⟨lane, reply⟩ := State.lanes_trained hs l q
      rw [if_neg ends, if_pos few, lane, reply]
      obtain ⟨len, bounds⟩ := x.answer_bounds q
      refine ⟨rfl, len, fun p c is preset => ?_, fun is => ?_, bounds⟩
      · rw [is, StrLane.answer_preset preset]
        exact ⟨rfl, rfl⟩
      · rw [is]
        exact ⟨rfl, rfl, rfl, rfl⟩
  case frame =>
    have answer : exec (.straitFrame seq kind body intact) s =
        if intact && seq == s.strait.rxSeq then .next (s.acceptFrame body)
        else if intact && decide (seq < s.strait.rxSeq) then .next s
        else .next { s with strait := { s.strait with replays := s.strait.replays + 1 } } :=
      if_pos (by simp [on, wide, room])
    obtain ⟨mem, taken⟩ := s.acceptFrame_spec body
    rw [answer]
    split
    next next =>
      simp only [Bool.and_eq_true, beq_iff_eq] at next
      exact ⟨_, rfl, mem, fun _ _ => taken, fun _ less => by omega, fun other => by
        rcases other with h | h
        · simp [next.1] at h
        · omega⟩
    next next =>
      split
      next old =>
        simp only [Bool.and_eq_true, decide_eq_true_eq] at old
        exact ⟨_, rfl, rfl, fun _ same => by omega, fun _ _ => rfl, fun other => by
          rcases other with h | h
          · simp [old.1] at h
          · omega⟩
      next old =>
        exact ⟨_, rfl, rfl, fun whole same => absurd (by simp [whole, same]) next,
          fun whole less => absurd (by simp [whole, less]) old, fun _ => ⟨rfl, rfl, rfl⟩⟩
  case removal =>
    obtain ⟨⟨b, lane⟩, flag, drop, others, down⟩ := State.removeLane_spec hs l codewords
    refine ⟨_, if_pos (by simp [on, inRange, up]), ?_, ?_, ?_, flag, drop, others, down⟩
    all_goals rw [lane]
  case training =>
    refine ⟨_, if_pos may, ?_⟩
    unfold State.trainLink State.flushVectors
    dsimp only
    split
    · exact ⟨rfl, rfl, rfl, rfl, rfl, rfl, rfl, rfl, rfl, rfl, rfl, rfl, rfl, rfl, rfl⟩
    · exact ⟨rfl, rfl, rfl, rfl, rfl, rfl, rfl, rfl, rfl, rfl, rfl, rfl, rfl, rfl, rfl⟩
  case down =>
    exact ⟨_, congrArg Host.Outcome.next (if_pos up), rfl, State.cxlFlag_raised _ (.inl rfl) (by decide), rfl, rfl, rfl,
      State.sameWork_raise _ _⟩
  case recovery =>
    refine ⟨_, (if_pos (by simp [up])).trans (congrArg Host.Outcome.next (if_neg (by simp))), up, rfl,
      State.cxlFlag_raised _ (.inr (.inr rfl)) (by decide), Bool.and_true _, State.sameWork_raise _ _⟩
  case wake => exact (if_pos (by simp [up, l1])).trans (by simp [l1])
  case power =>
    refine ⟨_, if_pos up, ?_⟩
    unfold State.flushVectors State.busMaster
    dsimp only
    cases d3
    · split
      · exact ⟨rfl, fun _ _ => rfl, fun no => absurd no (by decide)⟩
      · rename_i held
        exact ⟨rfl, fun _ open_ => absurd (by rw [up, open_]; rfl) held, fun no => absurd no (by decide)⟩
    · rw [if_neg (by simp)]
      exact ⟨rfl, fun no => absurd no (by decide), fun _ => rfl⟩
  case ide =>
    refine ⟨_, if_pos (by rw [up, keyed, runs, decide_eq_true inRange]; rfl), ?_, State.cxlFlag_raised _ (.inr (.inl rfl)) (by decide),
      State.sameWork_raise _ _⟩
    change (s.cxl.ideStopped ||| BitVec.ofNat 3 (2 ^ k)).getLsbD k = true
    rw [BitVec.getLsbD_or, BitVec.getLsbD_ofNat, Nat.testBit_two_pow_self]
    simp [inRange]
  case first =>
    refine (if_pos (by simp [up])).trans ?_
    have ok : s.commitOk 0 base size ways = decide (size = 0x139C0000000 ∧ base % 2 ^ 28 = 0 ∧ ways = 1) := by
      unfold State.commitOk State.hdmSize hbmLimit
      rw [Bool.eq_iff_iff]
      simp [and_assoc]
    simp only [ok, decide_eq_true_eq]
    rfl
  case second =>
    refine (if_pos (by simp [up, populated])).trans ?_
    have ok : s.commitOk 1 base size ways = decide (size = s.lpLimit - lpBase ∧ base % 2 ^ 28 = 0 ∧ ways = 1) := by
      unfold State.commitOk State.hdmSize
      rw [Bool.eq_iff_iff]
      simp [and_assoc]
    simp only [ok, decide_eq_true_eq]
    rfl
  case reset =>
    obtain ⟨down, sess, mbx, dev, work⟩ := s.dropLink_spec
    exact ⟨_, if_pos good, down, rfl, rfl, rfl, sess, mbx, dev, work⟩

end Sys2Proof.Machine
end

section
/-! PROOFS. Fences and failed units (O51). -/

namespace Sys2Proof.Machine

/-! What the parts of a fence and of a tile's failure leave alone. -/

section Frames
variable {l : List Piece} {s t : State}

theorem Only.stopUsers {hit : Sess → Run → Bool} {code : Nat} (h : Only l s t) (sub : within [.sess] l = true) :
    Only l s (t.stopUsers hit code) :=
  h.then (k := [.sess]) (.foldl (.refl t) fun _ _ h => h.stopStep rfl) sub

theorem Only.fenceFabric {r : Nat} (h : Only l s t)
    (sub : within [.fab, .flagCnt, .ftx, .loads, .mbx, .fcfg, .log] l = true) : Only l s (t.fenceFabric r) := by
  refine h.then (k := [.fab, .flagCnt, .ftx, .loads, .mbx, .fcfg, .log]) ?_ sub
  unfold State.fenceFabric
  exact .endLoads (.foldl (.setFab (.isolate (.refl t) rfl) rfl) fun _ _ h => .ite (h.setLoad rfl) h) rfl

theorem Only.discardSessions (h : Only l s t) (sub : within [.mbx, .fcfg, .flagCnt, .loads, .fab, .ftx, .log, .tick,
    .tiles, .eng, .bufs, .regions, .sess] l = true) : Only l s t.discardSessions := by
  refine h.then (k := [.mbx, .fcfg, .flagCnt, .loads, .fab, .ftx, .log, .tick, .tiles, .eng, .bufs, .regions, .sess]) ?_ sub
  unfold State.discardSessions
  exact .withSess (.foldl (.foldl (.abortLoads (.release (.refl t) rfl) rfl) fun _ _ h => h.changeover rfl)
    fun _ _ h => h.setMb rfl) rfl

theorem Only.shutRegion {r : Nat} (h : Only l s t) (sub : within [.clk, .sess, .tick, .flagCnt, .tiles, .eng, .fab, .ftx,
    .loads, .mbx, .fcfg, .log, .out] l = true) : Only l s (t.shutRegion r) := by
  refine h.then (k := [.clk, .sess, .tick, .flagCnt, .tiles, .eng, .fab, .ftx, .loads, .mbx, .fcfg, .log, .out]) ?_ sub
  unfold State.shutRegion
  exact .withTick (.note (.unless (.fenceFabric (.dropWork (.stopUsers (.withClk (.refl t) rfl) rfl) rfl) rfl)
    fun h => h.notify rfl) rfl) rfl

theorem Only.putBufRows {cluster base : Nat} {rows : List (Nat × Nat × List Nat)} (h : Only l s t)
    (sub : within [.bufs] l = true) : Only l s (t.putBufRows cluster base rows) := by
  unfold State.putBufRows
  exact .ite h (h.withBufs sub)

theorem Only.haltSlot {i : Nat} {f : Nat → Tile → Tile} (h : Only l s t)
    (sub : within [.tiles, .flagCnt, .free, .bufs] l = true) : Only l s (t.haltSlot i f) := by
  refine h.then (k := [.tiles, .flagCnt, .free, .bufs]) ?_ sub
  unfold State.haltSlot
  exact .ite (.runTile (.refl t) rfl) (.putBufRows (.runTile (.withFree (.refl t) rfl) rfl) rfl)

theorem Only.discardArrays {c : Nat} (h : Only l s t) (sub : within [.tick, .flagCnt, .tiles, .free, .bufs] l = true) :
    Only l s (t.discardArrays c) := by
  refine h.then (k := [.tick, .flagCnt, .tiles, .free, .bufs]) ?_ sub
  unfold State.discardArrays
  exact .foldl (.markEmerg (.refl t) rfl) fun _ _ h => h.haltSlot rfl

theorem Only.abandon {c : Nat} (h : Only l s t) (sub : within [.tick, .flagCnt, .tiles, .eng] l = true) :
    Only l s (t.abandon c) := by
  refine h.then (k := [.tick, .flagCnt, .tiles, .eng]) ?_ sub
  unfold State.abandon
  exact .foldl (.foldl (.markEmerg (.refl t) rfl) fun _ _ h => h.runTile rfl) fun _ n h => by
    split
    · split
      · exact .ite (h.setStream rfl) h
      · exact h
    · exact h

theorem Only.writePrograms {i : Image} {live : List Nat} (h : Only l s t) (sub : within [.tiles] l = true) :
    Only l s (t.writePrograms i live) :=
  h.then (k := [.tiles]) (.foldl (.refl t) fun _ _ h => h.putTile rfl) sub

theorem Only.skipRows {r n : Nat} (h : Only l s t) (sub : within [.eng] l = true) : Only l s (t.skipRows r n) := by
  unfold State.skipRows
  split
  · exact h
  · split
    · exact h
    · exact h.setStream sub

theorem Only.restartStream {r n : Nat} (h : Only l s t) (sub : within [.eng] l = true) : Only l s (t.restartStream r n) := by
  unfold State.restartStream
  dsimp only
  split
  · exact h
  · split
    · exact h
    · exact .skipRows (h.setStream sub) sub

theorem Only.armRings {x : Sess} {run : Run} {hosted : Nat → Bool} (h : Only l s t)
    (sub : within [.tick, .eng, .sess, .flagCnt] l = true) : Only l s (t.armRings x run hosted) := by
  refine h.then (k := [.tick, .eng, .sess, .flagCnt]) ?_ sub
  unfold State.armRings
  exact .foldl (.refl t) fun _ _ h => .ite (by
    dsimp only
    split
    · exact .arm (.withTick h rfl) rfl
    · exact h) h

theorem Only.rerunCluster {c : Nat} {x : Sess} {run : Run} (h : Only l s t)
    (sub : within [.tick, .eng, .sess, .flagCnt, .tiles] l = true) : Only l s (t.rerunCluster c x run) := by
  refine h.then (k := [.tick, .eng, .sess, .flagCnt, .tiles]) ?_ sub
  unfold State.rerunCluster
  refine .armRings (.foldl (.withTick (.foldl (.foldl (.refl t) fun _ _ h => h.putTile rfl) fun _ _ h => ?_) rfl)
    fun _ _ h => h.placeTile rfl) rfl
  split
  · exact .ite (.setStream (.restartStream h rfl) rfl) h
  · exact h

theorem Only.withPairDev {x : Pair} {y : Dev} (h : Only l s t) (sub : within [.pair, .dev] l = true) :
    Only l s { t with pair := x, dev := y } :=
  h.then (k := [.pair, .dev]) (.withPair (x := x) (.withDev (x := y) (.refl t) rfl) rfl) sub

theorem Only.acknowledge {n : Nat} (h : Only l s t) (sub : within [.pair, .out] l = true) : Only l s (t.acknowledge n) := by
  unfold State.acknowledge
  exact h.withPairOut sub

theorem Only.quitPair (h : Only l s t) (sub : within [.pair, .dev, .out, .strait, .mbx, .fcfg, .flagCnt, .loads, .fab, .ftx,
    .log, .tick, .tiles, .eng, .bufs, .regions, .sess] l = true) : Only l s t.quitPair := by
  refine h.then (k := [.pair, .dev, .out, .strait, .mbx, .fcfg, .flagCnt, .loads, .fab, .ftx,
    .log, .tick, .tiles, .eng, .bufs, .regions, .sess]) ?_ sub
  unfold State.quitPair
  exact .discardSessions (.idleStrait (.acknowledge (.withPairDev (.refl t) rfl) rfl) rfl) rfl

end Frames

/-! Leaving pair service. -/

theorem State.left_discard {u : State} (h : u.pair.left = true) : u.idleStrait.discardSessions.pair.left = true := by
  have rest : Only [.mbx, .fcfg, .flagCnt, .loads, .fab, .ftx, .log, .tick, .tiles, .eng, .bufs, .regions, .sess, .strait] u
      u.idleStrait.discardSessions := .discardSessions (.idleStrait (.refl u) rfl) rfl
  exact (congrArg Pair.left (rest.frame .pair rfl)).trans h

/-- A part leaves pair service (R344): its sessions are gone. -/
theorem State.quitPair_spec (s : State) : s.quitPair.pair.left = true ∧ s.quitPair.sess = [] := by
  unfold State.quitPair
  exact ⟨State.left_discard rfl, rfl⟩

/-- A fault that makes a part leave pair service (R25): a formed pair is left, and a part in none goes on. -/
theorem State.leavePair_spec (s : State) : s.leavePair.units = s.units ∧
    (s.pair.formed = true → s.leavePair.pair.left = true ∧ s.leavePair.sess = []) ∧
    (s.pair.formed = false → s.leavePair = s) := by
  unfold State.leavePair
  cases formed : s.pair.formed
  · exact ⟨rfl, nofun, fun _ => rfl⟩
  · obtain ⟨left, sess⟩ := s.quitPair_spec
    exact ⟨(Only.quitPair (l := [.pair, .dev, .out, .strait, .mbx, .fcfg, .flagCnt, .loads, .fab, .ftx, .log, .tick,
      .tiles, .eng, .bufs, .regions, .sess]) (.refl s) rfl).frame .units rfl, fun _ => ⟨left, sess⟩, nofun⟩

theorem getLsbD_or_ofNat {n k : Nat} (h : k < n) (x : BitVec n) : (x ||| BitVec.ofNat n (2 ^ k)).getLsbD k = true := by
  rw [BitVec.getLsbD_or, getLsbD_two_pow h, Bool.or_true]

/-! A region fenced. -/

theorem State.stream_setStream_ne {s : State} (hs : s.canon) {r q n m : Nat} (h : r ≠ q ∨ n ≠ m) (f : Stream → Stream) :
    (s.setStream q m f).stream r n = s.stream r n := by
  unfold State.stream State.engine State.setStream
  dsimp only
  by_cases own : r = q
  · subst own
    obtain other | other := h
    · exact absurd rfl other
    · rw [State.modify_eng_engine_self hs]
      exact look_modify_ne _ _ _ other
  · rw [look_modify_ne _ _ _ own]

/-- The streams of a region disarmed (R369). -/
theorem State.ring_dropWork {s : State} (hs : s.canon) {r q n : Nat} (h : (r = q ∧ n < 32) ∨ (s.stream r n).ring = none) :
    ((s.dropWork q).stream r n).ring = none := by
  unfold State.dropWork
  dsimp only
  generalize hu : List.foldl (fun s i => State.runTile s i emptyTile) _ _ = u
  have canon : u.canon := hu ▸ State.canon_of_keeps (.foldl (.markEmerg (.refl s)) fun _ _ h => h.runTile) hs
  have eng : u.eng = s.eng := (hu ▸ Only.foldl (l := [.tick, .flagCnt, .tiles]) (.markEmerg (.refl s) rfl)
    fun _ _ h => h.runTile rfl : Only [.tick, .flagCnt, .tiles] s u).frame .eng rfl
  have before : (u.stream r n).ring = (s.stream r n).ring := by
    unfold State.stream State.engine
    rw [eng]
  by_cases own : r = q
  · subst own
    have all := foldl_places (step := fun s n => s.setStream r n (fun x => x.disarm)) (get := fun s n => s.stream r n)
      (change := fun _ x => x.disarm) (inv := State.canon) (fun t i h => State.canon_of_keeps (.setStream (.refl t)) h)
      (fun t i h => State.setStream_stream_self h r i _) (fun t i j h other => State.stream_setStream_ne h (.inr other) _)
      (List.nodup_range (n := 32)) canon n
    rw [all]
    split
    · rfl
    · rename_i out
      rw [before]
      exact h.resolve_left fun h => out (List.mem_range.mpr h.2)
  · refine (inv_foldl (inv := fun t : State => t.canon ∧ (t.stream r n).ring = none) (fun t i ⟨canon, empty⟩ => ?_) _
      ⟨canon, before.trans (h.resolve_left fun h => own h.1)⟩).2
    exact ⟨State.canon_of_keeps (.setStream (.refl t)) canon, by rw [State.stream_setStream_ne canon (.inl own), empty]⟩

theorem State.tile_congr {s t : State} (h : t.tiles = s.tiles) (i : Nat) : t.tile i = s.tile i := by
  unfold State.tile
  rw [h]

/-- The tiles of a region emptied (R369). -/
theorem State.job_dropWork {s : State} (hs : s.canon) {q i : Nat} (h : i / 36 = q ∨ (s.tile i).job = none) :
    ((s.dropWork q).tile i).job = none := by
  unfold State.dropWork
  dsimp only
  obtain ⟨u, hu⟩ : ∃ u, u = s.markEmerg (s.inArray q) := ⟨_, rfl⟩
  rw [← hu]
  have tiles : u.tiles = s.tiles := (hu ▸ Only.markEmerg (l := [.tick, .flagCnt]) (.refl s) rfl :
    Only [.tick, .flagCnt] s u).frame .tiles rfl
  have before (i : Nat) : u.tile i = s.tile i := State.tile_congr tiles i
  have canon : u.canon := hu ▸ State.canon_of_keeps (.markEmerg (.refl s)) hs
  generalize hv : List.foldl (fun s i => State.runTile s i emptyTile) _ _ = v
  have last : Only [.eng] v ((List.range 32).foldl (fun s n => s.setStream q n (fun x => x.disarm)) v) :=
    .foldl (.refl v) fun _ _ h => h.setStream rfl
  have same : ((List.range 32).foldl (fun s n => s.setStream q n (fun x => x.disarm)) v).tile i = v.tile i :=
    State.tile_congr (last.frame .tiles rfl) i
  rw [same, ← hv, State.tile_foldl_runTile (State.nodup_slotsOf (u.canon_iff.mp canon).tiles q)
    (u.canon_iff.mp canon).tiles]
  split
  · rfl
  · rename_i out
    obtain own | none := h
    · by_cases empty : u.tile i = {}
      · rw [empty]
      · exact absurd (own ▸ u.mem_slotsOf empty) out
    · rw [before, none]

theorem State.done_markEmerg (s : State) (hit : Bool) : (s.markEmerg hit).tick.done = s.tick.done ∧
    (s.markEmerg hit).tick.active = s.tick.active := by
  unfold State.markEmerg
  split <;> exact ⟨rfl, rfl⟩

theorem State.done_dropWork (s : State) (q : Nat) : (s.dropWork q).tick.done = s.tick.done := by
  unfold State.dropWork
  dsimp only
  have rest : Only [.tiles, .flagCnt, .eng] (s.markEmerg (s.inArray q)) (s.dropWork q) :=
    .foldl (.foldl (.refl _) fun _ _ h => h.runTile rfl) fun _ _ h => h.setStream rfl
  exact (congrArg Tick.done (rest.frame .tick rfl)).trans (s.done_markEmerg _).1

/-- The cells that a fence engages (R369). -/
theorem State.isolated_fenceFabric {s : State} (hs : s.canon) (q r : Nat) :
    ((s.fenceFabric q).fabric r).isolated = (decide (r = q) || (s.fabric r).isolated) := by
  unfold State.fenceFabric
  dsimp only
  generalize hu : State.setFab _ q _ = u
  have rest : Only [.loads, .mbx, .fcfg, .log] u (u.loads.foldl (fun s l =>
      if l.covered.getLsbD q && l.fail.isNone then
        s.setLoad l.slot (fun l => let l := l.setPart q (fun p => { p with dropped := true })
                                   { l with ended := l.ended || (l.begun && l.kind == 1) })
      else s) u).endLoads := .endLoads (.foldl (.refl u) fun _ _ h => .ite (h.setLoad rfl) h) rfl
  have same : ((u.loads.foldl (fun s l =>
      if l.covered.getLsbD q && l.fail.isNone then
        s.setLoad l.slot (fun l => let l := l.setPart q (fun p => { p with dropped := true })
                                   { l with ended := l.ended || (l.begun && l.kind == 1) })
      else s) u).endLoads).fabric r = u.fabric r := State.fabric_of_fab (rest.frame .fab rfl) r
  rw [same, ← hu]
  refine (State.isolated_setFab (State.canon_of_keeps (.isolate (.refl s)) hs) ?_ r).trans (State.fabric_isolate hs q r).2
  exact fun _ => rfl

/-- A region fenced at once (R369): gated, its Rooster done, its cells engaged, its streams disarmed, its tiles empty. -/
def State.Shut (r : Nat) (t : State) : Prop :=
  t.gateOf r = 0 ∧ t.tick.done.getLsbD r = true ∧ (t.fabric r).isolated = true ∧
    (∀ n, n < 32 → (t.stream r n).ring = none) ∧ ∀ i, i / 36 = r → (t.tile i).job = none

theorem State.Shut.of_parts {r : Nat} {s t : State} (h : s.Shut r) (gate : t.clk = s.clk) (done : t.tick.done = s.tick.done)
    (fab : t.fab = s.fab) (eng : t.eng = s.eng) (tiles : t.tiles = s.tiles) : t.Shut r := by
  unfold State.Shut State.gateOf State.fabric State.stream State.engine State.tile
  rw [gate, done, fab, eng, tiles]
  exact h

/-- A region's work stopped, dropped and its fabric fenced, after its clocks are gated. -/
def State.shutDown (s : State) (q : Nat) : State :=
  (({ s with clk := { s.clk with gateRegion := put 0 s.clk.gateRegion q 0 } } : State).stopUsers
    (fun x run => (run.used (x.imageOf run).clusters).any (fun c => c / 4 == q)) 0xF).dropWork q

theorem State.shutRegion_eq (s : State) (q : Nat) :
    let fenced := (s.shutDown q).fenceFabric q
    let told := if (fenced.region q).owner = 0 then fenced else fenced.notify (fenced.region q).owner 4
    s.shutRegion q = { told.note .unit q 0 [] with
      tick := { (told.note .unit q 0 []).tick with done := withBit (told.note .unit q 0 []).tick.done q true } } := rfl

/-- What stopping and dropping a region's work leaves, of this region and of others. -/
theorem State.shutDown_spec {s : State} (hs : s.canon) (q : Nat) {r : Nat} (h : r = q ∨ s.Shut r) :
    (s.shutDown q).canon ∧ (s.shutDown q).gateOf r = 0 ∧ (s.shutDown q).tick.done = s.tick.done ∧
      (s.shutDown q).fab = s.fab ∧ (∀ n, n < 32 → ((s.shutDown q).stream r n).ring = none) ∧
      ∀ i, i / 36 = r → ((s.shutDown q).tile i).job = none := by
  unfold State.shutDown
  obtain ⟨gated, hg⟩ : ∃ u, u = { s with clk := { s.clk with gateRegion := put 0 s.clk.gateRegion q 0 } } := ⟨_, rfl⟩
  rw [← hg]
  generalize hd : State.stopUsers gated _ _ = stopped
  have same : Only [.clk, .sess] s stopped := hd ▸ hg ▸ .stopUsers (.withClk (.refl s) rfl) rfl
  have kept : Only [.sess] gated stopped := hd ▸ .stopUsers (.refl gated) rfl
  have canonG : gated.canon := hg ▸ State.canon_of_keeps ((Keeps.refl s).withClk (tabWf_put 0 _ _ _) id id id) hs
  have canon : stopped.canon := hd ▸ State.canon_of_keeps (.stopUsers (.refl gated)) canonG
  have drop : Only [.tick, .flagCnt, .tiles, .eng] stopped (stopped.dropWork q) := .dropWork (.refl stopped) rfl
  refine ⟨State.canon_of_keeps (.dropWork (.refl stopped)) canon, ?_, ?_, ?_, fun n hn => ?_, fun i hi => ?_⟩
  · have gate : (stopped.dropWork q).gateOf r = gated.gateOf r := by
      unfold State.gateOf
      rw [drop.frame .clk rfl, kept.frame .clk rfl]
    rw [gate, hg]
    by_cases own : r = q
    · subst own
      exact look_put_self 0 _ _ _ (s.canon_iff.mp hs).gateRegion
    · obtain ⟨was, -⟩ := h.resolve_left own
      exact (look_put_ne 0 s.clk.gateRegion q r 0 own).trans was
  · rw [State.done_dropWork, same.frame .tick rfl]
  · exact (drop.frame .fab rfl).trans (same.frame .fab rfl)
  · refine State.ring_dropWork canon (h.imp (fun own => ⟨own, hn⟩) fun ⟨_, _, _, rings, _⟩ => ?_)
    have eng : stopped.stream r n = s.stream r n := by
      unfold State.stream State.engine
      rw [same.frame .eng rfl]
    rw [eng, rings n hn]
  · refine State.job_dropWork canon (h.imp (fun own => hi.trans own) fun ⟨_, _, _, _, jobs⟩ => ?_)
    rw [State.tile_congr (same.frame .tiles rfl), jobs i hi]

theorem getLsbD_withBit_true (m : DWord) (q r : Nat) (h : m.getLsbD r = true) : (withBit m q true).getLsbD r = true := by
  rw [withBit, if_pos rfl, BitVec.getLsbD_or, h, Bool.true_or]

/-- A region is shut by its fence, and stays so while others are fenced. -/
theorem State.shut_shutRegion {s : State} (hs : s.canon) {q r : Nat} (hq : q < 64) (h : r = q ∨ s.Shut r) :
    (s.shutRegion q).Shut r := by
  obtain ⟨canon, gate, done, fab, rings, jobs⟩ := State.shutDown_spec hs q h
  have made := s.shutRegion_eq q
  dsimp only at made
  obtain ⟨dropped, hw⟩ : ∃ u, u = s.shutDown q := ⟨_, rfl⟩
  rw [← hw] at canon gate done fab rings jobs
  simp only [← hw] at made
  generalize ht : (if ((dropped.fenceFabric q).region q).owner = 0 then dropped.fenceFabric q
    else (dropped.fenceFabric q).notify ((dropped.fenceFabric q).region q).owner 4) = told at made
  obtain ⟨u, hu⟩ : ∃ u, u = told.note .unit q 0 [] := ⟨_, rfl⟩
  rw [← hu] at made
  have last : Only [.sess, .mbx, .flagCnt, .out, .log] (dropped.fenceFabric q) u :=
    hu ▸ ht ▸ .note (.unless (.refl _) fun h => h.notify rfl) rfl
  have rest : Only [.fab, .flagCnt, .ftx, .loads, .mbx, .fcfg, .log, .sess, .out] dropped u :=
    Only.then (.fenceFabric (.refl dropped) rfl) last rfl
  rw [made]
  refine ⟨?_, ?_, ?_, fun n hn => ?_, fun i hi => ?_⟩
  · unfold State.gateOf at gate ⊢
    rw [rest.frame .clk rfl]
    exact gate
  · dsimp only
    rw [rest.frame .tick rfl, done]
    obtain own | ⟨-, was, -⟩ := h
    · subst own
      exact getLsbD_withBit_self _ _ hq
    · exact getLsbD_withBit_true _ _ _ was
  · refine (congrArg FabRegion.isolated (State.fabric_of_fab (t := { u with tick := _ }) (last.frame .fab rfl) r)).trans ?_
    rw [State.isolated_fenceFabric canon, State.fabric_of_fab fab]
    obtain own | ⟨-, -, cells, -⟩ := h
    · rw [decide_eq_true own, Bool.true_or]
    · rw [cells, Bool.or_true]
  · unfold State.stream State.engine at rings ⊢
    rw [rest.frame .eng rfl]
    exact rings n hn
  · exact (congrArg Tile.job (State.tile_congr (t := { u with tick := _ }) (rest.frame .tiles rfl) i)).trans (jobs i hi)

/-- Regions fenced one after another. -/
theorem State.shut_foldl {r : Nat} : ∀ {l : List Nat} {s : State}, s.canon → (∀ q ∈ l, q < 64) → r ∈ l ∨ s.Shut r →
    (l.foldl State.shutRegion s).Shut r
  | [], _, _, _, h => h.resolve_left List.not_mem_nil
  | q :: l, s, hs, small, h => by
    have canon := State.canon_of_keeps (.shutRegion (r := q) (.refl s)) hs
    refine State.shut_foldl (l := l) canon (fun p hp => small p (List.mem_cons_of_mem _ hp)) ?_
    by_cases later : r ∈ l
    · exact .inl later
    · refine .inr (State.shut_shutRegion hs (small q List.mem_cons_self) (h.imp_left fun m => ?_))
      exact (List.mem_cons.mp m).resolve_right later

theorem Only.afterFence {l : List Piece} {s t : State} (h : Only l s t) (alone : t.pair.shadow = false)
    (sub : within [.free, .bufs, .log, .sess, .mbx, .tick, .loads, .pair, .out] l = true) : Only l s t.afterFence := by
  refine h.then (k := [.free, .bufs, .log, .sess, .mbx, .tick, .loads, .pair, .out]) ?_ sub
  unfold State.afterFence
  rw [State.compareTick_of_alone (State.shadow_maybeClose alone)]
  exact .tellDone (.maybeClose (.refl t) rfl) rfl

/-- The tick that a fence may close leaves a shut region so (R370). -/
theorem State.Shut.afterFence {r : Nat} {s : State} (h : s.Shut r) (alone : s.pair.shadow = false) : s.afterFence.Shut r := by
  have same : Only [.free, .bufs, .log, .sess, .mbx, .tick, .loads, .pair, .out] s s.afterFence :=
    .afterFence (.refl s) alone rfl
  refine h.of_parts (same.frame .clk rfl) ?_ (same.frame .fab rfl) (same.frame .eng rfl) (same.frame .tiles rfl)
  unfold State.afterFence
  rw [State.compareTick_of_alone (State.shadow_maybeClose alone), State.tick_tellDone, State.tick_maybeClose]
  split <;> rfl

/-! A tile that fails. -/

theorem mem_posWhere_lt {α : Type} {p : α → Bool} {l : List α} {i k : Nat} (h : k ∈ posWhere p i l) : k < i + l.length := by
  induction l generalizing i with
  | nil => exact absurd h List.not_mem_nil
  | cons a l ih =>
    unfold posWhere at h
    rw [List.length_cons]
    split at h
    · obtain rfl | h := List.mem_cons.mp h
      · omega
      · have := ih h
        omega
    · have := ih h
      omega

theorem getD_setAt_self {α : Type} {l : List α} {k : Nat} (h : k < l.length) (f : α → α) (d : α) :
    (setAt l k f).getD k d = f (l.getD k d) := by
  induction l generalizing k with
  | nil => exact absurd h (Nat.not_lt_zero k)
  | cons a l ih =>
    cases k with
    | zero => rfl
    | succ k => exact ih (Nat.lt_of_succ_lt_succ h)

/-- The identity that a slot hosts is of the slot's own cluster. -/
theorem Units.tileOf_bounds {u : Units} {i lt : Nat} (h : u.tileOf i = some lt) (eight : (u.places (i / 9)).length = 8) :
    lt / 8 = i / 9 ∧ lt % 8 < (u.places (i / 9)).length := by
  unfold Units.tileOf at h
  split at h
  · rename_i k first
    split at h
    · cases h
    · have small := mem_posWhere_lt (List.mem_of_head? first)
      obtain rfl := Option.some.inj h
      omega
  · cases h

/-- An identity that moves to the free mule of its cluster (R58). -/
theorem State.moveIdentity_spec {s : State} {i lt m : Nat} (hosted : s.units.tileOf i = some lt)
    (free : s.units.mule (i / 9) = some m) (copy : Bool) : ∃ t, s.moveIdentity i copy = some t ∧ Only [.units, .tiles] s t ∧
      t.units = { s.units with
        place := put (List.range 8) s.units.place (i / 9) (setAt (s.units.places (i / 9)) (lt % 8) (fun _ => m))
        retiredSlots := s.units.retiredSlots ++ [i] } := by
  unfold State.moveIdentity
  dsimp only
  rw [hosted, free]
  exact ⟨_, rfl, .putTile (.putTile (.withUnits (.refl s) rfl) rfl) rfl, rfl⟩

theorem State.moveIdentity_none {s : State} {i lt : Nat} (hosted : s.units.tileOf i = some lt)
    (none_ : s.units.mule (i / 9) = none) (copy : Bool) : s.moveIdentity i copy = none := by
  unfold State.moveIdentity
  dsimp only
  rw [hosted, none_]

theorem State.userOf_congr {s t : State} (h : t.sess = s.sess) (c : Nat) : t.userOf c = s.userOf c := by
  unfold State.userOf State.runs
  rw [h]

theorem State.cdig_armRings (s : State) (x : Sess) (run : Run) (hosted : Nat → Bool) :
    (s.armRings x run hosted).tick.cdig = s.tick.cdig := by
  unfold State.armRings
  refine inv_foldl (inv := fun t : State => t.tick.cdig = s.tick.cdig) (fun t k h => ?_) _ rfl
  dsimp only
  split
  · split
    · rename_i n _
      generalize hu : ({ t with tick := _ } : State) = u
      refine (congrArg Tick.cdig ((Only.arm (l := [.eng, .sess, .flagCnt]) (.refl u) rfl).frame .tick rfl)).trans ?_
      rw [← hu]
      exact h
    · exact h
  · exact h

/-- A cluster that runs its tick again begins its digest anew (R58). -/
theorem State.cdig_rerunCluster {s : State} (hs : s.canon) (c : Nat) (x : Sess) (run : Run) :
    look 0 (s.rerunCluster c x run).tick.cdig c = 0 := by
  unfold State.rerunCluster
  dsimp only
  rw [State.cdig_armRings]
  generalize hu : List.foldl (fun s n => _) (List.foldl (fun s p => State.putTile s _ _) s _) (List.range 32) = u
  have same : Only [.tiles, .eng] s u := by
    rw [← hu]
    refine .foldl (.foldl (.refl s) fun _ _ h => h.putTile rfl) fun _ _ h => ?_
    split
    · exact .ite (.setStream (.restartStream h rfl) rfl) h
    · exact h
  have wf : tabWf 0 u.tick.cdig = true := by
    rw [same.frame .tick rfl]
    exact (s.canon_iff.mp hs).cdig
  generalize hv : ({ u with tick := { u.tick with
    cdig := put 0 u.tick.cdig c 0, done := withBit u.tick.done (c / 4) false } } : State) = v
  have placed : Only [.tiles] v (((run.clustersIn (x.imageOf run).clusters).filter (fun k => (run.bindOf k).1 == c)).flatMap
      (fun k => (List.range 8).map (fun t => 8 * k + t)) |>.foldl (fun s t => s.placeTile x run t) v) :=
    .foldl (.refl v) fun _ _ h => h.placeTile rfl
  rw [placed.frame .tick rfl, ← hv]
  exact look_put_self 0 _ _ _ wf

/-- What follows the move of an identity: the step's rerun of the cluster's tick, or its end (R58). -/
def State.rehosted (v : State) (c : Nat) : State :=
  match v.userOf c with
  | none => v
  | some (x, run) =>
    if (x.imageOf run).carry then (v.abandon c).stopStep x.id 0xF
    else if (v.writePrograms (x.imageOf run) [c]).tick.active then
      (v.writePrograms (x.imageOf run) [c]).rerunCluster c x run
    else v.writePrograms (x.imageOf run) [c]

/-- What follows where no tile is free: the cluster retires at the next boundary, and its step stops (R58, R59). -/
def State.unhosted (u : State) (c : Nat) : State :=
  match u.userOf c with
  | none => u
  | some (x, _) => (if u.tick.active then u.abandon c else u).stopStep x.id 0xF

/-- The state of a part whose failed tile has its arrays discarded. -/
def State.struck (s : State) (i : Nat) : State :=
  ({ s with tick := { s.tick with trouble := true } } : State).discardArrays (i / 9)

section TileFails
variable {s : State} {i : Nat} (kept : s.units.retiredSlots.contains i = false)
  (serves : s.units.retiredClusters.contains (i / 9) = false) (open_ : s.units.fenced (i / 9 / 4) = false)
include kept serves open_

theorem State.tileFails_spare (spare : s.units.tileOf i = none) :
    s.tileFails i = ({ s with
      tick := { s.tick with trouble := true }
      units := { s.units with retiredSlots := s.units.retiredSlots ++ [i] } } : State).note .unit i 0 [] := by
  unfold State.tileFails
  extract_lets c _ u un v _ w
  refine (if_neg (by rw [kept, serves, open_]; decide)).trans ?_
  have found : u.units.tileOf i = none := spare
  clear_value v w
  rw [found]

theorem State.tileFails_hosted {lt : Nat} (hosted : s.units.tileOf i = some lt) :
    (∀ v, (s.struck i).moveIdentity i false = some v → s.tileFails i = (v.note .unit i 0 []).rehosted (i / 9)) ∧
      ((s.struck i).moveIdentity i false = none → s.tileFails i = ((s.struck i).addChange (.cluster (i / 9))).unhosted (i / 9)) := by
  unfold State.tileFails
  extract_lets c _ u un v _ w
  rw [if_neg (by rw [kept, serves, open_]; decide)]
  have found : u.units.tileOf i = some lt := hosted
  have same : s.struck i = v := rfl
  rw [same]
  have pending : w = v.addChange (.cluster (i / 9)) := rfl
  clear_value v w
  rw [found]
  refine ⟨fun m moved => ?_, fun stays => ?_⟩
  · rw [moved]
    dsimp only
    generalize m.note .unit i 0 [] = m
    unfold State.rehosted
    change _ = match m.userOf c with | none => m | some (x, run) => _
    cases m.userOf c <;> rfl
  · rw [stays]
    dsimp only
    rw [← pending]
    unfold State.unhosted
    change _ = match w.userOf c with | none => w | some (x, _) => _
    cases w.userOf c <;> rfl

end TileFails

theorem State.only_struck (s : State) (i : Nat) : Only [.tick, .flagCnt, .tiles, .free, .bufs] s (s.struck i) :=
  .discardArrays (.withTick (.refl s) rfl) rfl

theorem State.keeps_struck (s : State) (i : Nat) : Keeps s (s.struck i) := .discardArrays ((Keeps.refl s).congr rfl)

theorem State.active_struck (s : State) (i : Nat) : (s.struck i).tick.active = s.tick.active := by
  unfold State.struck State.discardArrays
  dsimp only
  refine (congrArg Tick.active ((Only.foldl (l := [.tiles, .flagCnt, .free, .bufs]) (.refl _)
    fun _ _ h => h.haltSlot rfl).frame .tick rfl)).trans ?_
  rw [(State.done_markEmerg _ _).2]

theorem State.only_rehosted (v : State) (c : Nat) : Only [.tick, .flagCnt, .tiles, .eng, .sess] v (v.rehosted c) := by
  unfold State.rehosted
  split
  · exact .refl v
  · exact .ite (.stopStep (.abandon (.refl v) rfl) rfl)
      (.ite (.rerunCluster (.writePrograms (.refl v) rfl) rfl) (.writePrograms (.refl v) rfl))

/-- A tile whose identity moves to the free mule of its cluster (R58). -/
theorem State.tileFails_moved {s : State} (hs : s.canon) {i lt m : Nat} (kept : s.units.retiredSlots.contains i = false)
    (serves : s.units.retiredClusters.contains (i / 9) = false) (open_ : s.units.fenced (i / 9 / 4) = false)
    (hosted : s.units.tileOf i = some lt) (free : s.units.mule (i / 9) = some m) :
    (s.tileFails i).units = { s.units with
        place := put (List.range 8) s.units.place (i / 9) (setAt (s.units.places (i / 9)) (lt % 8) (fun _ => m))
        retiredSlots := s.units.retiredSlots ++ [i] } ∧ (s.tileFails i).mem = s.mem ∧
      ∀ x run, s.userOf (i / 9) = some (x, run) → (x.imageOf run).carry = false → s.tick.active = true →
        look 0 (s.tileFails i).tick.cdig (i / 9) = 0 := by
  have struck := s.only_struck i
  have same : (s.struck i).units = s.units := struck.frame .units rfl
  obtain ⟨v, moved, part, units⟩ := State.moveIdentity_spec (s := s.struck i) (lt := lt) (m := m) (by rw [same, hosted])
    (by rw [same, free]) false
  rw [(State.tileFails_hosted kept serves open_ hosted).1 v moved]
  obtain ⟨w, hw⟩ : ∃ w, w = v.note .unit i 0 [] := ⟨_, rfl⟩
  have noted : Only [.log, .units, .tiles] (s.struck i) w := hw ▸ .note (Only.then (.refl _) part rfl) rfl
  rw [← hw]
  have rest := w.only_rehosted (i / 9)
  refine ⟨?_, ?_, fun x run user fresh active => ?_⟩
  · rw [rest.frame .units rfl, hw, ← same]
    exact units
  · exact (rest.frame .mem rfl).trans ((noted.frame .mem rfl).trans (struck.frame .mem rfl))
  · have user : w.userOf (i / 9) = some (x, run) :=
      (State.userOf_congr ((noted.frame .sess rfl).trans (struck.frame .sess rfl)) _).trans user
    have programs : Only [.tiles] w (w.writePrograms (x.imageOf run) [i / 9]) := .writePrograms (.refl w) rfl
    have runs : (w.writePrograms (x.imageOf run) [i / 9]).tick.active = true := by
      rw [programs.frame .tick rfl, noted.frame .tick rfl, State.active_struck, active]
    unfold State.rehosted
    rw [user]
    dsimp only
    rw [if_neg (by simp [fresh]), if_pos runs]
    refine State.cdig_rerunCluster (State.canon_of_keeps (.writePrograms (.refl w)) ?_) _ _ _
    rw [hw]
    exact State.canon_of_keeps (.note ((s.keeps_struck i).moveIdentity moved)) hs

/-- A tile that nothing can stand in for (R59). -/
theorem State.tileFails_left {s : State} {i lt : Nat} (kept : s.units.retiredSlots.contains i = false)
    (serves : s.units.retiredClusters.contains (i / 9) = false) (open_ : s.units.fenced (i / 9 / 4) = false)
    (hosted : s.units.tileOf i = some lt) (none_ : s.units.mule (i / 9) = none) :
    (s.tileFails i).units = { s.units with pend := s.units.pend ++ [.cluster (i / 9)] } ∧ (s.tileFails i).mem = s.mem ∧
      ∀ x run, s.userOf (i / 9) = some (x, run) → (s.tileFails i).sess = (s.stopStep x.id 0xF).sess := by
  have struck := s.only_struck i
  have same : (s.struck i).units = s.units := struck.frame .units rfl
  rw [(State.tileFails_hosted kept serves open_ hosted).2
    (State.moveIdentity_none (lt := lt) (by rw [same, hosted]) (by rw [same, none_]) false)]
  obtain ⟨w, hw⟩ : ∃ w, w = s.struck i := ⟨_, rfl⟩
  rw [← hw] at struck same ⊢
  unfold State.unhosted
  dsimp only
  generalize hu : w.addChange (.cluster (i / 9)) = u
  have part : Only [.units] w u := hu ▸ .withUnits (.refl w) rfl
  have units : u.units = { s.units with pend := s.units.pend ++ [.cluster (i / 9)] } := by
    rw [← hu, ← same]
    rfl
  have sess : u.sess = s.sess := (part.frame .sess rfl).trans (struck.frame .sess rfl)
  have mem : u.mem = s.mem := (part.frame .mem rfl).trans (struck.frame .mem rfl)
  rw [State.userOf_congr sess]
  cases user : s.userOf (i / 9) with
  | none => exact ⟨units, mem, fun _ _ no => nomatch no⟩
  | some found =>
    have left : Only [.tick, .flagCnt, .tiles, .eng] u (if u.tick.active then u.abandon (i / 9) else u) :=
      .ite (.abandon (.refl u) rfl) (.refl u)
    generalize hv : (if u.tick.active then u.abandon (i / 9) else u) = v at left
    have stop : Only [.sess] v (v.stopStep found.1.id 0xF) := .stopStep (.refl v) rfl
    refine ⟨?_, ?_, fun x run is => ?_⟩
    · exact (stop.frame .units rfl).trans ((left.frame .units rfl).trans units)
    · exact (stop.frame .mem rfl).trans ((left.frame .mem rfl).trans mem)
    · obtain rfl := Option.some.inj is
      unfold State.stopStep State.setSess
      rw [left.frame .sess rfl, sess]

theorem State.running_of_userOf {s : State} {c : Nat} {x : Sess} {run : Run} (h : s.userOf c = some (x, run)) :
    x.running = some run := by
  obtain ⟨y, -, made⟩ := List.mem_filterMap.mp (List.mem_of_find?_eq_some h)
  split at made
  · rename_i ran running
    split at made
    · cases made
      exact running
    · cases made
  · cases made

/-- A running step that is stopped (R369). -/
theorem State.session_of_stopStep {s t : State} {x : Sess} {run : Run} {code : Nat}
    (h : t.sess = (s.stopStep x.id code).sess) (listed : s.session x.id = some x) (running : x.running = some run)
    (on : run.stop = none) :
    ∃ y, t.session x.id = some y ∧ y.running = some { run with stop := some code } := by
  have found : t.session x.id = (s.stopStep x.id code).session x.id := by
    unfold State.session
    rw [h]
  unfold State.stopStep at found
  rw [State.session_setSess_self s x.id (by
    intro y
    split
    · rfl
    · split <;> rfl), listed, Option.map_some, running] at found
  refine ⟨_, found, ?_⟩
  simp [on]

/-- Settles O51: each fault by the fence or the move it makes. -/
theorem unitFaults : Obligations.UnitFaults := by
  unfold Obligations.UnitFaults
  refine ⟨fun s core on small => ?core, fun s isle on small => ?mesh, fun s on => ?source,
    fun s d hs on small sound alone => ?die, fun s r hs on small sound alone => ?region,
    fun s slot hs meets kept serves open_ => ⟨fun spare => ?spare, fun lt m hosted free eight => ?moved,
      fun lt hosted none_ => ?left⟩⟩
  case core =>
    obtain ⟨units, formed, alone⟩ := State.leavePair_spec
      { s with units := { s.units with coreFail := s.units.coreFail ||| BitVec.ofNat 8 (2 ^ core) } }
    refine ⟨_, if_pos (by simp [on, small]), ?_, formed, fun none_ => ?_⟩
    · rw [units]
      exact getLsbD_or_ofNat small _
    · rw [alone none_]
      exact ⟨rfl, rfl⟩
  case mesh =>
    obtain ⟨units, formed, alone⟩ := State.leavePair_spec { s with units := { s.units with meshFault := true } }
    refine ⟨_, if_pos (by simp [on, small]), ?_, formed, fun none_ => ?_⟩
    · rw [units]
    · rw [alone none_]
      exact ⟨rfl, rfl⟩
  case source =>
    obtain ⟨units, formed, alone⟩ := State.leavePair_spec { s with units := { s.units with tickFault := true } }
    refine ⟨_, if_pos on, ?_, formed, fun none_ => ?_⟩
    · rw [units]
    · rw [alone none_]
      exact ⟨rfl, rfl⟩
  case die =>
    have answer : exec (.dieLinkFailure d) s = .next (s.fenceDie d).afterFence := if_pos (by rw [on, sound, decide_eq_true small]; rfl)
    have made : s.fenceDie d = ([2 * d, 2 * d + 1].filter (fun r => !s.units.fenced r)).foldl State.shutRegion
        { s with units := { s.units with dieFenced := s.units.dieFenced ||| bitW d true } } := if_neg (by rw [sound]; decide)
    obtain ⟨u, hu⟩ : ∃ u, u = { s with units := { s.units with dieFenced := s.units.dieFenced ||| bitW d true } } := ⟨_, rfl⟩
    rw [← hu] at made
    have canon : u.canon := hu ▸ State.canon_of_keeps ((Keeps.refl s).congr rfl) hs
    have shut : Only [.clk, .sess, .tick, .flagCnt, .tiles, .eng, .fab, .ftx, .loads, .mbx, .fcfg, .log, .out] u (s.fenceDie d) :=
      made ▸ .foldl (.refl u) fun _ _ h => h.shutRegion rfl
    have pair : (s.fenceDie d).pair.shadow = false := by
      rw [shut.frame .pair rfl, hu]
      exact alone
    have last : Only [.free, .bufs, .log, .sess, .mbx, .tick, .loads, .pair, .out] (s.fenceDie d) (s.fenceDie d).afterFence :=
      .afterFence (.refl _) pair rfl
    refine ⟨_, answer, ?_, ?_, fun r half before => ?_⟩
    · rw [last.frame .units rfl, shut.frame .units rfl, hu]
      change (s.units.dieFenced ||| bitW d true).getLsbD d = true
      rw [BitVec.getLsbD_or, getLsbD_bitW _ _ small]
      simp
    · rw [last.frame .mem rfl, shut.frame .mem rfl, hu]
    · refine State.Shut.afterFence ?_ pair
      rw [made]
      refine State.shut_foldl canon (fun q mem => ?_) (.inl ?_)
      · have := (List.mem_filter.mp mem).1
        simp only [List.mem_cons, List.not_mem_nil, or_false] at this
        omega
      · refine List.mem_filter.mpr ⟨?_, by simp [before]⟩
        simp only [List.mem_cons, List.not_mem_nil, or_false]
        omega
  case region =>
    obtain ⟨v, hv⟩ : ∃ v, v = { s with units := { s.units with fencedRegions := withBit s.units.fencedRegions r true } } :=
      ⟨_, rfl⟩
    obtain ⟨u, hu⟩ : ∃ u, u = if v.units.fencedRegions.getLsbD (r ^^^ 1) then
        { v with units := { v.units with dieFenced := v.units.dieFenced ||| bitW (r / 2) true } } else v := ⟨_, rfl⟩
    have made : s.fenceRegion r = u.shutRegion r := by
      rw [hu, hv]
      exact if_neg (by simp [sound])
    have answer : exec (.regionUnitFailure r) s = .next (u.shutRegion r).afterFence := by
      rw [← made]
      exact if_pos (by simp [on, small, sound])
    have part : Only [.units] s u := hu ▸ hv ▸ .when (.withUnits (.refl s) rfl) fun h => h.withUnits rfl
    have canon : u.canon := hu ▸ hv ▸ State.canon_of_keeps (.when ((Keeps.refl s).congr rfl) fun h => h.congr rfl) hs
    have shut : Only [.clk, .sess, .tick, .flagCnt, .tiles, .eng, .fab, .ftx, .loads, .mbx, .fcfg, .log, .out] u
        (u.shutRegion r) := .shutRegion (.refl u) rfl
    have pair : (u.shutRegion r).pair.shadow = false := by
      rw [shut.frame .pair rfl, part.frame .pair rfl]
      exact alone
    have last : Only [.free, .bufs, .log, .sess, .mbx, .tick, .loads, .pair, .out] (u.shutRegion r)
        (u.shutRegion r).afterFence := .afterFence (.refl _) pair rfl
    have units := (last.frame .units rfl).trans (shut.frame .units rfl)
    obtain ⟨gate, done, cells, rings, jobs⟩ := (State.shut_shutRegion canon small (.inl rfl)).afterFence pair
    refine ⟨_, answer, ?_, gate, done, ?_, fun both => ?_, cells, rings, jobs⟩
    · rw [units, hu, hv]
      have set : (withBit s.units.fencedRegions r true).getLsbD r = true := getLsbD_withBit_self _ _ small
      split <;> exact set
    · rw [last.frame .mem rfl, shut.frame .mem rfl, part.frame .mem rfl]
    · rw [units, hu, if_pos (hv ▸ getLsbD_withBit_true _ _ _ both)]
      change (v.units.dieFenced ||| bitW (r / 2) true).getLsbD (r / 2) = true
      rw [BitVec.getLsbD_or, getLsbD_bitW _ _ (by omega)]
      simp
  case spare =>
    exact ⟨_, if_pos meets, by rw [State.tileFails_spare kept serves open_ spare]; exact ⟨rfl, rfl, rfl⟩⟩
  case moved =>
    obtain ⟨units, mem, digest⟩ := State.tileFails_moved hs kept serves open_ hosted free
    obtain ⟨own, inside⟩ := Units.tileOf_bounds hosted eight
    refine ⟨_, if_pos meets, ?_, ?_, ?_, mem, digest⟩
    · have placed : look (List.range 8) (s.tileFails slot).units.place (slot / 9) =
          setAt (s.units.places (slot / 9)) (lt % 8) (fun _ => m) := by
        rw [units]
        exact look_put_self _ _ _ _ (s.canon_iff.mp hs).place
      unfold Units.slotOf Units.places
      rw [own, placed, getD_setAt_self inside]
      omega
    · rw [units]
    · rw [units]
  case left =>
    obtain ⟨units, mem, stops⟩ := State.tileFails_left kept serves open_ hosted none_
    refine ⟨_, if_pos meets, ?_, ?_, mem, fun x run user listed running => ?_⟩
    · rw [units]
    · rw [units]
    · exact State.session_of_stopStep (stops x run user) listed (State.running_of_userOf user) running

end Sys2Proof.Machine
end

section
/-! PROOFS. Stage 1 with data in the ingress buffer (O59). -/

namespace Sys2Proof.Machine

/-- A part before stage 1 whose ingress buffer is past its mark, with four pseudo-channels retired. -/
def bootState : State :=
  { dev := { pwrGood := true, phase := .stage1 }, mpk := { panic := true, ingress := [(0, [1])], retired := 4 } }

/-- A fifth pseudo-channel fails its test: its stack freezes, and the ingress buffer is drained for it (R194, R195). -/
def bootEnv : Stage1Env := { pcFail := [(0, 0, 0)] }

theorem canon_bootState : bootState.canon := by
  obtain ⟨canon, -⟩ := resetIsCanonical
  exact (State.canon_iff _).mpr ((State.canon_iff State.reset).mp canon)

/-- The data of the ingress buffer goes to memory that stage 1 has already zeroed. -/
theorem startUp_bootState : rdByte (bootState.startUp bootEnv).mem 0 = 1 := by decide +kernel

/-- Refutes O59: a stack that freezes in stage 1 lets the ingress buffer's data into memory after HBM3E was zeroed, so
byte 0 then reads 1. -/
theorem not_powerAndBoot : ¬ Obligations.PowerAndBoot := by
  intro h
  obtain ⟨-, -, -, -, stage1, -⟩ := h
  obtain ⟨t, ran, -, -, -, -, -, -, zero, -⟩ := stage1 bootState bootEnv canon_bootState rfl rfl rfl
  have made : t = bootState.startUp bootEnv := by
    have answer : execStage1 bootEnv bootState = .next (bootState.startUp bootEnv) := by
      unfold execStage1
      exact if_pos (by decide)
    exact Host.Outcome.next.inj (ran.symm.trans answer)
  have reads := zero 0 (by decide)
  rw [made, startUp_bootState] at reads
  exact absurd reads (by decide)

end Sys2Proof.Machine
end

section
/-! PROOFS. Loading the fabric (O53). -/

namespace Sys2Proof.Machine

/-! Loads. -/

theorem foldl_reaches {S : Type} {step : S → Nat → S} {inv : S → Prop} {P : Nat → S → Prop}
    (keep : ∀ s i, inv s → inv (step s i)) (here : ∀ s i, inv s → P i (step s i))
    (stays : ∀ s i j, inv s → j ≠ i → P j s → P j (step s i)) {j : Nat} {l : List Nat} {s : S} (hs : inv s)
    (h : j ∈ l ∨ P j s) : P j (l.foldl step s) := by
  induction l generalizing s with
  | nil => exact h.resolve_left List.not_mem_nil
  | cons i l ih =>
    refine ih (keep s i hs) ?_
    by_cases own : j = i
    · exact .inr (own ▸ here s i hs)
    · exact h.imp (fun m => (List.mem_cons.mp m).resolve_left own) (stays s i j hs own)

theorem State.slot_of_load {s : State} {slot : Nat} {l : Load} (h : s.load slot = some l) : l.slot = slot :=
  beq_iff_eq.mp (List.find?_some (p := fun l : Load => l.slot == slot) h)

theorem find?_map_slot {p : Load → Bool} {slot : Nat} (hp : ∀ m, p m = (m.slot == slot)) {l : Load} {f : Load → Load}
    (keeps : ∀ m, (f m).slot = m.slot) : ∀ {ls : List Load}, ls.find? p = some l →
      (ls.map (fun l => if l.slot = slot then f l else l)).find? p = some (f l)
  | [], h => nomatch h
  | m :: ms, h => by
    by_cases own : m.slot = slot
    · rw [List.find?_cons_of_pos ((hp m).trans (beq_iff_eq.mpr own))] at h
      obtain rfl := Option.some.inj h
      rw [List.map_cons, if_pos own,
        List.find?_cons_of_pos ((hp _).trans (beq_iff_eq.mpr ((keeps m).trans own)))]
    · have skip : ¬ p m = true := fun e => own (beq_iff_eq.mp ((hp m).symm.trans e))
      rw [List.find?_cons_of_neg skip] at h
      rw [List.map_cons, if_neg own, List.find?_cons_of_neg skip, find?_map_slot hp keeps h]

theorem State.load_setLoad {s : State} {slot : Nat} {l : Load} (h : s.load slot = some l) {f : Load → Load}
    (keeps : ∀ m, (f m).slot = m.slot) : (s.setLoad slot f).load slot = some (f l) :=
  find?_map_slot (fun _ => rfl) keeps h

theorem find?_filter_of_pos {α : Type} {p q : α → Bool} {a : α} : ∀ {l : List α}, l.find? p = some a → q a = true →
    (l.filter q).find? p = some a
  | [], h, _ => nomatch h
  | b :: l, h, ha => by
    by_cases own : p b = true
    · rw [List.find?_cons_of_pos own] at h
      obtain rfl := Option.some.inj h
      rw [List.filter_cons_of_pos ha, List.find?_cons_of_pos own]
    · rw [List.find?_cons_of_neg own] at h
      have rest := find?_filter_of_pos h ha
      by_cases kept : q b = true
      · rw [List.filter_cons_of_pos kept, List.find?_cons_of_neg own, rest]
      · rw [List.filter_cons_of_neg kept, rest]

/-- The end of the loads that are through touches no other. -/
theorem State.endLoads_eq (s : State) : s.endLoads.loads = s.loads.filter (fun l => !s.loadThrough l) ∧
    s.endLoads.fab = s.fab ∧ s.endLoads.flags .cfg = s.flags .cfg := by
  unfold State.endLoads
  rw [List.partition_eq_filter_filter]
  dsimp only
  generalize s.loads.filter (fun l => s.loadThrough l) = through
  have on : (s.loads.filter (not ∘ s.loadThrough)) = s.loads.filter (fun l => !s.loadThrough l) := rfl
  rw [on]
  generalize s.loads.filter (fun l => !s.loadThrough l) = rest
  obtain ⟨u, hu⟩ : ∃ u : State, u = { s with loads := rest } := ⟨_, rfl⟩
  rw [← hu]
  have start : u.loads = rest ∧ u.fab = s.fab ∧ u.flags .cfg = s.flags .cfg := by
    rw [hu]
    exact ⟨rfl, rfl, rfl⟩
  clear hu
  induction through generalizing u with
  | nil => exact start
  | cons l ls ih =>
    refine ih _ ?_
    obtain ⟨loads, fab, flags⟩ := start
    dsimp only
    cases l.mb with
    | none => exact ⟨loads, fab, flags⟩
    | some n => exact ⟨loads, fab, flags⟩

theorem State.load_endLoads {s : State} {slot : Nat} {l : Load} (h : s.load slot = some l) (on : l.ended = false) :
    s.endLoads.load slot = some l := by
  unfold State.load at h ⊢
  rw [s.endLoads_eq.1]
  exact find?_filter_of_pos h (by rw [State.loadThrough, on]; rfl)

/-! Clearing. -/

theorem State.canon_beginClear {s : State} (hs : s.canon) (r : Nat) : (s.beginClear r).canon :=
  State.canon_of_keeps (.beginClear (.refl s)) hs

theorem State.fabric_beginClear {s : State} (hs : s.canon) (r q : Nat) :
    ((s.beginClear r).fabric q).clearing = (decide (q = r) || (s.fabric q).clearing) ∧
      (q ≠ r → ((s.beginClear r).fabric q).core = (s.fabric q).core) := by
  have canon := State.canon_of_keeps (.isolate (r := r) (.refl s)) hs
  obtain ⟨core, -⟩ := State.fabric_isolate hs r q
  unfold State.beginClear
  by_cases own : q = r
  · subst own
    rw [State.setFab_fabric_self canon, decide_eq_true rfl, Bool.true_or]
    exact ⟨rfl, fun no => absurd rfl no⟩
  · rw [State.fabric_setFab_ne _ own, decide_eq_false own, Bool.false_or]
    exact ⟨FabRegion.of_core FabRegion.clearing (fun _ => rfl) core, fun _ => core⟩

theorem State.fabGone_congr {s t : State} (h : t.units = s.units) (r : Nat) : t.fabGone r = s.fabGone r := by
  unfold State.fabGone
  rw [h]

theorem mem_members {m : DWord} {r : Nat} (h : m.getLsbD r = true) : r ∈ members m :=
  List.mem_filter.mpr ⟨List.mem_range.mpr (BitVec.lt_of_getLsbD h), h⟩

theorem State.cfgFlags_of_fcfg {s t : State} (h : t.fcfg = s.fcfg) : t.flags .cfg = s.flags .cfg := by
  unfold State.flags
  rw [h]

theorem State.cfgFlags_recordFail (s : State) (cause region seg : Nat) :
    (s.recordFail cause region seg).flags .cfg = s.flags .cfg ∧ (s.recordFail cause region seg).loads = s.loads := by
  unfold State.recordFail
  split <;> exact ⟨rfl, rfl⟩

/-- A load that fails (R266): its flag, and the clearing of the regions it covers. -/
theorem State.failLoad_spec {s : State} (hs : s.canon) {slot : Nat} {l : Load} (h : s.load slot = some l) {bit : Nat}
    (ofCfg : (bitW bit true &&& Reg.cfg.flagMask).getLsbD bit = true) (cause region seg code : Nat) :
    ((s.failLoad slot bit cause region seg code).endLoads.flags .cfg).getLsbD bit = true ∧
      ∀ r, l.covered.getLsbD r = true → s.fabGone r = false →
        ((s.failLoad slot bit cause region seg code).endLoads.fabric r).clearing = true := by
  obtain ⟨-, fab, flags⟩ := (s.failLoad slot bit cause region seg code).endLoads_eq
  rw [flags]
  obtain ⟨u, hu⟩ : ∃ u, u = ((s.raise .cfg (bitW bit true)).recordFail cause region (Nat.min seg 1023)).setLoad slot
      (fun l => { l with fail := some code, ended := true }) := ⟨_, rfl⟩
  have made : s.failLoad slot bit cause region seg code =
      (members l.covered).foldl (fun s r => if s.fabGone r then s else s.beginClear r) u := by
    unfold State.failLoad
    rw [h, hu]
  have canon : u.canon := hu ▸ State.canon_of_keeps (.setLoad (.recordFail (.raise (.refl s)))) hs
  have part : Only [.fcfg, .flagCnt, .loads] s u := hu ▸ .setLoad (.recordFail (.raise (.refl s) rfl) rfl) rfl
  refine ⟨?_, fun r covered open_ => ?_⟩
  · have set : (u.flags .cfg).getLsbD bit = true := by
      rw [hu]
      change (((s.raise .cfg (bitW bit true)).recordFail cause region (Nat.min seg 1023)).flags .cfg).getLsbD bit = true
      rw [(State.cfgFlags_recordFail _ _ _ _).1]
      exact State.flag_raised hs .cfg ofCfg
    rw [made]
    refine inv_foldl (inv := fun t : State => (t.flags .cfg).getLsbD bit = true) (fun t r h => ?_) _ set
    split
    · exact h
    · rw [State.cfgFlags_of_fcfg ((Only.beginClear (l := [.fab, .flagCnt, .ftx]) (.refl t) rfl).frame .fcfg rfl), h]
  · rw [State.fabric_of_fab fab, made]
    have units : u.units = s.units := part.frame .units rfl
    refine foldl_reaches (inv := fun t : State => t.canon ∧ t.units = s.units)
      (P := fun r (t : State) => s.fabGone r = false → (t.fabric r).clearing = true) (fun t i ⟨canon, units⟩ => ?_)
      (fun t i ⟨canon, units⟩ open_ => ?_) (fun t i j ⟨canon, units⟩ other was open_ => ?_)
      ⟨canon, units⟩ (.inl (mem_members covered)) open_
    · split
      · exact ⟨canon, units⟩
      · exact ⟨State.canon_beginClear canon i,
          ((Only.beginClear (l := [.fab, .flagCnt, .ftx]) (.refl t) rfl).frame .units rfl).trans units⟩
    · rw [if_neg (by rw [State.fabGone_congr units, open_]; decide), (State.fabric_beginClear canon i i).1]
      simp
    · split
      · exact was open_
      · rw [(State.fabric_beginClear canon i j).1, was open_, Bool.or_true]

section Segments
variable {s : State} {l : Load}

/-- The stream ends before the next segment does (R266). -/
def Load.cut (l : Load) : Prop :=
  l.stream.length < (l.segPlace l.seg).1 + (l.segPlace l.seg).2 + 16 ∨ (l.short = true ∧ l.seg + 1 = l.segments)

/-- The text of the next segment (R258). -/
def Load.text (l : Load) : Option (List Byte) :=
  gcmOpen l.key (leBytes 4 l.seg ++ zeroBytes 8) (l.aad l.seg) (slice l.stream (l.segPlace l.seg).1 (l.segPlace l.seg).2)
    (slice l.stream ((l.segPlace l.seg).1 + (l.segPlace l.seg).2) 16)

theorem Load.cut_iff (l : Load) : (decide (l.stream.length < (l.segPlace l.seg).1 + (l.segPlace l.seg).2 + 16) ||
    (l.short && l.seg + 1 == l.segments)) = true ↔ l.cut := by
  simp [Load.cut]

theorem State.verifySegment_cut (h : l.cut) : s.verifySegment l = s.failLoad l.slot 31 1 0 l.seg 0xB :=
  if_pos (l.cut_iff.mpr h)

theorem State.verifySegment_bad (whole : ¬ l.cut) (bad : l.text = none) :
    s.verifySegment l = s.failLoad l.slot 30 2 0 l.seg 9 := by
  unfold State.verifySegment
  dsimp only
  rw [if_neg fun h => whole (l.cut_iff.mp h)]
  unfold Load.text at bad
  rw [bad]

theorem State.verifySegment_good (whole : ¬ l.cut) {b : List Byte} (good : l.text = some b) :
    s.verifySegment l = s.setLoad l.slot (fun l' => { l' with
      seg := l.seg + 1, plain := l'.plain ++ b
      key := hkdf l'.key (slice l'.stream 0x20 32) (ascii "LQFAB-SEG" ++ leBytes 4 (l.seg + 1)) 32 }) := by
  unfold State.verifySegment
  dsimp only
  rw [if_neg fun h => whole (l.cut_iff.mp h)]
  unfold Load.text at good
  rw [good]

end Segments

/-! Records. -/

section Records
variable {s : State} {l : Load} {intact : Bool}

/-- The record at the front of a load reached its region as it was sent (R254). -/
def Load.arrived (l : Load) (intact : Bool) : Bool :=
  decide (fld l.plain (8 + fld l.plain 4 4) 4 = crc32c (l.plain.take (8 + fld l.plain 4 4))) && intact

theorem State.dispatch_bad (bad : l.plain.length < 8 ∨ l.recordOk = false) : s.dispatch l intact =
    s.failLoad l.slot 29 3 (failRegion (fld l.plain 1 1)) (l.used / segSize) 2 :=
  if_pos (by simpa using bad)

theorem State.dispatch_damaged (seen : 8 ≤ l.plain.length) (ok : l.recordOk = true) (whole : l.hasRecord = true)
    (wrong : l.arrived intact = false) : s.dispatch l intact = if l.resent then
      s.failLoad l.slot 28 4 (failRegion (fld l.plain 1 1)) (l.used / segSize) 0xE
    else s.setLoad l.slot (fun l => { l with resent := true }) := by
  unfold Load.arrived at wrong
  unfold State.dispatch
  dsimp only
  rw [if_neg (by simp [ok, seen]), if_neg (by simp [whole]), if_neg (by rw [wrong]; decide)]

theorem State.dispatch_right (seen : 8 ≤ l.plain.length) (ok : l.recordOk = true) (whole : l.hasRecord = true)
    (right : l.arrived intact = true) : s.dispatch l intact = s.acceptRecord l := by
  unfold Load.arrived at right
  unfold State.dispatch
  dsimp only
  rw [if_neg (by simp [ok, seen]), if_neg (by simp [whole]), if_pos right]

/-- A load after a record of `len` bytes at its front (R254, R256). -/
def Load.eat (len : Nat) (m : Load) : Load :=
  { m with plain := m.plain.drop (12 + len), used := m.used + 12 + len, records := m.records + 1, resent := false }

theorem State.acceptRecord_end (last : fld l.plain 0 1 = 0xF) : s.acceptRecord l =
    (members l.covered).foldl (fun s r => s.finishRegion l r)
      (s.setLoad l.slot (fun m => { m.eat (fld l.plain 4 4) with ended := true })) := by
  unfold State.acceptRecord Load.eat
  dsimp only
  rw [if_pos last]

/-- The state that has a record of a region taken, before its frame goes to the region. -/
def State.recordTaken (s : State) (l : Load) : State :=
  let t := s.setLoad l.slot (fun m => Load.eat (fld l.plain 4 4) (m.setPart (fld l.plain 1 1) (fun p =>
    p.take (fld l.plain 0 1) (fld l.plain 2 2) (slice l.plain 8 (fld l.plain 4 4)))))
  { t with fcfg := { t.fcfg with
    chainRegion := put 0 t.fcfg.chainRegion (fld l.plain 1 1 / 16) (fld l.plain 1 1)
    chainSent := modify 0 t.fcfg.chainSent (fld l.plain 1 1 / 16) (· + (12 + fld l.plain 4 4)) } }

theorem State.acceptRecord_frame (more : fld l.plain 0 1 ≠ 0xF) : s.acceptRecord l =
    if s.fabGone (fld l.plain 1 1) || ((l.part (fld l.plain 1 1)).getD { region := fld l.plain 1 1 }).dropped then s.recordTaken l
    else (s.recordTaken l).applyRecord (fld l.plain 1 1) (fld l.plain 0 1) (fld l.plain 2 2)
      (slice l.plain 8 (fld l.plain 4 4)) := by
  unfold State.acceptRecord State.recordTaken Load.eat
  dsimp only
  rw [if_neg more]

theorem State.loads_applyRecord (s : State) (r type idx : Nat) (pay : List Byte) :
    (s.applyRecord r type idx pay).loads = s.loads := by
  have only : Only [.fab, .ftx, .free] s (s.applyRecord r type idx pay) := by
    unfold State.applyRecord State.applyControl
    exact .ite (.when (.foldl (.setFab (.withFree (.refl s) rfl) rfl) fun _ _ h => h.setPort rfl) fun h => h.setLane rfl)
      (.ite (.setFab (.refl s) rfl) (.ite (.setFab (.refl s) rfl) (.refl s)))
  exact only.frame .loads rfl

/-- The load after a record of a region. -/
theorem State.load_acceptRecord {slot : Nat} (h : s.load slot = some l) (more : fld l.plain 0 1 ≠ 0xF) :
    (s.acceptRecord l).load slot = some (Load.eat (fld l.plain 4 4) (l.setPart (fld l.plain 1 1) (fun p =>
      p.take (fld l.plain 0 1) (fld l.plain 2 2) (slice l.plain 8 (fld l.plain 4 4))))) := by
  have taken : (s.recordTaken l).load slot = some (Load.eat (fld l.plain 4 4) (l.setPart (fld l.plain 1 1) (fun p =>
      p.take (fld l.plain 0 1) (fld l.plain 2 2) (slice l.plain 8 (fld l.plain 4 4))))) := by
    have own := State.slot_of_load h
    refine (State.load_setLoad (own ▸ h) (f := fun m => Load.eat (fld l.plain 4 4) (m.setPart (fld l.plain 1 1) (fun p =>
      p.take (fld l.plain 0 1) (fld l.plain 2 2) (slice l.plain 8 (fld l.plain 4 4))))) fun m => rfl) |> fun e => ?_
    rw [← own]
    exact e
  rw [State.acceptRecord_frame more]
  split
  · exact taken
  · unfold State.load
    rw [State.loads_applyRecord]
    exact taken

end Records

/-! The end record. -/

/-- What the accepted end record makes of a covered region that is not fenced (R256, R263). -/
def Load.Finished (l : Load) (q : Nat) (f : FabRegion) : Prop :=
  (l.part q = none → f.clearing = true) ∧ ∀ p, l.part q = some p → p.dropped = false → p.ctl = true →
    f.startup.running = true ∧ f.startup.order = fld p.trailer 0 1 ∧ f.imageId = l.imageId

theorem Load.Finished.of_core {l : Load} {q : Nat} {f g : FabRegion} (h : l.Finished q f) (same : g.core = f.core) :
    l.Finished q g := by
  have clearing : g.clearing = f.clearing := FabRegion.of_core FabRegion.clearing (fun _ => rfl) same
  have startup : g.startup = f.startup := FabRegion.of_core FabRegion.startup (fun _ => rfl) same
  have image : g.imageId = f.imageId := FabRegion.of_core FabRegion.imageId (fun _ => rfl) same
  unfold Load.Finished
  rw [clearing, startup, image]
  exact h

theorem Only.finishRegion {k : List Piece} {s t : State} {l : Load} {r : Nat} (h : Only k s t)
    (sub : within [.fab, .flagCnt, .ftx] k = true) : Only k s (t.finishRegion l r) := by
  refine h.then (k := [.fab, .flagCnt, .ftx]) ?_ sub
  unfold State.finishRegion
  split
  · exact .ite (.refl t) (.beginClear (.refl t) rfl)
  · exact .ite (.refl t) (.ite (.beginClear (.refl t) rfl) (.setFab (.setFab (.refl t) rfl) rfl))

/-- A region with records starts the order of its trailer. -/
theorem State.finishRegion_part {s : State} {l : Load} {r : Nat} {p : RegionLoad} (part : l.part r = some p) :
    s.finishRegion l r = if p.dropped || s.fabGone r then s else if !p.ctl then s.beginClear r
      else (s.setFab r (fun f => { f with
        columns := f.columns.filter (fun c => p.cols.contains c.1), brams := f.brams.filter (fun c => p.rams.contains c.1)
        imageId := l.imageId })).beginStartup r l.slot p.trailer := by
  unfold State.finishRegion
  rw [part]

theorem State.finishRegion_none {s : State} {l : Load} {r : Nat} (none_ : l.part r = none) :
    s.finishRegion l r = if s.fabGone r then s else s.beginClear r := by
  unfold State.finishRegion
  rw [none_]

theorem State.finished_finishRegion {s : State} (hs : s.canon) (l : Load) {r : Nat} (open_ : s.fabGone r = false) :
    l.Finished r ((s.finishRegion l r).fabric r) := by
  refine ⟨fun none_ => ?_, fun p part on ctl => ?_⟩
  · rw [State.finishRegion_none none_, if_neg (by rw [open_]; decide), (State.fabric_beginClear hs r r).1]
    simp
  · have wf := State.canon_of_keeps (t := s.setFab r (fun f => { f with
      columns := f.columns.filter (fun c => p.cols.contains c.1), brams := f.brams.filter (fun c => p.rams.contains c.1)
      imageId := l.imageId })) (.setFab (.refl s) fun _ => id) hs
    rw [State.finishRegion_part part, if_neg (by rw [on, open_]; decide), if_neg (by rw [ctl]; decide), State.beginStartup,
      State.setFab_fabric_self wf, State.setFab_fabric_self hs]
    exact ⟨rfl, rfl, rfl⟩

theorem State.core_finishRegion {s : State} (hs : s.canon) (l : Load) {r q : Nat} (other : q ≠ r) :
    ((s.finishRegion l r).fabric q).core = (s.fabric q).core := by
  cases part : l.part r with
  | none =>
    rw [State.finishRegion_none part]
    split
    · rfl
    · exact (State.fabric_beginClear hs r q).2 other
  | some p =>
    rw [State.finishRegion_part part]
    split
    · rfl
    · split
      · exact (State.fabric_beginClear hs r q).2 other
      · rw [State.beginStartup, State.fabric_setFab_ne _ other, State.fabric_setFab_ne _ other]

/-- Every covered region that is not fenced as the end record leaves it. -/
theorem State.finished_acceptRecord {s : State} (hs : s.canon) {l : Load} (last : fld l.plain 0 1 = 0xF) {q : Nat}
    (covered : l.covered.getLsbD q = true) (open_ : s.fabGone q = false) :
    l.Finished q ((s.acceptRecord l).fabric q) := by
  rw [State.acceptRecord_end last]
  generalize hu : s.setLoad l.slot _ = u
  have canon : u.canon := hu ▸ State.canon_of_keeps (.setLoad (.refl s)) hs
  have units : u.units = s.units := by rw [← hu]; rfl
  refine foldl_reaches (inv := fun t : State => t.canon ∧ t.units = s.units)
    (P := fun r (t : State) => s.fabGone r = false → l.Finished r (t.fabric r)) (fun t i ⟨canon, units⟩ => ?_)
    (fun t i ⟨canon, units⟩ open_ => ?_) (fun t i j ⟨canon, units⟩ other was open_ => ?_)
    ⟨canon, units⟩ (.inl (mem_members covered)) open_
  · exact ⟨State.canon_of_keeps (.finishRegion (.refl t)) canon,
      ((Only.finishRegion (k := [.fab, .flagCnt, .ftx]) (.refl t) rfl).frame .units rfl).trans units⟩
  · exact State.finished_finishRegion canon l ((State.fabGone_congr units i).trans open_)
  · exact (was open_).of_core (State.core_finishRegion canon l other)

/-- A frame goes to its region (R256). -/
theorem State.fabric_acceptRecord {s : State} (hs : s.canon) {l : Load} (frame : fld l.plain 0 1 = 2 ∨ fld l.plain 0 1 = 3)
    (open_ : s.fabGone (fld l.plain 1 1) = false)
    (kept : ∀ p, l.part (fld l.plain 1 1) = some p → p.dropped = false) :
    (s.acceptRecord l).fabric (fld l.plain 1 1) =
      let f := s.fabric (fld l.plain 1 1)
      if fld l.plain 0 1 = 2 then { f with columns := put [] f.columns (fld l.plain 2 2) (slice l.plain 8 (fld l.plain 4 4)) }
      else { f with brams := put [] f.brams (fld l.plain 2 2) (slice l.plain 8 (fld l.plain 4 4)) } := by
  have on : ((l.part (fld l.plain 1 1)).getD { region := fld l.plain 1 1 }).dropped = false := by
    cases part : l.part (fld l.plain 1 1) with
    | none => rfl
    | some p => exact kept p part
  obtain ⟨u, hu⟩ : ∃ u, u = s.recordTaken l := ⟨_, rfl⟩
  have canon : u.canon := hu ▸ State.canon_of_keeps (Keeps.congr (.setLoad (.refl s)) rfl) hs
  have same (r : Nat) : u.fabric r = s.fabric r := State.fabric_of_fab (by rw [hu]; rfl) r
  rw [State.acceptRecord_frame (by omega), if_neg (by rw [open_, on]; decide), ← hu]
  unfold State.applyRecord
  rw [if_neg (by omega)]
  split
  · rw [State.setFab_fabric_self canon, same]
  · rw [if_pos (frame.resolve_left ‹_›), State.setFab_fabric_self canon, same]

/-! The start-up order. -/

theorem State.port_setPort_ne {s : State} (hs : s.canon) {r p k : Nat} (other : k ≠ p) (f : Port → Port) :
    ((s.setPort r p f).fabric r).port k = ((s.fabric r).port k) := by
  rw [State.setPort, State.setFab_fabric_self hs]
  exact look_modify_ne _ _ _ other

/-- The stream ports of a region whose cells release (R236, R247). -/
def Port.restart (q : Port) : Port := { q with rxCred := q.rxDepth, txBuf := [], txCred := 32 }

theorem State.fabric_releaseCells {s : State} (hs : s.canon) (r : Nat) :
    ((s.releaseCells r).fabric r).core = (s.fabric r).core ∧ ((s.releaseCells r).fabric r).isolated = false ∧
      ∀ p, p < 8 → ((s.releaseCells r).fabric r).port p = ((s.fabric r).port p).restart := by
  obtain ⟨u, hu⟩ : ∃ u, u = (List.range 8).foldl (fun s p => s.setPort r p Port.restart) s := ⟨_, rfl⟩
  obtain ⟨v, hv⟩ : ∃ v, v = u.setFab r (fun f => { f with
    isolated := false, cells := { f.cells with holds := f.cells.newHolds, pins := f.cells.newPins, wires := 0 } }) := ⟨_, rfl⟩
  have made : s.releaseCells r = if r % 2 = 0 then v.fixLane (r / 2) else v := by
    rw [hv, hu]
    rfl
  have last : (s.releaseCells r).fabric r = v.fabric r := by
    rw [made]
    split <;> rfl
  have start : u.canon ∧ (u.fabric r).core = (s.fabric r).core := by
    rw [hu]
    refine inv_foldl (inv := fun t : State => t.canon ∧ (t.fabric r).core = (s.fabric r).core)
      (fun t p ⟨canon, core⟩ => ?_) _ ⟨hs, rfl⟩
    refine ⟨State.canon_of_keeps (.setPort (.refl t)) canon, (State.core_setFab canon ?_ r).trans core⟩
    exact fun _ => rfl
  obtain ⟨canon, core⟩ := start
  have own : v.fabric r = { u.fabric r with
      isolated := false, cells := { (u.fabric r).cells with
        holds := (u.fabric r).cells.newHolds, pins := (u.fabric r).cells.newPins, wires := 0 } } := by
    rw [hv, State.setFab_fabric_self canon]
  rw [last, own]
  refine ⟨core, rfl, fun p small => ?_⟩
  have places := foldl_range_places (step := fun s p => s.setPort r p Port.restart)
    (get := fun s p => (s.fabric r).port p) (change := fun _ q => q.restart) (inv := State.canon)
    (fun t i h => State.canon_of_keeps (.setPort (.refl t)) h) (fun t i h => State.setPort_port_self h r i _)
    (fun t i j h other => State.port_setPort_ne h other _) hs small
  rw [← hu] at places
  exact places

/-- The action of a step of the start-up order, without the step's end (R264). -/
def State.doAction (s : State) (r a : Nat) : State :=
  if a = 1 then s.releaseCells r
  else if a = 2 then s.setFab r FabRegion.releaseReset
  else if a = 3 then s.setFab r (fun f => { f with writes := true })
  else s

theorem State.fabric_doAction {s : State} (hs : s.canon) (r a : Nat) :
    let x := s.fabric r
    ((s.doAction r a).fabric r).startup = x.startup ∧ ((s.doAction r a).fabric r).configured = x.configured ∧
      ((s.doAction r a).fabric r).gsr = (x.gsr && a != 2) ∧ ((s.doAction r a).fabric r).writes = (x.writes || a == 3) ∧
      ((s.doAction r a).fabric r).isolated = (x.isolated && a != 1) ∧
      (a = 1 → ∀ p, p < 8 → ((s.doAction r a).fabric r).port p = (x.port p).restart) ∧ (s.doAction r a).canon := by
  intro x
  obtain ⟨t, ht⟩ : ∃ t, t = s.doAction r a := ⟨_, rfl⟩
  rw [← ht]
  unfold State.doAction at ht
  by_cases one : a = 1
  · rw [if_pos one] at ht
    obtain ⟨core, cells, ports⟩ := State.fabric_releaseCells hs r
    rw [← ht] at core cells ports
    have same {α : Type} (read : FabRegion → α) (ignores : ∀ f, read f.core = read f) : read (t.fabric r) = read x :=
      FabRegion.of_core read ignores core
    refine ⟨same FabRegion.startup fun _ => rfl, same FabRegion.configured fun _ => rfl, ?_, ?_, ?_, fun _ => ports,
      ht ▸ State.canon_of_keeps (.releaseCells (.refl s)) hs⟩
    · rw [same FabRegion.gsr fun _ => rfl]
      simp [one]
    · rw [same FabRegion.writes fun _ => rfl]
      simp [one]
    · rw [cells]
      simp [one]
  · rw [if_neg one] at ht
    by_cases two : a = 2
    · rw [if_pos two] at ht
      have own : t.fabric r = (s.fabric r).releaseReset := ht ▸ State.setFab_fabric_self hs r _
      rw [own]
      refine ⟨rfl, rfl, ?_, ?_, ?_, fun no => absurd no one, ?_⟩
      · simp [FabRegion.releaseReset, two]
      · simp [FabRegion.releaseReset, two, x]
      · simp [FabRegion.releaseReset, two, x]
      · exact ht ▸ State.canon_of_keeps (.setFab (.refl s) fun _ => id) hs
    · rw [if_neg two] at ht
      by_cases three : a = 3
      · rw [if_pos three] at ht
        have own : t.fabric r = { s.fabric r with writes := true } := ht ▸ State.setFab_fabric_self hs r _
        rw [own]
        refine ⟨rfl, rfl, ?_, ?_, ?_, fun no => absurd no one, ?_⟩
        · simp [three, x]
        · simp [three, x]
        · simp [three, x]
        · exact ht ▸ State.canon_of_keeps (.setFab (.refl s) fun _ => id) hs
      · rw [if_neg three] at ht
        rw [ht]
        refine ⟨rfl, rfl, ?_, ?_, ?_, fun no => absurd no one, hs⟩
        · simp [two, x]
        · simp [three, x]
        · simp [one, x]

/-- What the action of a step leaves of its region, from before the design ran (R264). -/
theorem State.fabric_runAction {s : State} (hs : s.canon) (r a : Nat) :
    let x := s.fabric r
    let y := ((s.runDesign r).doAction r a).fabric r
    y.startup = x.startup ∧ y.configured = x.configured ∧ y.gsr = (x.gsr && a != 2) ∧ y.writes = (x.writes || a == 3) ∧
      y.isolated = (x.isolated && a != 1) ∧ (a = 1 → ∀ p, p < 8 → y.port p = (x.port p).restart) := by
  intro x y
  have same {α : Type} (read : FabRegion → α) (ignores : ∀ f, read f.view = read f) :
      read ((s.runDesign r).fabric r) = read x := FabRegion.of_view read ignores (State.view_runDesign hs r r)
  obtain ⟨startup, configured, gsr, writes, cells, ports, -⟩ := State.fabric_doAction (State.canon_runDesign hs r) r a
  refine ⟨startup.trans (same _ fun _ => rfl), configured.trans (same _ fun _ => rfl), gsr.trans ?_, writes.trans ?_,
    cells.trans ?_, fun one p small => (ports one p small).trans ?_⟩
  · rw [same FabRegion.gsr fun _ => rfl]
  · rw [same FabRegion.writes fun _ => rfl]
  · rw [same FabRegion.isolated fun _ => rfl]
  · rw [State.port_runDesign hs]

theorem State.fab_noteStartup (s : State) (r : Nat) (late : Bool) : (s.noteStartup r late).fab = s.fab ∧
    (s.noteStartup r late).flags .cfg = s.flags .cfg := by
  unfold State.noteStartup
  split <;> exact ⟨rfl, rfl⟩

/-- A step of the start-up order (R264): its action, then its end. -/
theorem State.fabric_act {s : State} (hs : s.canon) (r : Nat) :
    let x := s.fabric r
    let z := (s.runDesign r).doAction r x.startup.action
    (s.act r).fabric r = if x.startup.steps + 1 = 4 then { z.fabric r with
        configured := true, loading := false
        startup := { (z.fabric r).startup with steps := 4, done := true, running := false } }
      else { z.fabric r with startup := { (z.fabric r).startup with steps := x.startup.steps + 1 } } := by
  intro x z
  have canon : z.canon := (State.fabric_doAction (State.canon_runDesign hs r) r x.startup.action).2.2.2.2.2.2
  have same : ((s.runDesign r).fabric r).startup = x.startup :=
    FabRegion.of_view FabRegion.startup (fun _ => rfl) (State.view_runDesign hs r r)
  have made : s.act r = if x.startup.steps + 1 = 4 then ((z.setFab r (fun f => { f with
        configured := true, loading := false
        startup := { f.startup with steps := 4, done := true, running := false } })).noteStartup r false).endLoads
      else z.setFab r (fun f => { f with startup := { f.startup with steps := x.startup.steps + 1 } }) := by
    unfold State.act
    dsimp only
    rw [same]
    rfl
  rw [made]
  split
  · rw [State.fabric_of_fab ((State.endLoads_eq _).2.1), State.fabric_of_fab (State.fab_noteStartup _ _ _).1,
      State.setFab_fabric_self canon]
  · rw [State.setFab_fabric_self canon]

/-- What a step of the start-up order leaves (R264). -/
theorem State.act_spec {s : State} (hs : s.canon) (r : Nat) :
    let u := (s.fabric r).startup
    let t := s.act r
    (u.steps + 1 < 4 → (t.fabric r).startup = { u with steps := u.steps + 1 } ∧
        (t.fabric r).configured = (s.fabric r).configured) ∧
      (u.steps + 1 = 4 → (t.fabric r).startup = { u with steps := 4, done := true, running := false } ∧
        (t.fabric r).configured = true) ∧
      (t.fabric r).gsr = ((s.fabric r).gsr && u.action != 2) ∧
      (t.fabric r).writes = ((s.fabric r).writes || u.action == 3) ∧
      (t.fabric r).isolated = ((s.fabric r).isolated && u.action != 1) ∧
      (u.action = 1 → ∀ p, p < 8 → ((t.fabric r).port p).rxCred = ((s.fabric r).port p).rxDepth ∧
        ((t.fabric r).port p).txCred = 32 ∧ ((t.fabric r).port p).txBuf = []) := by
  intro u t
  obtain ⟨startup, configured, gsr, writes, cells, ports⟩ := State.fabric_runAction hs r u.action
  have own := State.fabric_act hs r
  dsimp only at own startup configured gsr writes cells ports
  obtain ⟨y, hy⟩ : ∃ y, y = ((s.runDesign r).doAction r u.action).fabric r := ⟨_, rfl⟩
  change t.fabric r = _ at own
  rw [← hy] at own startup configured gsr writes cells ports
  by_cases ends : u.steps + 1 = 4
  · rw [if_pos ends] at own
    rw [own]
    refine ⟨fun less => absurd ends (Nat.ne_of_lt less), fun _ => ⟨?_, rfl⟩, gsr, writes, cells, fun one p small => ?_⟩
    · dsimp only
      rw [startup]
    · have port := ports one p small
      change (y.port p).rxCred = _ ∧ (y.port p).txCred = _ ∧ (y.port p).txBuf = _
      rw [port]
      exact ⟨rfl, rfl, rfl⟩
  · rw [if_neg ends] at own
    rw [own]
    refine ⟨fun _ => ⟨?_, configured⟩, fun is => absurd is ends, gsr, writes, cells, fun one p small => ?_⟩
    · dsimp only
      rw [startup]
    · have port := ports one p small
      change (y.port p).rxCred = _ ∧ (y.port p).txCred = _ ∧ (y.port p).txBuf = _
      rw [port]
      exact ⟨rfl, rfl, rfl⟩

/-- A start-up order that is late (R265). -/
theorem State.startupLate_spec {s : State} (hs : s.canon) (r : Nat) :
    let f := (s.startupLate r).fabric r
    f.isolated = true ∧ f.gsr = true ∧ f.writes = false ∧ f.configured = false ∧ f.startup.timedOut = true ∧
      f.startup.running = false ∧ ((s.startupLate r).flags .cfg).getLsbD 27 = true := by
  obtain ⟨u, hu⟩ : ∃ u, u = (s.holdFabric r).setFab r (fun f => { f with
    configured := false, loading := false, startup := { f.startup with running := false, timedOut := true } }) := ⟨_, rfl⟩
  obtain ⟨v, hv⟩ : ∃ v, v = (u.noteStartup r true).raise .cfg 0x08000000 := ⟨_, rfl⟩
  have made : s.startupLate r = (v.recordFail 5 r 0).endLoads := by
    rw [hv, hu]
    rfl
  have canonH : (s.holdFabric r).canon := State.canon_holdFabric hs r
  have canonU : u.canon := hu ▸ State.canon_of_keeps (.setFab (.refl _) fun _ => id) canonH
  have canonN : (u.noteStartup r true).canon := State.canon_of_keeps (.noteStartup (.refl u)) canonU
  have fab : (s.startupLate r).fab = u.fab := by
    rw [made, (State.endLoads_eq _).2.1]
    refine ((Only.recordFail (l := [.fcfg, .flagCnt]) (.refl v) rfl).frame .fab rfl).trans ?_
    rw [hv]
    exact (State.fab_noteStartup u r true).1
  obtain ⟨cells, gsr, writes, -⟩ := State.fabric_holdFabric hs r r
  have own : (s.startupLate r).fabric r = { (s.holdFabric r).fabric r with
      configured := false, loading := false
      startup := { ((s.holdFabric r).fabric r).startup with running := false, timedOut := true } } := by
    rw [State.fabric_of_fab fab, hu, State.setFab_fabric_self canonH]
  rw [own]
  refine ⟨?_, ?_, ?_, rfl, rfl, rfl, ?_⟩
  · simpa using cells
  · simpa using gsr
  · simpa using writes
  · rw [made, (State.endLoads_eq _).2.2, (State.cfgFlags_recordFail _ _ _ _).1, hv]
    exact State.flag_raised canonN .cfg (by decide)

/-- Clearing done (R267). -/
theorem State.fabric_clearFabric {s : State} (hs : s.canon) (r : Nat) :
    let f := (s.clearFabric r).fabric r
    f.clearing = false ∧ f.configured = false ∧ f.isolated = true ∧ f.columns = [] ∧ f.brams = [] ∧ f.control = [] ∧
      f.imageId = 0 := by
  intro f
  have canon := State.canon_of_keeps (.isolate (r := r) (.refl s)) hs
  obtain ⟨-, cells⟩ := State.fabric_isolate hs r r
  obtain ⟨g, hg⟩ : ∃ g : FabRegion, f = { g with
      configured := false, loading := false, clearing := false, gsr := true, writes := false, control := [], columns := []
      brams := [], imageId := 0, startup := {}, pllLock := 0, trees := [], delays := [], cells := { edges := g.cells.edges } } ∧
      g.isolated = true := by
    refine ⟨(s.isolate r).fabric r, ?_, by simpa using cells⟩
    have own := State.setFab_fabric_self canon r (fun f => { f with
      configured := false, loading := false, clearing := false, gsr := true, writes := false, control := [], columns := []
      brams := [], imageId := 0, startup := {}, pllLock := 0, trees := [], delays := [], cells := { edges := f.cells.edges } })
    refine Eq.trans ?_ own
    change (State.bareLane _ r).fabric r = _
    unfold State.bareLane
    split <;> rfl
  obtain ⟨is, isolated⟩ := hg
  rw [is]
  exact ⟨rfl, rfl, isolated, rfl, rfl, rfl, rfl⟩

theorem State.segmentVerify_eq {s : State} {slot : Nat} {l : Load} (found : s.load slot = some l)
    (takes : l.takesSegment = true) : exec (.segmentVerify slot) s = .next (s.verifySegment l).endLoads := by
  change execSegmentVerify slot s = _
  unfold execSegmentVerify
  rw [found]
  exact if_pos takes

theorem State.recordDispatch_eq {s : State} {slot : Nat} {l : Load} {intact : Bool} (found : s.load slot = some l)
    (sees : l.sees = true) : exec (.recordDispatch slot intact) s = .next (s.dispatch l intact).endLoads := by
  change execRecordDispatch slot intact s = _
  unfold execRecordDispatch
  rw [found]
  exact if_pos sees

theorem Load.open_of_takesSegment (l : Load) (h : l.takesSegment = true) : l.ended = false := by
  unfold Load.takesSegment at h
  simp only [Bool.and_eq_true, Bool.not_eq_true'] at h
  exact h.1.1.2

theorem Load.open_of_sees (l : Load) (h : l.sees = true) : l.ended = false := by
  unfold Load.sees at h
  simp only [Bool.and_eq_true, Bool.not_eq_true'] at h
  exact h.1.2

/-- Settles O53: each event by what it does to its load and to the regions of it. -/
theorem fabricLoading : Obligations.FabricLoading := by
  unfold Obligations.FabricLoading
  refine ⟨fun s slot l hs found takes => ⟨fun cut => ?cut, fun whole bad => ?bad, fun b whole good => ?good⟩,
    fun s slot l intact hs found sees => ⟨fun wrong => ?wrong, fun seen ok whole damaged => ?damaged,
      fun seen ok whole right => ?right⟩, fun s r hs small may => ?act, fun s r hs small runs => ?late,
    fun s r hs small clears => ?clear⟩
  case cut =>
    have answer := State.segmentVerify_eq found takes
    rw [State.verifySegment_cut cut, State.slot_of_load found] at answer
    exact ⟨_, answer, State.failLoad_spec hs found (by decide) _ _ _ _⟩
  case bad =>
    have answer := State.segmentVerify_eq found takes
    rw [State.verifySegment_bad whole bad, State.slot_of_load found] at answer
    exact ⟨_, answer, State.failLoad_spec hs found (by decide) _ _ _ _⟩
  case good =>
    have answer := State.segmentVerify_eq found takes
    rw [State.verifySegment_good whole good, State.slot_of_load found] at answer
    refine ⟨_, answer, (State.endLoads_eq _).2.1, ?_⟩
    refine State.load_endLoads (State.load_setLoad found fun _ => rfl) ?_
    exact l.open_of_takesSegment takes
  case wrong =>
    have answer := State.recordDispatch_eq (intact := intact) found sees
    rw [State.dispatch_bad wrong, State.slot_of_load found] at answer
    exact ⟨_, answer, State.failLoad_spec hs found (by decide) _ _ _ _⟩
  case damaged =>
    have answer := State.recordDispatch_eq (intact := intact) found sees
    rw [State.dispatch_damaged seen ok whole damaged, State.slot_of_load found] at answer
    refine ⟨_, answer, ?_⟩
    split
    · exact (State.failLoad_spec hs found (by decide) _ _ _ _).1
    · exact ⟨(State.endLoads_eq _).2.1, State.load_endLoads (State.load_setLoad found fun _ => rfl) (l.open_of_sees sees)⟩
  case right =>
    have answer := State.recordDispatch_eq (intact := intact) found sees
    rw [State.dispatch_right seen ok whole right] at answer
    have same (q : Nat) : (s.acceptRecord l).endLoads.fabric q = (s.acceptRecord l).fabric q :=
      State.fabric_of_fab (State.endLoads_eq _).2.1 q
    refine ⟨_, answer, fun more => ?_, fun column open_ kept => ?_, fun ram open_ kept => ?_, fun last q covered open_ => ?_⟩
    · exact ⟨_, State.load_endLoads (State.load_acceptRecord found more) (l.open_of_sees sees), rfl, rfl, rfl, rfl, rfl⟩
    · rw [same, State.fabric_acceptRecord hs (.inl column) open_ kept]
      exact if_pos column
    · rw [same, State.fabric_acceptRecord hs (.inr ram) open_ kept]
      exact if_neg (by rw [ram]; decide)
    · rw [same]
      exact State.finished_acceptRecord hs last covered open_
  case act =>
    refine ⟨_, if_pos (by rw [may, decide_eq_true small]; rfl), ?_⟩
    exact State.act_spec hs r
  case late =>
    exact ⟨_, if_pos (by rw [runs, decide_eq_true small]; rfl), State.startupLate_spec hs r⟩
  case clear =>
    refine ⟨_, if_pos (by rw [clears, decide_eq_true small]; rfl), ?_⟩
    dsimp only
    rw [State.fabric_of_fab (State.endLoads_eq _).2.1]
    exact State.fabric_clearFabric hs r

end Sys2Proof.Machine
end

section
/-! PROOFS. Clocks and power (O52). -/

namespace Sys2Proof.Machine

/-! What the parts of clock hold and of a trip leave alone. -/

section Frames
variable {l : List Piece} {s t : State}

theorem Only.stopRegion {r : Nat} (h : Only l s t) (sub : within [.tick, .flagCnt, .tiles, .free, .bufs, .eng] l = true) :
    Only l s (t.stopRegion r) := by
  refine h.then (k := [.tick, .flagCnt, .tiles, .free, .bufs, .eng]) ?_ sub
  unfold State.stopRegion
  exact .foldl (.foldl (.markEmerg (.refl t) rfl) fun _ _ h => h.haltSlot rfl) fun _ _ h => h.restartStream rfl

theorem Only.emergency (h : Only l s t) (sub : within [.tick, .flagCnt, .tiles, .free, .bufs, .eng, .fcfg, .loads, .fab, .ftx,
    .mbx, .log] l = true) : Only l s t.emergency := by
  refine h.then (k := [.tick, .flagCnt, .tiles, .free, .bufs, .eng, .fcfg, .loads, .fab, .ftx, .mbx, .log]) ?_ sub
  unfold State.emergency
  exact .abortLoads (.foldl (.refl t) fun _ _ h => h.stopRegion rfl) rfl

theorem Only.holdTick (h : Only l s t) (sub : within [.tick, .flagCnt] l = true) : Only l s t.holdTick := by
  refine h.then (k := [.tick, .flagCnt]) ?_ sub
  unfold State.holdTick
  exact .ite (.withTick (.raise (.refl t) rfl) rfl) (.refl t)

theorem Only.halt (h : Only l s t) (sub : within [.tick, .flagCnt, .tiles, .free, .bufs, .eng, .fcfg, .loads, .fab, .ftx,
    .mbx, .log, .regions] l = true) : Only l s t.halt := by
  refine h.then (k := [.tick, .flagCnt, .tiles, .free, .bufs, .eng, .fcfg, .loads, .fab, .ftx, .mbx, .log, .regions]) ?_ sub
  unfold State.halt
  exact .withRegions (.holdTick (.emergency (.refl t) rfl) rfl) rfl

theorem Only.muxAsk {key src : Nat} (h : Only l s t) (sub : within [.clk] l = true) : Only l s (t.muxAsk key src) :=
  h.withClk sub

theorem Only.dropLink (h : Only l s t) (sub : within [.cxl, .flagCnt] l = true) : Only l s t.dropLink := by
  refine h.then (k := [.cxl, .flagCnt]) ?_ sub
  unfold State.dropLink
  exact .ite (.raise (.withCxl (.refl t) rfl) rfl) (.refl t)

theorem Only.restRegions (h : Only l s t) (sub : within [.regions] l = true) : Only l s t.restRegions :=
  h.then (k := [.regions]) (.foldl (.refl t) fun _ _ h => h.setRegion rfl) sub

theorem Only.leavePair (h : Only l s t) (sub : within [.pair, .dev, .out, .strait, .mbx, .fcfg, .flagCnt, .loads, .fab, .ftx,
    .log, .tick, .tiles, .eng, .bufs, .regions, .sess] l = true) : Only l s t.leavePair := by
  unfold State.leavePair
  exact .ite (h.quitPair sub) h

end Frames

/-! Tables read through a change of every entry. -/

theorem look_mapTab_of_lt {α : Type} [DecidableEq α] {d : α} {f : Nat → α → α} : ∀ {t : Tab α} {lo i : Nat},
    tabWfFrom d lo t = true → i < lo → look d (mapTab d f t) i = d
  | [], _, _, _, _ => rfl
  | (k, v) :: r, lo, i, h, less => by
    simp only [tabWfFrom, Bool.and_eq_true, decide_eq_true_eq] at h
    obtain ⟨⟨le, -⟩, rest⟩ := h
    have later : look d (mapTab d f r) i = d := look_mapTab_of_lt rest (by omega)
    unfold mapTab
    split
    · exact later
    · rw [look, if_neg (by omega), later]

/-- Where the change keeps the default, it is read at every key. -/
theorem look_mapTab {α : Type} [DecidableEq α] {d : α} {f : Nat → α → α} {i : Nat} (hf : f i d = d) :
    ∀ {t : Tab α} {lo : Nat}, tabWfFrom d lo t = true → look d (mapTab d f t) i = f i (look d t i)
  | [], _, _ => hf.symm
  | (k, v) :: r, lo, h => by
    simp only [tabWfFrom, Bool.and_eq_true, decide_eq_true_eq] at h
    obtain ⟨⟨le, -⟩, rest⟩ := h
    have later := look_mapTab hf rest
    unfold mapTab
    by_cases own : i = k
    · subst own
      rw [look, if_pos rfl]
      split
      · rename_i dropped
        rw [look_mapTab_of_lt rest (Nat.lt_succ_self i), dropped]
      · rw [look, if_pos rfl]
    · have other : look d ((k, v) :: r) i = look d r i := by rw [look, if_neg own]
      rw [other]
      split
      · exact later
      · rw [look, if_neg own, later]

/-! Passes discarded. -/

theorem State.array_runTile {s : State} (wf : tabWf {} s.tiles = true) (i : Nat) (f : Tile → Tile) :
    ((s.runTile i f).tile i).array = (f { s.tile i with r := { (s.tile i).r with
      discard := false, qstall := false, ovf := false, err := false, fatal := false, spec := false, dlate := 0 } }).array := by
  rw [State.tile_runTile_self wf]
  rfl

theorem State.tiles_haltSlot {s : State} (wf : tabWf {} s.tiles = true) (i : Nat) {f : Nat → Tile → Tile}
    (empties : ∀ n t, (f n t).array = []) : tabWf {} (s.haltSlot i f).tiles = true ∧ ((s.haltSlot i f).tile i).array = [] ∧
      ∀ k, k ≠ i → (s.haltSlot i f).tile k = s.tile k := by
  unfold State.haltSlot
  split
  · refine ⟨State.tilesWf_runTile wf i _, ?_, fun k other => State.tile_runTile_ne s other _⟩
    rw [State.array_runTile wf, empties]
  · dsimp only
    obtain ⟨u, hu⟩ : ∃ u, u = s.draw.2.runTile i (f s.draw.1) := ⟨_, rfl⟩
    have wfD : tabWf {} s.draw.2.tiles = true := wf
    rw [← hu]
    generalize partialOut _ _ = o
    generalize TileJob.sliceBase _ = base
    have tiles := (Only.putBufRows (l := [.bufs]) (cluster := i / 9) (base := base) (rows := o.cb) (.refl u) rfl).frame .tiles rfl
    refine ⟨?_, ?_, fun k other => ?_⟩
    · rw [tiles, hu]
      exact State.tilesWf_runTile wfD i _
    · rw [State.tile_congr tiles, hu, State.array_runTile wfD, empties]
    · rw [State.tile_congr tiles, hu, State.tile_runTile_ne _ other]
      rfl

theorem array_stopTile (n : Nat) (t : Tile) : (stopTile n t).array = [] := rfl

/-- The arrays of the slots halted are empty, and none fills. -/
theorem State.array_foldl_haltSlot {f : Nat → Tile → Tile} (empties : ∀ n t, (f n t).array = []) {s : State}
    (wf : tabWf {} s.tiles = true) {l : List Nat} {i : Nat} (h : i ∈ l ∨ (s.tile i).array = []) :
    ((l.foldl (fun s i => s.haltSlot i f) s).tile i).array = [] :=
  foldl_reaches (step := fun (s : State) i => s.haltSlot i f) (inv := fun t : State => tabWf {} t.tiles = true)
    (P := fun i (t : State) => (t.tile i).array = []) (fun _ i h => (State.tiles_haltSlot h i empties).1)
    (fun _ i h => (State.tiles_haltSlot h i empties).2.1)
    (fun _ i j h other was => by
      rw [(State.tiles_haltSlot h i empties).2.2 j other]
      exact was) wf h

theorem State.wf_tiles {s : State} (hs : s.canon) : tabWf {} s.tiles = true := (s.canon_iff.mp hs).tiles

/-- The passes of a region discarded to run again (R58). -/
theorem State.array_stopRegion {s : State} (hs : s.canon) {r i : Nat} (h : i / 36 = r ∨ (s.tile i).array = []) :
    ((s.stopRegion r).tile i).array = [] := by
  unfold State.stopRegion
  dsimp only
  obtain ⟨u, hu⟩ : ∃ u, u = s.markEmerg (s.inArray r) := ⟨_, rfl⟩
  rw [← hu]
  have tiles : u.tiles = s.tiles := (hu ▸ Only.markEmerg (l := [.tick, .flagCnt]) (.refl s) rfl :
    Only [.tick, .flagCnt] s u).frame .tiles rfl
  have wf : tabWf {} u.tiles = true := by
    rw [tiles]
    exact State.wf_tiles hs
  generalize hv : List.foldl (fun s i => State.haltSlot s i stopTile) _ _ = v
  have last : Only [.eng] v ((List.range 32).foldl (fun s n => s.restartStream r n) v) :=
    .foldl (.refl v) fun _ _ h => h.restartStream rfl
  rw [State.tile_congr (last.frame .tiles rfl), ← hv]
  refine State.array_foldl_haltSlot array_stopTile wf ?_
  obtain own | none_ := h
  · by_cases empty : u.tile i = {}
    · right
      rw [empty]
    · exact .inl (own ▸ u.mem_slotsOf empty)
  · right
    rw [State.tile_congr tiles, none_]

theorem State.active_stopRegion (s : State) (r : Nat) : (s.stopRegion r).tick.active = s.tick.active := by
  unfold State.stopRegion
  dsimp only
  obtain ⟨u, hu⟩ : ∃ u, u = s.markEmerg (s.inArray r) := ⟨_, rfl⟩
  rw [← hu]
  have rest : Only [.tiles, .flagCnt, .free, .bufs, .eng] u ((List.range 32).foldl (fun s n => s.restartStream r n)
      ((u.slotsOf r).foldl (fun s i => s.haltSlot i stopTile) u)) :=
    .foldl (.foldl (.refl _) fun _ _ h => h.haltSlot rfl) fun _ _ h => h.restartStream rfl
  rw [rest.frame .tick rfl, hu]
  exact (s.done_markEmerg _).2

/-- An emergency of package scope (R58): every array is empty, and the tick stays open. -/
theorem State.emergency_spec {s : State} (hs : s.canon) : s.emergency.canon ∧
    (∀ i, i < 2304 → (s.emergency.tile i).array = []) ∧ s.emergency.tick.active = s.tick.active := by
  unfold State.emergency
  dsimp only
  generalize hu : List.foldl State.stopRegion s (List.range 64) = u
  have canon : u.canon := hu ▸ State.canon_of_keeps (.foldl (.refl s) fun _ _ h => h.stopRegion) hs
  have last : Only [.fcfg, .flagCnt, .loads, .fab, .ftx, .mbx, .log] u (u.abortLoads (fun l => l.begun)) :=
    .abortLoads (.refl u) rfl
  refine ⟨State.canon_of_keeps (.abortLoads (.refl u)) canon, fun i small => ?_, ?_⟩
  · rw [State.tile_congr (last.frame .tiles rfl), ← hu]
    have all := foldl_reaches (step := State.stopRegion) (inv := State.canon)
      (P := fun r (t : State) => ∀ i, i / 36 = r → (t.tile i).array = [])
      (fun t r h => State.canon_of_keeps (.stopRegion (.refl t)) h) (fun t r h i own => State.array_stopRegion h (.inl own))
      (fun t r q h _ was i own => State.array_stopRegion h (.inr (was i own))) (l := List.range 64) (j := i / 36) hs
      (.inl (List.mem_range.mpr (by omega)))
    exact all i rfl
  · rw [last.frame .tick rfl, ← hu]
    exact inv_foldl (inv := fun t : State => t.tick.active = s.tick.active)
      (fun t r h => (State.active_stopRegion t r).trans h) _ rfl

theorem State.held_holdTick (s : State) (active : s.tick.active = true) : s.holdTick.tick.held = true := by
  unfold State.holdTick
  cases held : s.tick.held
  · rw [if_pos (by rw [active]; rfl)]
  · rw [if_neg (by simp)]
    exact held

theorem State.step_dropSteps {s : State} (wf : tabWf {} s.regions = true) (r : Nat) : (s.dropSteps.region r).step = 0 := by
  unfold State.dropSteps State.region
  dsimp only
  rw [look_mapTab (f := fun _ (x : Region) => { x with step := 0 }) rfl wf]

theorem State.only_dropSteps (s : State) : Only [.regions] s s.dropSteps := .withRegions (.refl s) rfl

/-- What an emergency of package scope stops at once (R58, R387, R392, R395). -/
theorem State.halt_spec {s : State} (hs : s.canon) : s.halt.canon ∧ (∀ i, i < 2304 → (s.halt.tile i).array = []) ∧
    (s.tick.active = true → s.halt.tick.held = true) ∧ (∀ r, (s.halt.region r).step = 0) := by
  obtain ⟨canon, arrays, active⟩ := State.emergency_spec hs
  obtain ⟨u, hu⟩ : ∃ u, u = s.emergency := ⟨_, rfl⟩
  have made : s.halt = u.holdTick.dropSteps := by rw [hu, State.halt]
  rw [← hu] at canon arrays active
  have hold : Only [.tick, .flagCnt] u u.holdTick := .holdTick (.refl u) rfl
  have drop := u.holdTick.only_dropSteps
  have both : Only [.tick, .flagCnt, .regions] u u.holdTick.dropSteps := Only.then (.holdTick (.refl u) rfl) drop rfl
  refine ⟨State.canon_of_keeps (.halt (.refl s)) hs, fun i small => ?_, fun runs => ?_, fun r => ?_⟩
  · rw [made, State.tile_congr (both.frame .tiles rfl), arrays i small]
  · rw [made, drop.frame .tick rfl]
    exact u.held_holdTick (active.trans runs)
  · rw [made]
    refine State.step_dropSteps ?_ r
    rw [hold.frame .regions rfl]
    exact (u.canon_iff.mp canon).regions

/-! Clock hold begins. -/

theorem State.clkFlags_of_clk {s t : State} (h : (t.clk.stuck, t.clk.xtalLost, t.clk.refLost, t.clk.qualFail) =
    (s.clk.stuck, s.clk.xtalLost, s.clk.refLost, s.clk.qualFail)) : t.flags .clkStatus = s.flags .clkStatus := by
  simp only [Prod.mk.injEq] at h
  obtain ⟨a, b, c, d⟩ := h
  unfold State.flags
  rw [a, b, c, d]

/-- Clock hold noted, before the fabric and the links are held (R387). -/
def State.noteHold (s : State) : State :=
  { s with
    clk := { s.clk with hold := true }
    dev := { s.dev with held := s.dev.stage, stage := 4, qualified := false }
    pwr := { s.pwr with clamp := false }
    mpk := { s.mpk with hbm := { inSr := true }, lp := { inSr := true } } }

/-- The links and lanes held, the fabric being isolated (R387). -/
def State.holdLinks (s : State) (ref : Bool) : State :=
  let u := ((s.fixLanes).idleStrait).muxAsk (muxKey 1 0) 0
  if ref then u.dropLink else u

theorem State.enterHold_eq (s : State) (ref : Bool) :
    s.enterHold ref = ((List.range 64).foldl State.holdFabric s.halt.noteHold).holdLinks ref := rfl

theorem State.holdLinks_spec {s : State} (hs : s.canon) (ref : Bool) :
    Only [.ftx, .strait, .flagCnt, .clk, .cxl] s (s.holdLinks ref) ∧
      (∀ l, l < 32 → ((s.holdLinks ref).strLane l).idle = true ∧ ((s.holdLinks ref).strLane l).up = false) ∧
      (s.holdLinks ref).clk.hold = s.clk.hold ∧ (s.holdLinks ref).flags .clkStatus = s.flags .clkStatus ∧
      (ref = true → (s.holdLinks ref).cxl.up = false) := by
  unfold State.holdLinks
  dsimp only
  obtain ⟨u, hu⟩ : ∃ u, u = s.fixLanes.idleStrait := ⟨_, rfl⟩
  rw [← hu]
  have part : Only [.ftx, .strait, .flagCnt] s u := hu ▸ .idleStrait (.fixLanes (.refl s) rfl) rfl
  have clk : u.clk = s.clk := part.frame .clk rfl
  have lanes (l : Nat) (small : l < 32) : (u.strLane l).idle = true ∧ (u.strLane l).up = false := by
    rw [hu, State.strLane_idleStrait (State.canon_of_keeps (.fixLanes (.refl s)) hs) small]
    exact ⟨rfl, rfl⟩
  obtain ⟨v, hv⟩ : ∃ v, v = u.muxAsk (muxKey 1 0) 0 := ⟨_, rfl⟩
  rw [← hv]
  have asked : Only [.clk] u v := hv ▸ .muxAsk (.refl u) rfl
  have hold : v.clk.hold = s.clk.hold := by rw [hv, ← clk]; rfl
  have flags : v.flags .clkStatus = s.flags .clkStatus := by
    refine State.clkFlags_of_clk ?_
    rw [hv, ← clk]
    rfl
  have lanesV (l : Nat) (small : l < 32) : (v.strLane l).idle = true ∧ (v.strLane l).up = false := by
    have same : v.strLane l = u.strLane l := by
      unfold State.strLane
      rw [asked.frame .strait rfl]
    rw [same]
    exact lanes l small
  have partV : Only [.ftx, .strait, .flagCnt, .clk] s v := Only.then (Only.then (.refl s) part rfl) asked rfl
  cases ref with
  | false => exact ⟨.then (.refl s) partV rfl, lanesV, hold, flags, nofun⟩
  | true =>
    have link : Only [.cxl, .flagCnt] v v.dropLink := .dropLink (.refl v) rfl
    rw [if_pos rfl]
    refine ⟨.dropLink (.then (.refl s) partV rfl) rfl, fun l small => ?_, ?_, ?_, fun _ => v.dropLink_spec.1⟩
    · have same : v.dropLink.strLane l = v.strLane l := by
        unfold State.strLane
        rw [link.frame .strait rfl]
      rw [same]
      exact lanesV l small
    · rw [link.frame .clk rfl, hold]
    · rw [← flags]
      refine State.clkFlags_of_clk ?_
      rw [link.frame .clk rfl]

theorem State.noteHold_spec {s : State} (hs : s.canon) : s.noteHold.canon ∧
    s.noteHold.flags .clkStatus = s.flags .clkStatus :=
  ⟨State.canon_of_keeps ((Keeps.refl s).congr rfl) hs, State.clkFlags_of_clk rfl⟩

/-- What clock hold leaves as it begins (R387). -/
theorem State.enterHold_spec {s : State} (hs : s.canon) (ref : Bool) :
    let t := s.enterHold ref
    t.flags .clkStatus = s.flags .clkStatus ∧ t.dev.qualified = false ∧ (ref = true → t.cxl.up = false) ∧ t.mem = s.mem ∧
      t.clk.hold = true ∧ t.dev.stage = 4 ∧ t.dev.held = s.dev.stage ∧
      t.mpk.hbm = { inSr := true } ∧ t.mpk.lp = { inSr := true } ∧ (s.tick.active = true → t.tick.held = true) ∧
      (∀ r, r < 64 → (t.fabric r).isolated = true ∧ (t.fabric r).gsr = true ∧ (t.region r).step = 0) ∧
      (∀ i, i < 2304 → (t.tile i).array = []) ∧ ∀ l, l < 32 → (t.strLane l).idle = true ∧ (t.strLane l).up = false := by
  intro t
  obtain ⟨canonH, arraysH, heldH, stepsH⟩ := State.halt_spec hs
  have part : Only [.tick, .flagCnt, .tiles, .free, .bufs, .eng, .fcfg, .loads, .fab, .ftx, .mbx, .log, .regions] s s.halt :=
    .halt (.refl s) rfl
  obtain ⟨h, hh⟩ : ∃ h, h = s.halt := ⟨_, rfl⟩
  have made : t = ((List.range 64).foldl State.holdFabric h.noteHold).holdLinks ref := by
    rw [hh]
    exact State.enterHold_eq s ref
  clear_value t
  rw [← hh] at canonH arraysH heldH stepsH part
  clear hh
  obtain ⟨canon, flagsH⟩ := State.noteHold_spec canonH
  obtain ⟨u, hu⟩ : ∃ u, u = h.noteHold := ⟨_, rfl⟩
  rw [← hu] at canon made flagsH
  have hold : u.clk.hold = true := by rw [hu]; rfl
  have dev : u.dev.qualified = false ∧ u.dev.stage = 4 := by rw [hu]; exact ⟨rfl, rfl⟩
  have mpk : u.mpk.hbm = { inSr := true } ∧ u.mpk.lp = { inSr := true } := by rw [hu]; exact ⟨rfl, rfl⟩
  have mem : u.mem = s.mem := by
    rw [hu]
    exact part.frame .mem rfl
  have stage : u.dev.held = s.dev.stage := by
    rw [hu]
    exact congrArg Dev.stage (part.frame .dev rfl)
  have flags : u.flags .clkStatus = s.flags .clkStatus := by
    refine flagsH.trans (State.clkFlags_of_clk ?_)
    rw [part.frame .clk rfl]
  have held (active : s.tick.active = true) : u.tick.held = true := by
    rw [hu]
    exact heldH active
  have steps (r : Nat) : (u.region r).step = 0 := by
    rw [hu]
    exact stepsH r
  have arrays (i : Nat) (small : i < 2304) : (u.tile i).array = [] := by
    rw [hu]
    exact arraysH i small
  clear hu part
  obtain ⟨v, hv⟩ : ∃ v, v = (List.range 64).foldl State.holdFabric u := ⟨_, rfl⟩
  have fabric (r : Nat) (small : r < 64) : (v.fabric r).isolated = true ∧ (v.fabric r).gsr = true ∧
      (v.fabric r).writes = false := by
    rw [hv]
    exact State.fabric_holdFabrics canon small
  have part : Only [.fab, .flagCnt, .ftx] u v := hv ▸ .foldl (.refl u) fun _ _ h => h.holdFabric rfl
  have canonV : v.canon := hv ▸ State.canon_of_keeps (.foldl (.refl u) fun _ _ h => h.holdFabric) canon
  rw [← hv] at made
  clear hv
  rw [made]
  obtain ⟨rest, lanes, holds, clkFlags, link⟩ := State.holdLinks_spec canonV ref
  generalize v.holdLinks ref = w at *
  have all : Only [.fab, .flagCnt, .ftx, .strait, .clk, .cxl] u w := Only.then (Only.then (.refl u) part rfl) rest rfl
  have devW := all.frame .dev rfl
  have mpkW := all.frame .mpk rfl
  refine ⟨?_, ?_, link, ?_, ?_, ?_, ?_, ?_, ?_, fun active => ?_, fun r small => ?_, fun i small => ?_, lanes⟩
  · rw [clkFlags, ← flags]
    refine State.clkFlags_of_clk ?_
    rw [part.frame .clk rfl]
  · exact (congrArg Dev.qualified devW).trans dev.1
  · exact (all.frame .mem rfl).trans mem
  · rw [holds, part.frame .clk rfl, hold]
  · exact (congrArg Dev.stage devW).trans dev.2
  · exact (congrArg Dev.held devW).trans stage
  · exact (congrArg MemPkg.hbm mpkW).trans mpk.1
  · exact (congrArg MemPkg.lp mpkW).trans mpk.2
  · exact (congrArg Tick.held (all.frame .tick rfl)).trans (held active)
  · obtain ⟨cells, gsr, -⟩ := fabric r small
    have same : w.fabric r = v.fabric r := State.fabric_of_fab (rest.frame .fab rfl) r
    have region : w.region r = u.region r := by
      unfold State.region
      rw [all.frame .regions rfl]
    rw [same, region]
    exact ⟨cells, gsr, steps r⟩
  · rw [State.tile_congr (all.frame .tiles rfl), arrays i small]

/-! Clock hold ends. -/

/-- Going from one state to the other changes no more of the pair than the pages marked. -/
def State.Marks (s t : State) : Prop := ∃ m, t.pair = { s.pair with marked := m }

theorem State.Marks.of_pair {s t : State} (h : t.pair = s.pair) : s.Marks t := ⟨s.pair.marked, h⟩

theorem State.Marks.trans {s t u : State} (h : s.Marks t) (k : t.Marks u) : s.Marks u := by
  obtain ⟨m, h⟩ := h
  obtain ⟨n, k⟩ := k
  exact ⟨n, by rw [k, h]⟩

theorem State.marks_mark (s : State) (a n : Nat) : s.Marks (s.mark a n) := by
  unfold State.mark
  split
  · exact ⟨_, rfl⟩
  · exact .of_pair rfl

theorem State.marks_hostStore (s : State) (a : Nat) (b : List Byte) : s.Marks (s.hostStore a b) := by
  unfold State.hostStore State.wrMem State.untrack
  split
  · refine State.Marks.trans (t := { s.touch a b.length true with cxl := _ }) (.of_pair (State.touch_pair s a b.length true)) ?_
    exact State.marks_mark _ a b.length
  · exact .of_pair rfl

theorem State.marks_serveAccess (s : State) (h : HeldAccess) : s.Marks (s.serveAccess h) := by
  unfold State.serveAccess
  split
  · exact .of_pair ((Only.hostLoad (l := [.mpk, .ctl, .cxl, .free, .out]) (.refl s) rfl).frame .pair rfl)
  · exact s.marks_hostStore ..
  · exact s.marks_mark ..
  · exact .of_pair ((Only.correctRead (l := [.mpk, .ctl, .free]) (.touch (.refl s) rfl) rfl).frame .pair rfl)

theorem State.marks_serveReady (s : State) : s.Marks s.serveReady := by
  unfold State.serveReady
  suffices all : ∀ (l : List HeldAccess) (u : State), s.Marks u → s.Marks (l.foldl (fun s h =>
      if s.holds h.addr h.len then { s with mpk := { s.mpk with held := s.mpk.held ++ [h] } } else s.serveAccess h) u) by
    exact all _ _ (.of_pair rfl)
  intro l
  induction l with
  | nil => exact fun _ => id
  | cons h l ih =>
    intro u m
    refine ih _ ?_
    dsimp only
    split
    · exact m
    · exact m.trans (u.marks_serveAccess h)

theorem State.hold_gateTier (s : State) (lp on : Bool) : (s.gateTier lp on).clk.hold = s.clk.hold := by
  unfold State.gateTier
  refine inv_foldl (inv := fun t : State => t.clk.hold = s.clk.hold) ?_ _ rfl
  exact fun _ _ h => h

/-- What waking the tiers leaves of the pair and of clock hold (R197, R198). -/
theorem State.wakeTiers_spec (s : State) : s.wakeTiers.pair.formed = s.pair.formed ∧ s.wakeTiers.clk.hold = s.clk.hold ∧
    Only [.mpk, .ctl, .cxl, .pair, .mem, .free, .out, .clk] s s.wakeTiers := by
  obtain ⟨u, hu⟩ : ∃ u, u = (((s.setTier false {}).setTier true {}).gateTier false true).gateTier true true := ⟨_, rfl⟩
  have made : s.wakeTiers = u.serveReady := hu ▸ rfl
  have gated : Only [.mpk, .clk] s u := hu ▸ .gateTier (.gateTier (.setTier (.setTier (.refl s) rfl) rfl) rfl) rfl
  have served : Only [.mpk, .ctl, .cxl, .pair, .mem, .free, .out] u u.serveReady := .serveReady (.refl u) rfl
  have hold : u.clk.hold = s.clk.hold := by
    rw [hu, State.hold_gateTier, State.hold_gateTier]
    rfl
  rw [made]
  obtain ⟨m, pair⟩ := u.marks_serveReady
  refine ⟨?_, ?_, .serveReady (.then (.refl s) gated rfl) rfl⟩
  · rw [pair]
    change u.pair.formed = _
    rw [gated.frame .pair rfl]
  · rw [served.frame .clk rfl, hold]

/-- The operating point of a region and how it stands. -/
def Region.point (x : Region) : Nat × Nat × Nat × Bool := (x.op, x.target, x.step, x.locked)

theorem State.point_changeover {s : State} (hs : s.canon) (r q : Nat) :
    ((s.changeover r).region q).point = (s.region q).point := by
  obtain ⟨u, made, part⟩ : ∃ u, s.changeover r = u.setRegion r (fun x => { x with
      owner := 0, change := u.changeoverTicks, changeovers := x.changeovers + 1 }) ∧
      Only [.tick, .flagCnt, .tiles, .eng, .bufs] s u :=
    ⟨_, rfl, .withEng (.withBufs (.foldl (.dropWork (.refl s) rfl) fun _ _ h => h.putTile rfl) rfl) rfl⟩
  rw [made]
  have same (q : Nat) : u.region q = s.region q := by
    unfold State.region
    rw [part.frame .regions rfl]
  by_cases own : q = r
  · subst own
    have wf : tabWf {} u.regions = true := by
      rw [part.frame .regions rfl]
      exact (s.canon_iff.mp hs).regions
    rw [State.region_setRegion_self _ wf, same]
    rfl
  · rw [State.region_setRegion_ne _ own, same]

theorem State.point_discardSessions {s : State} (hs : s.canon) (q : Nat) :
    (s.discardSessions.region q).point = (s.region q).point := by
  unfold State.discardSessions
  dsimp only
  generalize hu : State.abortLoads _ _ = u
  have part : Only [.mbx, .fcfg, .flagCnt, .loads, .fab, .ftx, .log] s u := hu ▸ .abortLoads (.release (.refl s) rfl) rfl
  have canon : u.canon := hu ▸ State.canon_of_keeps (.abortLoads (.release (.refl s))) hs
  have same : u.region q = s.region q := by
    unfold State.region
    rw [part.frame .regions rfl]
  generalize hv : List.foldl State.changeover u _ = v
  have point : (v.region q).point = (s.region q).point := by
    rw [← hv, ← same]
    exact (inv_foldl (inv := fun t : State => t.canon ∧ (t.region q).point = (u.region q).point)
      (fun t r ⟨canon, point⟩ => ⟨State.canon_of_keeps (.changeover (.refl t)) canon,
        (State.point_changeover canon r q).trans point⟩) _ ⟨canon, rfl⟩).2
  rw [← point]
  generalize hw : List.foldl (fun s n => State.setMb s n _) v _ = w
  have last : Only [.mbx] v w := hw ▸ .foldl (.refl v) fun _ _ h => h.setMb rfl
  change (w.region q).point = (v.region q).point
  unfold State.region
  rw [last.frame .regions rfl]

/-- Leaving pair service moves no operating point, and the part stays in its stage. -/
theorem State.leavePair_keeps {s : State} (hs : s.canon) : (∀ q, (s.leavePair.region q).point = (s.region q).point) ∧
    s.leavePair.dev.stage = s.dev.stage := by
  unfold State.leavePair
  split
  · unfold State.quitPair
    dsimp only
    generalize hu : State.idleStrait _ = u
    have part : Only [.pair, .dev, .out, .strait, .flagCnt] s u :=
      hu ▸ .idleStrait (.acknowledge (.withPairDev (.refl s) rfl) rfl) rfl
    have canon : u.canon := by
      rw [← hu]
      refine State.canon_of_keeps ?_ hs
      exact .idleStrait (Keeps.congr ((Keeps.refl s).congr rfl) rfl)
    have stage : u.dev.stage = s.dev.stage := by
      have rest : Only [.pair, .out, .strait, .flagCnt] { s with dev := { s.dev with hbOn := false, hbLevel := false } } u :=
        hu ▸ .idleStrait (.acknowledge (.withPair (.refl _) rfl) rfl) rfl
      have dev : u.dev = { s.dev with hbOn := false, hbLevel := false } := rest.frame .dev rfl
      rw [dev]
    have last : Only [.mbx, .fcfg, .flagCnt, .loads, .fab, .ftx, .log, .tick, .tiles, .eng, .bufs, .regions, .sess] u
        u.discardSessions := .discardSessions (.refl u) rfl
    refine ⟨fun q => (State.point_discardSessions canon q).trans ?_, (congrArg Dev.stage (last.frame .dev rfl)).trans stage⟩
    unfold State.region
    rw [part.frame .regions rfl]
  · exact ⟨fun _ => rfl, rfl⟩

theorem State.point_restRegions {s : State} (hs : s.canon) {r : Nat} (small : r < 64) :
    (s.restRegions.region r).point = (0, 0, 0, true) := by
  have places := foldl_range_places (step := fun (s : State) r => s.setRegion r Region.rest) (get := State.region)
    (change := fun _ x => x.rest) (inv := fun t => tabWf {} t.regions = true) (fun t i h => tabWf_put _ _ _ _ h)
    (fun t i h => State.region_setRegion_self t h _) (fun t i j _ other => State.region_setRegion_ne t other _)
    (s.canon_iff.mp hs).regions small
  rw [State.restRegions, places]
  rfl

theorem State.hold_muxAsk (s : State) (key src : Nat) : (s.muxAsk key src).clk.hold = s.clk.hold := rfl

/-- A part that leaves clock hold, before the pair is left (R388). -/
def State.resume (s : State) : State :=
  let u := ((({ s with clk := { s.clk with hold := false }, dev := { s.dev with stage := s.dev.held } } : State).restRegions
    ).fixLanes).muxAsk (muxKey 1 0) 1
  if s.dev.held = 3 then u else (u.wakeTiers).restartFabrics

theorem State.resume_spec {s : State} (hs : s.canon) : s.resume.canon ∧ s.resume.clk.hold = false ∧
    s.resume.dev.stage = s.dev.held ∧ (s.dev.held ≠ 3 → s.resume.mpk.hbm = {} ∧ s.resume.mpk.lp = {}) ∧
    (∀ r, r < 64 → (s.resume.region r).point = (0, 0, 0, true)) ∧ s.resume.pair.formed = s.pair.formed := by
  obtain ⟨b, hb⟩ : ∃ b : State, b = { s with clk := { s.clk with hold := false }, dev := { s.dev with stage := s.dev.held } } :=
    ⟨_, rfl⟩
  obtain ⟨u, hu⟩ : ∃ u, u = (b.restRegions.fixLanes).muxAsk (muxKey 1 0) 1 := ⟨_, rfl⟩
  have made : s.resume = if s.dev.held = 3 then u else u.wakeTiers.restartFabrics := by
    rw [hu, hb]
    rfl
  have canonB : b.canon := hb ▸ State.canon_of_keeps ((Keeps.refl s).congr rfl) hs
  have canon : u.canon := hu ▸ State.canon_of_keeps (.muxAsk (.fixLanes (.restRegions (.refl b)))) canonB
  have lanes : Only [.ftx, .clk] b.restRegions u := hu ▸ .muxAsk (.fixLanes (.refl _) rfl) rfl
  have part : Only [.regions, .ftx, .clk] b u := hu ▸ .muxAsk (.fixLanes (.restRegions (.refl b) rfl) rfl) rfl
  have clk : u.clk.hold = false := by
    have same : b.restRegions.fixLanes.clk = b.clk :=
      (Only.fixLanes (l := [.regions, .ftx]) (.restRegions (.refl b) rfl) rfl).frame .clk rfl
    have asked : u.clk.hold = b.restRegions.fixLanes.clk.hold := by
      rw [hu]
      exact State.hold_muxAsk _ _ _
    rw [asked, same, hb]
  have stage : u.dev.stage = s.dev.held := by
    rw [part.frame .dev rfl, hb]
  have pair : u.pair = s.pair := by
    rw [part.frame .pair rfl, hb]
  have points (r : Nat) (small : r < 64) : (u.region r).point = (0, 0, 0, true) := by
    rw [← State.point_restRegions canonB small]
    unfold State.region
    rw [lanes.frame .regions rfl]
  have formedU : u.pair.formed = s.pair.formed := by rw [pair]
  clear hb hu canonB lanes part
  by_cases parked : s.dev.held = 3
  · rw [if_pos parked] at made
    rw [made]
    exact ⟨canon, clk, stage, fun no => absurd parked no, points, formedU⟩
  · rw [if_neg parked] at made
    rw [made]
    obtain ⟨formed, hold, wake⟩ := u.wakeTiers_spec
    obtain ⟨hbm, lp, -⟩ := u.wakeTiers_calm
    have start : Only [.fab] u.wakeTiers u.wakeTiers.restartFabrics := .restartFabrics (.refl _) rfl
    refine ⟨State.canon_of_keeps (.restartFabrics (.wakeTiers (.refl u))) canon, ?_, ?_, fun _ => ⟨?_, ?_⟩, fun r small => ?_, ?_⟩
    · rw [start.frame .clk rfl, hold, clk]
    · rw [start.frame .dev rfl, wake.frame .dev rfl, stage]
    · rw [start.frame .mpk rfl, hbm]
    · rw [start.frame .mpk rfl, lp]
    · rw [← points r small]
      unfold State.region
      rw [start.frame .regions rfl, wake.frame .regions rfl]
    · rw [start.frame .pair rfl, formed, formedU]

/-! Muxes. -/

theorem State.mux_muxEnd {s : State} (hs : s.canon) (key : Nat) :
    look 0 (s.muxEnd key).clk.mux key = look 0 s.clk.muxNext key % 4 - 1 ∧
      look 0 (s.muxEnd key).clk.muxNext key = look 0 s.clk.muxNext key / 4 :=
  ⟨look_put_self 0 _ _ _ (s.canon_iff.mp hs).mux, look_put_self 0 _ _ _ (s.canon_iff.mp hs).muxNext⟩

/-- A tile mux asked for its other source has that as its goal (R386, R391). -/
theorem State.goal_muxAsk {s : State} (hs : s.canon) (key : Nat) :
    (s.muxAsk key (1 - s.muxGoal key)).muxGoal key = 1 - s.muxGoal key := by
  have next (src : Nat) : look 0 (s.muxAsk key src).clk.muxNext key =
      if look 0 s.clk.muxNext key ≠ 0 then look 0 s.clk.muxNext key % 4 + 4 * (src + 1)
      else if look 0 s.clk.mux key = src then 0 else src + 1 := look_put_self 0 _ _ _ (s.canon_iff.mp hs).muxNext
  have mux (src : Nat) : look 0 (s.muxAsk key src).clk.mux key = look 0 s.clk.mux key := rfl
  generalize hg : s.muxGoal key = g
  have goal : g = if look 0 s.clk.muxNext key = 0 then look 0 s.clk.mux key
      else if look 0 s.clk.muxNext key / 4 ≠ 0 then look 0 s.clk.muxNext key / 4 - 1
      else look 0 s.clk.muxNext key % 4 - 1 := hg ▸ rfl
  unfold State.muxGoal
  dsimp only
  rw [next, mux]
  generalize look 0 s.clk.muxNext key = n at goal
  generalize look 0 s.clk.mux key = m at goal
  by_cases idle : n = 0
  · rw [if_pos idle] at goal
    rw [if_neg (fun h => h idle : ¬ n ≠ 0), if_neg (by omega : ¬ m = 1 - g), if_neg (by omega), if_neg (by omega)]
    omega
  · rw [if_pos idle, if_neg (by omega), if_pos (by omega)]
    omega

theorem getLsbD_cores {unit : Nat} (small : unit < 4) (w : BitVec 8) :
    (w ||| BitVec.ofNat 8 (3 * 4 ^ unit)).getLsbD (2 * unit) = true ∧
      (w ||| BitVec.ofNat 8 (3 * 4 ^ unit)).getLsbD (2 * unit + 1) = true := by
  have bits : (BitVec.ofNat 8 (3 * 4 ^ unit)).getLsbD (2 * unit) = true ∧
      (BitVec.ofNat 8 (3 * 4 ^ unit)).getLsbD (2 * unit + 1) = true := by
    revert unit
    decide
  rw [BitVec.getLsbD_or, BitVec.getLsbD_or, bits.1, bits.2, Bool.or_true, Bool.or_true]
  exact ⟨rfl, rfl⟩

/-- A region's tree once its switch has ended (R385, R386). -/
theorem State.tree_muxDone {s : State} (hs : s.canon) (unit : Nat) :
    ((s.muxDone 4 unit).fabric (unit / 8)).tree (unit % 8) = ((s.fabric (unit / 8)).tree (unit % 8)).finish := by
  have own : (s.muxDone 4 unit).fabric (unit / 8) = { s.fabric (unit / 8) with
      trees := modify {} (s.fabric (unit / 8)).trees (unit % 8) Tree.finish } := State.setFab_fabric_self hs _ _
  rw [own]
  obtain ⟨-, trees, -, -⟩ := State.wf_fabric hs (unit / 8)
  exact look_modify_self _ _ trees

/-- The reset of a tree's domain leaves the trees. -/
theorem State.tree_domainReset {s : State} (hs : s.canon) (unit n : Nat) :
    ((s.domainReset 4 unit).fabric (unit / 8)).tree n = ((s.fabric (unit / 8)).tree n) := by
  have made : s.domainReset 4 unit =
      (s.runDesign (unit / 8)).setFab (unit / 8) (fun f => f.treeReset (unit % 8)) := rfl
  rw [made, State.setFab_fabric_self (State.canon_runDesign hs _)]
  exact FabRegion.of_view (fun f => f.tree n) (fun _ => rfl) (State.view_runDesign hs (unit / 8) (unit / 8))

/-! Power. -/

/-- The power flags as hardware sets some: those read 1, and none that was set is lost. -/
theorem State.pwrFlag_raised (s : State) {mask : Word} {bit : Nat} (one : bit = 30 ∨ bit = 29 ∨ bit = 28 ∨ bit = 27)
    (set : mask.getLsbD bit = true ∨ (s.flags .pwrStatus).getLsbD bit = true) :
    ((s.raise .pwrStatus mask).flags .pwrStatus).getLsbD bit = true := by
  obtain ⟨w, hw⟩ : ∃ w, w = s.flags .pwrStatus ||| (mask &&& 0x78000000#32) := ⟨_, rfl⟩
  have after : (s.raise .pwrStatus mask).flags .pwrStatus =
      bitsW [(30, w.getLsbD 30), (29, w.getLsbD 29), (28, w.getLsbD 28), (27, w.getLsbD 27)] := hw ▸ rfl
  have inW : w.getLsbD bit = true := by
    have masked : (0x78000000#32).getLsbD bit = true := by rcases one with rfl | rfl | rfl | rfl <;> decide
    rw [hw, BitVec.getLsbD_or, BitVec.getLsbD_and, masked, Bool.and_true, Bool.or_eq_true]
    exact set.symm
  rw [after, getLsbD_bitsW _ (by omega)]
  rcases one with rfl | rfl | rfl | rfl <;> simp [inW]

theorem State.only_readDies (s : State) (dies : List (Nat × Nat)) : Only [.pwr, .flagCnt] s (s.readDies dies) :=
  .raise (.withPwr (.refl s) rfl) rfl

theorem State.keeps_readDies (s : State) (dies : List (Nat × Nat)) : s.canon → (s.readDies dies).canon :=
  State.canon_of_keeps (.readDies (.refl s))

theorem State.pwr_readDies (s : State) (dies : List (Nat × Nat)) : (s.readDies dies).pwr.envelope = s.pwr.envelope ∧
    (s.readDies dies).pwr.clamp = s.pwr.clamp ∧ (s.readDies dies).pwr.inTrip = s.pwr.inTrip := ⟨rfl, rfl, rfl⟩

theorem State.metering_readDies (s : State) (dies : List (Nat × Nat)) : (s.readDies dies).metering = s.metering := rfl

/-- One sensor read (R394). -/
theorem State.readDies_one (s : State) {d c : Nat} (small : d < 32) :
    (s.readDies [(d, c)]).pwr.tjMax = c ∧ (s.readDies [(d, c)]).pwr.dieHold.getLsbD d =
        (decide (105 ≤ c) || (s.pwr.dieHold.getLsbD d && decide (103 < c))) ∧
      (100 ≤ c → ((s.readDies [(d, c)]).flags .pwrStatus).getLsbD 28 = true) := by
  have one : [(d, c)].filter (fun d => decide (d.1 < 32)) = [(d, c)] := by simp [small]
  refine ⟨?_, ?_, fun hot => ?_⟩
  · change hottest s.pwr.tjMax ([(d, c)].filter (fun d => decide (d.1 < 32))) = c
    rw [one]
    exact Nat.zero_max c
  · change (([(d, c)].filter (fun d => decide (d.1 < 32))).foldl heldDie s.pwr.dieHold).getLsbD d = _
    rw [one]
    change (heldDie s.pwr.dieHold (d, c)).getLsbD d = _
    unfold heldDie
    have own : (bitW d true).getLsbD d = true := by rw [getLsbD_bitW _ _ small]; simp
    dsimp only
    split
    · rename_i high
      rw [BitVec.getLsbD_or, own, decide_eq_true high]
      simp
    · rename_i high
      split
      · rename_i low
        rw [BitVec.getLsbD_and, BitVec.getLsbD_not, own, decide_eq_false high, decide_eq_false (by omega : ¬ 103 < c)]
        simp
      · rename_i low
        rw [decide_eq_false high, decide_eq_true (by omega : 103 < c), Bool.false_or, Bool.and_true]
  · unfold State.readDies
    dsimp only
    rw [one]
    refine State.pwrFlag_raised _ (.inr (.inr (.inl rfl))) (.inl ?_)
    rw [getLsbD_bitsW _ (by decide)]
    simp [hot]

/-- What a measurement of energy leaves (R393). -/
theorem State.meter_spec (s : State) (energy elapsed : Nat) :
    let t := s.meter energy elapsed
    t.pwr.clamp = decide (s.pwr.envelope * elapsed < energy) ∧ t.pwr.energy = energy ∧
      (s.pwr.clamp = false → s.pwr.envelope * elapsed < energy → (t.flags .pwrStatus).getLsbD 30 = true) ∧
      t.pwr.tjMax = s.pwr.tjMax ∧ t.pwr.dieHold = s.pwr.dieHold ∧
      ((s.flags .pwrStatus).getLsbD 28 = true → (t.flags .pwrStatus).getLsbD 28 = true) := by
  intro t
  obtain ⟨u, hu⟩ : ∃ u, u = { s with pwr := { s.pwr with
      energy := energy, elapsed := elapsed, clamp := decide (s.pwr.envelope * elapsed < energy)
      clampTime := if s.pwr.clamp then s.pwr.clampTime + (elapsed - s.pwr.elapsed) else s.pwr.clampTime } } := ⟨_, rfl⟩
  have made : t = if decide (s.pwr.envelope * elapsed < energy) && !s.pwr.clamp then u.raise .pwrStatus 0x40000000 else u := by
    rw [hu]
    rfl
  have clamp : u.pwr.clamp = decide (s.pwr.envelope * elapsed < energy) := by rw [hu]
  have taken : u.pwr.energy = energy ∧ u.pwr.tjMax = s.pwr.tjMax ∧ u.pwr.dieHold = s.pwr.dieHold ∧
      u.flags .pwrStatus = s.flags .pwrStatus := by
    rw [hu]
    exact ⟨rfl, rfl, rfl, rfl⟩
  clear hu
  obtain ⟨energyU, tj, hold, flags⟩ := taken
  clear_value t
  by_cases rises : (decide (s.pwr.envelope * elapsed < energy) && !s.pwr.clamp) = true
  · rw [if_pos rises] at made
    rw [made]
    exact ⟨clamp, energyU, fun _ _ => State.pwrFlag_raised _ (.inl rfl) (.inl (by decide)), tj, hold,
      fun set => State.pwrFlag_raised _ (.inr (.inr (.inl rfl))) (.inr (flags ▸ set))⟩
  · rw [if_neg rises] at made
    rw [made]
    refine ⟨clamp, energyU, fun open_ high => absurd (by simp [open_, high]) rises, tj, hold, fun set => flags ▸ set⟩

/-- A thermal trip (R395, R396). -/
theorem State.tripNow_spec {s : State} (hs : s.canon) :
    let t := s.tripNow
    t.pwr.inTrip = true ∧ t.pwr.clamp = false ∧ (t.flags .pwrStatus).getLsbD 29 = true ∧ t.mem = s.mem ∧
      (s.tick.active = true → t.tick.held = true) ∧ (∀ r, (t.region r).step = 0) ∧
      ∀ i, i < 2304 → (t.tile i).array = [] := by
  intro t
  obtain ⟨-, arrays, held, steps⟩ := State.halt_spec hs
  have halt : Only [.tick, .flagCnt, .tiles, .free, .bufs, .eng, .fcfg, .loads, .fab, .ftx, .mbx, .log, .regions] s s.halt :=
    .halt (.refl s) rfl
  obtain ⟨h, hh⟩ : ∃ h, h = s.halt := ⟨_, rfl⟩
  obtain ⟨u, hu⟩ : ∃ u, u = ({ h with pwr := { h.pwr with inTrip := true, clamp := false } } : State).fixLanes := ⟨_, rfl⟩
  have made : t = u.raise .pwrStatus 0x20000000 := by
    rw [hu, hh]
    rfl
  clear_value t
  rw [← hh] at arrays held steps halt
  clear hh
  have lanes : Only [.ftx] ({ h with pwr := { h.pwr with inTrip := true, clamp := false } } : State) u :=
    hu ▸ .fixLanes (.refl _) rfl
  have part : Only [.pwr, .ftx] h u := hu ▸ .fixLanes (.withPwr (.refl h) rfl) rfl
  have pwr : u.pwr = { h.pwr with inTrip := true, clamp := false } := lanes.frame .pwr rfl
  have all : Only [.pwr, .ftx, .flagCnt] h (u.raise .pwrStatus 0x20000000) := .raise (.then (.refl h) part rfl) rfl
  have trip : (u.raise .pwrStatus 0x20000000).pwr.inTrip = u.pwr.inTrip ∧
      (u.raise .pwrStatus 0x20000000).pwr.clamp = u.pwr.clamp := ⟨rfl, rfl⟩
  rw [made]
  refine ⟨?_, ?_, State.pwrFlag_raised _ (.inr (.inl rfl)) (.inl (by decide)), ?_, fun active => ?_, fun r => ?_, fun i small => ?_⟩
  · rw [trip.1, pwr]
  · rw [trip.2, pwr]
  · exact (all.frame .mem rfl).trans (halt.frame .mem rfl)
  · rw [all.frame .tick rfl]
    exact held active
  · rw [← steps r]
    unfold State.region
    rw [all.frame .regions rfl]
  · rw [State.tile_congr (all.frame .tiles rfl), arrays i small]

/-! Operating points. -/

theorem State.setRegion_congr (s : State) (r : Nat) {f g : Region → Region} (h : f (s.region r) = g (s.region r)) :
    s.setRegion r f = s.setRegion r g := by
  unfold State.region at h
  unfold State.setRegion modify
  rw [h]

/-- What the loss of references leaves (R380, R387). -/
theorem State.loseReference_spec {s : State} (hs : s.canon) (ref : Bool) (flags : Word) :
    let t := s.loseReference ref flags
    t.flags .clkStatus = (s.raise .clkStatus flags).flags .clkStatus ∧ t.dev.qualified = false ∧
      (ref = true → t.cxl.up = false) ∧ t.mem = s.mem ∧
      (s.clk.hold = false → t = (s.raise .clkStatus flags).enterHold ref) := by
  intro t
  obtain ⟨u, hu⟩ : ∃ u, u = s.raise .clkStatus flags := ⟨_, rfl⟩
  have canon : u.canon := hu ▸ State.canon_of_keeps (.raise (.refl s)) hs
  have hold : u.clk.hold = s.clk.hold := by rw [hu]; rfl
  have mem : u.mem = s.mem := by rw [hu]; rfl
  have made : t = if u.clk.hold then (if ref then ({ u with dev := { u.dev with qualified := false } } : State).dropLink
      else { u with dev := { u.dev with qualified := false } }) else u.enterHold ref := by
    rw [hu]
    rfl
  clear_value t
  rw [← hu]
  clear hu
  rw [made]
  cases was : s.clk.hold with
  | true =>
    rw [if_pos (hold.trans was)]
    cases ref with
    | true =>
      rw [if_pos rfl]
      have link : Only [.cxl, .flagCnt] ({ u with dev := { u.dev with qualified := false } } : State)
        ({ u with dev := { u.dev with qualified := false } } : State).dropLink := .dropLink (.refl _) rfl
      refine ⟨?_, ?_, fun _ => (State.dropLink_spec _).1, ?_, nofun⟩
      · refine State.clkFlags_of_clk ?_
        rw [link.frame .clk rfl]
      · rw [link.frame .dev rfl]
      · exact (link.frame .mem rfl).trans mem
    | false => exact ⟨rfl, rfl, nofun, mem, nofun⟩
  | false =>
    rw [if_neg (by rw [hold, was]; decide)]
    obtain ⟨flagsH, qualified, link, memH, -⟩ := State.enterHold_spec canon ref
    exact ⟨flagsH, qualified, link, memH.trans mem, fun _ => rfl⟩

/-- The trees of a PLL that loses its lock (R225). -/
theorem State.fabric_pllLockLoss {s : State} (hs : s.canon) {r k : Nat} (good : s.dev.pwrGood = true) (small : r < 64)
    (two : k < 2) (locked : (s.fabric r).pllLock.getLsbD k = true) :
    Answers (exec (.pllLockLoss r k) s) (fun t =>
      (t.fabric r).pllLock = (s.fabric r).pllLock &&& ~~~ BitVec.ofNat 2 (2 ^ k) ∧
      (∀ n, (t.fabric r).tree n = if fromPll k ((s.fabric r).tree n).goal then
        ((s.fabric r).tree n).ask 15 ((s.fabric r).tree n).div else (s.fabric r).tree n) ∧
      ∀ q, q ≠ r → t.fabric q = s.fabric q) := by
  refine ⟨_, if_pos (by rw [good, locked, decide_eq_true small, decide_eq_true two]; rfl), ?_⟩
  dsimp only
  rw [State.setFab_fabric_self hs]
  refine ⟨rfl, fun n => ?_, fun q other => s.fabric_setFab_ne other _⟩
  obtain ⟨-, trees, -, -⟩ := State.wf_fabric hs r
  refine look_mapTab (f := fun _ (t : Tree) => if fromPll k t.goal then t.ask 15 t.div else t) ?_ trees
  refine if_neg ?_
  unfold fromPll
  rw [decide_eq_true_eq]
  change ¬ (15 / 4 = k)
  omega

theorem getLsbD_clearBit {k : Nat} (two : k < 2) (w : BitVec 2) :
    (w &&& ~~~ BitVec.ofNat 2 (2 ^ k)).getLsbD k = false ∧
      (w &&& ~~~ BitVec.ofNat 2 (2 ^ k)).getLsbD (1 - k) = w.getLsbD (1 - k) := by
  revert k w
  decide

/-- A forced switch of a mux is noted (R385). -/
theorem State.execMuxForcedSwitch_eq {s : State} {domain unit : Nat} (good : s.dev.pwrGood = true)
    (busy : s.muxBusy domain unit = true) : exec (.muxForcedSwitch domain unit) s =
      .next ((({ s.raise .clkStatus 0x40000000 with clk := { (s.raise .clkStatus 0x40000000).clk with
        stuckDomain := domain, stuckUnit := unit } } : State).muxDone domain unit).domainReset domain unit) :=
  if_pos (by rw [good, busy]; rfl)

/-- The state that has a forced switch noted (R385). -/
def State.noteForced (s : State) (domain unit : Nat) : State :=
  { s.raise .clkStatus 0x40000000 with clk := { (s.raise .clkStatus 0x40000000).clk with
    stuckDomain := domain, stuckUnit := unit } }

theorem State.noteForced_spec {s : State} (hs : s.canon) (domain unit : Nat) : (s.noteForced domain unit).canon ∧
    ((s.noteForced domain unit).flags .clkStatus).getLsbD 30 = true ∧
    (s.noteForced domain unit).clk.stuckDomain = domain ∧ (s.noteForced domain unit).clk.stuckUnit = unit ∧
    (s.noteForced domain unit).fab = s.fab ∧ (s.noteForced domain unit).clk.mux = s.clk.mux ∧
    (s.noteForced domain unit).clk.muxNext = s.clk.muxNext ∧ (s.noteForced domain unit).units = s.units :=
  ⟨State.canon_of_keeps (Keeps.congr (.raise (.refl s)) rfl) hs,
    State.flag_raised hs .clkStatus (by decide), rfl, rfl, rfl, rfl, rfl, rfl⟩

theorem State.muxDone_other (s : State) {domain : Nat} (unit : Nat) (other : domain ≠ 4) :
    s.muxDone domain unit = s.muxEnd (muxKey domain unit) := if_neg other

theorem State.clkFlags_muxEnd (s : State) (key : Nat) : (s.muxEnd key).flags .clkStatus = s.flags .clkStatus ∧
    (s.muxEnd key).clk.stuckDomain = s.clk.stuckDomain ∧ (s.muxEnd key).clk.stuckUnit = s.clk.stuckUnit :=
  ⟨State.clkFlags_of_clk rfl, rfl, rfl⟩

/-- The reset of the domain of a core or tile mux leaves the clocks. -/
theorem State.domainReset_spec {s : State} (hs : s.canon) {domain unit : Nat}
    (ofTwo : domain = 1 ∧ unit < 4 ∨ domain = 3 ∧ unit < 64) : (s.domainReset domain unit).clk = s.clk ∧
      (domain = 1 → (s.domainReset domain unit).units.coreFail.getLsbD (2 * unit) = true ∧
        (s.domainReset domain unit).units.coreFail.getLsbD (2 * unit + 1) = true) ∧
      (domain = 3 → ∀ i, i / 36 = unit → ((s.domainReset domain unit).tile i).array = []) := by
  obtain ⟨rfl, small⟩ | ⟨rfl, small⟩ := ofTwo
  · obtain ⟨u, hu⟩ : ∃ u : State, u = { s with units := { s.units with
      coreFail := s.units.coreFail ||| BitVec.ofNat 8 (3 * 4 ^ unit) } } := ⟨_, rfl⟩
    have made : s.domainReset 1 unit = u.leavePair := hu ▸ if_pos rfl
    have left : Only [.pair, .dev, .out, .strait, .mbx, .fcfg, .flagCnt, .loads, .fab, .ftx, .log, .tick, .tiles, .eng, .bufs,
      .regions, .sess] u u.leavePair := .leavePair (.refl u) rfl
    rw [made]
    refine ⟨?_, fun _ => ?_, fun no => absurd no (by decide)⟩
    · rw [left.frame .clk rfl, hu]
    · rw [left.frame .units rfl, hu]
      exact getLsbD_cores small _
  · have made : s.domainReset 3 unit = s.stopRegion unit := (if_neg (by decide)).trans (if_pos rfl)
    rw [made]
    refine ⟨?_, fun no => absurd no (by decide), fun _ i own => State.array_stopRegion hs (.inl own)⟩
    exact (Only.stopRegion (l := [.tick, .flagCnt, .tiles, .free, .bufs, .eng]) (.refl s) rfl).frame .clk rfl

theorem Tree.finish_of_switching {x : Tree} {sel div : Nat} (h : x.switching = some (sel, div)) : x.finish =
    { x with sel := sel, div := div, switching := x.queued, queued := none, switches := x.switches + 1 } := by
  unfold Tree.finish
  rw [h]

theorem Region.fields_of_point {x : Region} (h : x.point = (0, 0, 0, true)) :
    x.op = 0 ∧ x.target = 0 ∧ x.step = 0 ∧ x.locked = true := by
  unfold Region.point at h
  simp only [Prod.mk.injEq] at h
  exact h

theorem State.muxBusy_of {s : State} {domain unit : Nat} (ofTwo : domain = 1 ∧ unit < 4 ∨ domain = 3 ∧ unit < 64)
    (busy : look 0 s.clk.muxNext (muxKey domain unit) ≠ 0) : s.muxBusy domain unit = true := by
  unfold State.muxBusy
  rw [if_neg (by omega), bne_iff_ne.mpr busy]
  obtain ⟨rfl, small⟩ | ⟨rfl, small⟩ := ofTwo <;> simp [small]

/-- Settles O52: each event by its parts, through what an emergency of package scope stops. -/
theorem clocksAndPower : Obligations.ClocksAndPower := by
  unfold Obligations.ClocksAndPower
  refine ⟨fun s xtal ref hs watching one => ?lost, fun s hs hold qualified => ?resume, fun s ok late ppm good on => ?window,
    fun s r k hs good small two locked => ?unlock, fun s r k hs may => ?lock,
    fun s unit sel div hs good small busy => ⟨?done, ?forced⟩,
    fun s domain unit hs good ofTwo busy => ⟨?ended, ?stuck⟩, fun s die temp hs good hot out => ?trip,
    fun s hs trip => ?release, fun s p good => ?sample, fun s r good small hold trip => ⟨fun prepares => ?ready,
      fun waits unlocked => ?relock⟩, fun s r hs run small ready clamped between => ?step⟩
  case lost =>
    refine ⟨_, if_pos (by rw [watching, one]; rfl), ?_⟩
    have lost {b : Bool} : (bitsW [(29, true), (28, b)] &&& Reg.clkStatus.flagMask).getLsbD 29 = true ∧
        (bitsW [(29, b), (28, true)] &&& Reg.clkStatus.flagMask).getLsbD 28 = true := by
      revert b
      decide
    obtain ⟨flags, qualified, link, mem, enters⟩ := State.loseReference_spec hs ref (bitsW [(29, xtal), (28, ref)])
    have canon : (s.raise .clkStatus (bitsW [(29, xtal), (28, ref)])).canon := State.canon_of_keeps (.raise (.refl s)) hs
    refine ⟨fun set => ?_, fun set => ?_, qualified, link, mem, fun fresh => ?_⟩
    · rw [flags]
      refine State.flag_raised hs .clkStatus ?_
      rw [set]
      exact lost (b := ref) |>.1
    · rw [flags]
      refine State.flag_raised hs .clkStatus ?_
      rw [set]
      exact lost (b := xtal) |>.2
    · obtain ⟨-, -, -, -, hold, stage, held, hbm, lp, tick, regions, arrays, lanes⟩ := State.enterHold_spec canon ref
      rw [enters fresh]
      exact ⟨hold, stage, held, hbm, lp, tick, regions, arrays, lanes⟩
  case resume =>
    have answer : exec .clockHoldExit s = .next s.resume.leavePair := if_pos (by rw [hold, qualified]; rfl)
    obtain ⟨canon, off, stage, tiers, points, formed⟩ := State.resume_spec hs
    obtain ⟨kept, stays⟩ := State.leavePair_keeps canon
    obtain ⟨-, left, -⟩ := s.resume.leavePair_spec
    have leave : Only [.pair, .dev, .out, .strait, .mbx, .fcfg, .flagCnt, .loads, .fab, .ftx, .log, .tick, .tiles, .eng, .bufs,
      .regions, .sess] s.resume s.resume.leavePair := .leavePair (.refl _) rfl
    refine ⟨_, answer, ?_, stays.trans stage, fun parked => ?_, fun r small => ?_, fun pair => left (formed.trans pair)⟩
    · rw [leave.frame .clk rfl, off]
    · rw [leave.frame .mpk rfl]
      exact tiers parked
    · exact Region.fields_of_point ((kept r).trans (points r small))
  case window =>
    refine (if_pos ?_).trans rfl
    rw [good]
    exact bne_iff_ne.mpr on
  case unlock =>
    obtain ⟨t, ran, lock, trees, others⟩ := State.fabric_pllLockLoss hs good small two locked
    obtain ⟨clear, stays⟩ := getLsbD_clearBit two (s.fabric r).pllLock
    refine ⟨t, ran, ?_, ?_, fun n still none_ => ?_, others⟩
    · rw [lock, clear]
    · rw [lock, stays]
    · have goal : ((s.fabric r).tree n).goal = ((s.fabric r).tree n).sel := by
        unfold Tree.goal
        rw [still, none_]
      have ask : ((s.fabric r).tree n).ask 15 ((s.fabric r).tree n).div =
          { (s.fabric r).tree n with switching := some (15, ((s.fabric r).tree n).div) } := by
        unfold Tree.ask
        rw [still]
        rfl
      rw [trees, goal, ask]
      unfold fromPll
      simp only [decide_eq_true_eq]
  case lock =>
    exact ⟨_, if_pos may, State.setFab_fabric_self hs r _, fun q other => s.fabric_setFab_ne other _⟩
  case done =>
    have works : s.muxBusy 4 unit = true := by
      unfold State.muxBusy
      rw [if_pos rfl, busy, decide_eq_true small]
      rfl
    refine ⟨_, if_pos (by rw [good, works]; rfl), ?_⟩
    dsimp only
    rw [State.tree_muxDone hs, Tree.finish_of_switching busy]
  case forced =>
    have works : s.muxBusy 4 unit = true := by
      unfold State.muxBusy
      rw [if_pos rfl, busy, decide_eq_true small]
      rfl
    obtain ⟨canon, flag, domain, unitIs, fab, -⟩ := State.noteForced_spec hs 4 unit
    have answer : exec (.muxForcedSwitch 4 unit) s = .next (((s.noteForced 4 unit).muxDone 4 unit).domainReset 4 unit) :=
      State.execMuxForcedSwitch_eq good works
    have canonD := State.canon_of_keeps (.muxDone (domain := 4) (unit := unit) (.refl (s.noteForced 4 unit))) canon
    have clk : (((s.noteForced 4 unit).muxDone 4 unit).domainReset 4 unit).clk = (s.noteForced 4 unit).clk :=
      (Only.setFab (l := [.fab]) (.runDesign (.setFab (.refl _) rfl) rfl) rfl).frame .clk rfl
    refine ⟨_, answer, ?_, ?_, ?_, ?_⟩
    · rw [State.tree_domainReset canonD, State.tree_muxDone canon, State.fabric_of_fab fab, Tree.finish_of_switching busy]
    · rw [State.clkFlags_of_clk (s := s.noteForced 4 unit) (by rw [clk]), flag]
    · rw [clk, domain]
    · rw [clk, unitIs]
  case ended =>
    have works : s.muxBusy domain unit = true := State.muxBusy_of ofTwo busy
    refine ⟨_, if_pos (by rw [good, works]; rfl), ?_⟩
    dsimp only
    rw [State.muxDone_other s unit (by omega)]
    exact State.mux_muxEnd hs _
  case stuck =>
    have works : s.muxBusy domain unit = true := State.muxBusy_of ofTwo busy
    obtain ⟨canon, flag, domainIs, unitIs, -, mux, next, -⟩ := State.noteForced_spec hs domain unit
    have answer : exec (.muxForcedSwitch domain unit) s =
        .next (((s.noteForced domain unit).muxDone domain unit).domainReset domain unit) :=
      State.execMuxForcedSwitch_eq good works
    rw [State.muxDone_other _ unit (by omega : domain ≠ 4)] at answer
    have ended := State.mux_muxEnd canon (muxKey domain unit)
    obtain ⟨flags, stuckDomain, stuckUnit⟩ := State.clkFlags_muxEnd (s.noteForced domain unit) (muxKey domain unit)
    rw [next] at ended
    have canonD := State.canon_of_keeps (.muxEnd (key := muxKey domain unit) (.refl (s.noteForced domain unit))) canon
    obtain ⟨u, hu⟩ : ∃ u, u = (s.noteForced domain unit).muxEnd (muxKey domain unit) := ⟨_, rfl⟩
    rw [← hu] at answer ended flags stuckDomain stuckUnit canonD
    obtain ⟨clk, cores, arrays⟩ := State.domainReset_spec canonD ofTwo
    refine ⟨_, answer, ?_, ?_, ?_, ?_, ?_, cores, arrays⟩
    · rw [clk, ended.1]
    · rw [clk, ended.2]
    · rw [State.clkFlags_of_clk (s := u) (by rw [clk]), flags, flag]
    · rw [clk, stuckDomain, domainIs]
    · rw [clk, stuckUnit, unitIs]
  case trip =>
    refine ⟨_, if_pos (by rw [good, out, decide_eq_true hot]; rfl), ?_⟩
    obtain ⟨inTrip, clamp, flag, mem, held, steps, arrays⟩ := State.tripNow_spec (s.keeps_readDies [(die, temp)] hs)
    have read := s.only_readDies [(die, temp)]
    refine ⟨inTrip, clamp, flag, mem.trans (read.frame .mem rfl), fun active => held ?_, steps, arrays⟩
    rw [read.frame .tick rfl]
    exact active
  case release =>
    obtain ⟨u, hu⟩ : ∃ u : State, u = { s with pwr := { s.pwr with inTrip := false, dieHold := 0 } } := ⟨_, rfl⟩
    have canon : u.canon := hu ▸ State.canon_of_keeps ((Keeps.refl s).congr rfl) hs
    have answer : exec .thermalTripRelease s = .next u.restRegions.fixLanes := hu ▸ if_pos trip
    have part : Only [.regions, .ftx] u u.restRegions.fixLanes := .fixLanes (.restRegions (.refl u) rfl) rfl
    have lanes : Only [.ftx] u.restRegions u.restRegions.fixLanes := .fixLanes (.refl _) rfl
    refine ⟨_, answer, ?_, ?_, ?_, fun r small => ?_⟩
    · rw [part.frame .pwr rfl, hu]
    · rw [part.frame .pwr rfl, hu]
    · rw [part.frame .tiles rfl, hu]
    · have same : u.restRegions.fixLanes.region r = u.restRegions.region r := by
        unfold State.region
        rw [lanes.frame .regions rfl]
      obtain ⟨op, -, step, locked⟩ := Region.fields_of_point (State.point_restRegions canon small)
      rw [same]
      exact ⟨op, step, locked⟩
  case sample =>
    have answer : exec (.powerSample p) s = if (s.readDies p.dies).metering then
        .next ((s.readDies p.dies).meter p.energy p.elapsed) else .next (s.readDies p.dies) := if_pos good
    rw [State.metering_readDies] at answer
    obtain ⟨envelope, clampWas, -⟩ := s.pwr_readDies p.dies
    obtain ⟨clamp, energy, over_, tj, hold, hot⟩ := (s.readDies p.dies).meter_spec p.energy p.elapsed
    rw [envelope, clampWas] at over_
    rw [envelope] at clamp
    by_cases meters : s.metering = true
    · rw [if_pos meters] at answer
      refine ⟨_, answer, fun _ => ⟨clamp, energy, over_⟩, fun d c one small => ?_⟩
      rw [one] at tj hold hot ⊢
      obtain ⟨tjIs, holdIs, hotIs⟩ := s.readDies_one (d := d) (c := c) small
      exact ⟨tj.trans tjIs, (congrArg (fun w => w.getLsbD d) hold).trans holdIs, fun high => hot (hotIs high)⟩
    · rw [if_neg meters] at answer
      refine ⟨_, answer, fun yes => absurd yes meters, fun d c one small => ?_⟩
      rw [one]
      exact s.readDies_one small
  case ready =>
    refine (if_pos (by rw [good, hold, trip, prepares, decide_eq_true small]; rfl)).trans ?_
    refine congrArg Host.Outcome.next (s.setRegion_congr r ?_)
    exact if_pos prepares
  case relock =>
    refine (if_pos (by rw [good, hold, trip, unlocked, decide_eq_true small]; simp)).trans ?_
    refine congrArg Host.Outcome.next (s.setRegion_congr r ?_)
    exact if_neg waits
  case step =>
    have answer : exec (.stepApply r) s = .next (s.applyStep r) :=
      if_pos (by rw [run, ready, clamped, between, decide_eq_true small]; rfl)
    obtain ⟨u, hu⟩ : ∃ u, u = if (s.region r).target = (s.region r).op then s
      else s.muxAsk (muxKey 3 r) (1 - s.muxGoal (muxKey 3 r)) := ⟨_, rfl⟩
    have made : s.applyStep r = u.setRegion r Region.stepped := hu ▸ rfl
    have regions : u.regions = s.regions := by
      rw [hu]
      split <;> rfl
    have region (q : Nat) : u.region q = s.region q := by
      unfold State.region
      rw [regions]
    have wf : tabWf {} u.regions = true := by
      rw [regions]
      exact (s.canon_iff.mp hs).regions
    have own : (u.setRegion r Region.stepped).region r = (s.region r).stepped := by
      rw [State.region_setRegion_self _ wf, region]
    rw [made] at answer
    have moved : (s.region r).stepped = if (s.region r).target < (s.region r).op then
          { s.region r with op := (s.region r).op - 1, step := 0, locked := false, steps := (s.region r).steps + 1 }
        else if (s.region r).op < (s.region r).target then
          { s.region r with op := (s.region r).op + 1, step := 0, locked := true, steps := (s.region r).steps + 1 }
        else { s.region r with step := 0 } := if_pos ready
    refine ⟨_, answer, fun q other => ?_, ?_, fun less => ?_, fun more => ?_, fun ne => ?_⟩
    · rw [State.region_setRegion_ne _ other, region]
    · rw [own, moved]
      (repeat' split) <;> rfl
    · rw [own, moved, if_pos less]
      exact ⟨rfl, rfl⟩
    · rw [own, moved, if_neg (by omega), if_pos more]
      exact ⟨rfl, rfl⟩
    · have asked : (u.setRegion r Region.stepped).muxGoal (muxKey 3 r) = u.muxGoal (muxKey 3 r) := rfl
      rw [asked, hu, if_neg (Ne.symm ne)]
      exact State.goal_muxAsk hs _

end Sys2Proof.Machine
end

section
/-! PROOFS. Pairs (O56). -/

namespace Sys2Proof.Machine

/-! What a survivor's other work leaves of the pair and of the Strait lanes (R340). -/

/-- What two parts have to do with one another: the Strait lanes, whether they are formed, their roles and the pair's
flags. -/
def State.bond (s : State) : StraitLink × Bool × Nat × Nat × Word :=
  (s.strait, s.pair.formed, s.pair.role, s.pair.lostRole, s.flags .pairState)

/-- The bond of two states is the same. -/
def Steady (s t : State) : Prop := t.bond = s.bond

section
variable {s t u : State}

theorem Steady.refl (s : State) : Steady s s := rfl

theorem Steady.bonded (h : Steady s t) (same : u.bond = t.bond) : Steady s u := same.trans h

theorem Steady.only {l : List Piece} (h : Steady s t) (o : Only l t u)
    (free : (l.contains .pair || l.contains .strait) = false) : Steady s u := by
  rw [Bool.or_eq_false_iff] at free
  have p : u.pair = t.pair := o.frame .pair free.1
  have q : u.strait = t.strait := o.frame .strait free.2
  refine h.bonded ?_
  simp only [State.bond, State.flags, p, q]

theorem Steady.ite {c : Prop} [Decidable c] {a b : State} (ha : Steady s a) (hb : Steady s b) :
    Steady s (if c then a else b) := by
  split
  · exact ha
  · exact hb

theorem Steady.ite2 {α : Type} {c : Prop} [Decidable c] {a b : α × State} (ha : Steady s a.2) (hb : Steady s b.2) :
    Steady s (if c then a else b).2 := by
  split
  · exact ha
  · exact hb

theorem Steady.foldl {α : Type} {f : State → α → State} {xs : List α} (h : Steady s t)
    (hf : ∀ u x, Steady s u → Steady s (f u x)) : Steady s (xs.foldl f t) := by
  induction xs generalizing t with
  | nil => exact h
  | cons x xs ih => exact ih (hf t x h)

theorem Steady.setSess {id : Nat} {f : Sess → Sess} (h : Steady s t) : Steady s (t.setSess id f) := h.bonded rfl

theorem Steady.setMb {n : Nat} {f : Mailbox → Mailbox} (h : Steady s t) : Steady s (t.setMb n f) := h.bonded rfl

theorem Steady.finishBusy {n : Nat} {o : Outcome} (h : Steady s t) : Steady s (t.finishBusy n o) := h.setMb

theorem Steady.setEvent {n bit : Nat} (h : Steady s t) : Steady s (t.setEvent n bit) :=
  h.only (l := [.mbx, .flagCnt, .out]) (.setEvent (.refl t) rfl) rfl

theorem Steady.mark {a n : Nat} (h : Steady s t) : Steady s (t.mark a n) := by
  unfold State.mark
  exact .ite (h.bonded rfl) h

theorem Steady.touch {a n : Nat} {w : Bool} (h : Steady s t) : Steady s (t.touch a n w) :=
  h.only (l := [.mpk, .ctl]) (.touch (.refl t) rfl) rfl

theorem Steady.hostStore {a : Nat} {b : List Byte} (h : Steady s t) : Steady s (t.hostStore a b) := by
  unfold State.hostStore State.wrMem
  have stored : Steady s (((t.touch a b.length true).untrack a b.length).mark a b.length) :=
    .mark (h.touch.bonded rfl)
  exact .ite (stored.bonded rfl) h

theorem Steady.startExit {a : Nat} (h : Steady s t) : Steady s (t.startExit a) := by
  unfold State.startExit
  exact .ite h (h.only (l := [.mpk]) (.setTier (.refl t) rfl) rfl)

theorem Steady.holdAccess {x : HeldAccess} (h : Steady s t) : Steady s (t.holdAccess x) := by
  unfold State.holdAccess
  exact .ite (.startExit (h.bonded rfl)) (h.bonded rfl)

theorem Steady.devStore {a : Nat} {b : List Byte} {mb : Option Nat} (h : Steady s t) : Steady s (t.devStore a b mb) := by
  unfold State.devStore
  exact .ite h.holdAccess h.hostStore

theorem Steady.devZero {a n : Nat} {mb : Option Nat} (h : Steady s t) : Steady s (t.devZero a n mb) := by
  unfold State.devZero State.zeroMem
  have marked : Steady s (t.mark a n) := h.mark
  exact .ite h.holdAccess (marked.bonded rfl)

theorem Steady.putRecord {x : Sess} {rec : Record} (h : Steady s t) : Steady s (t.putRecord x rec) := by
  unfold State.putRecord
  dsimp only
  exact .foldl (.setSess (.ite h.devStore (h.bonded rfl))) fun _ _ h => h.setEvent

theorem Steady.dropWritten {id : Nat} (h : Steady s t) : Steady s (t.dropWritten id) := by
  unfold State.dropWritten
  dsimp only
  split
  · exact h
  · exact .setSess (h.bonded rfl)

theorem Steady.postRecord {id : Nat} {own : Bool} {rec : Record} (h : Steady s t) : Steady s (t.postRecord id own rec) := by
  unfold State.postRecord
  dsimp only
  split
  · exact h
  · have freed : Steady s (if own then t.setSess id (fun x => { x with ring := { x.ring with reserved := false } }) else t) :=
      .ite h.setSess h
    exact .ite (.dropWritten (freed.bonded rfl)) (.ite freed.putRecord freed.setSess)

theorem Steady.endReplay {n id : Nat} {o : Outcome} (h : Steady s t) : Steady s (t.endReplay n id o) := by
  unfold State.endReplay
  split
  · exact .ite h.finishBusy h
  · exact h

theorem Steady.removeQueued {id : Nat} {hit : QItem → Bool} {code : Nat} (h : Steady s t) :
    Steady s (t.removeQueued id hit code).2 := by
  unfold State.removeQueued
  split
  · exact h
  · exact .foldl h.setSess fun _ _ h => by
      split
      · exact h.postRecord
      · exact h.endReplay

theorem Steady.abortLoads {hit : Load → Bool} (h : Steady s t) : Steady s (t.abortLoads hit) :=
  h.only (l := [.fcfg, .flagCnt, .loads, .fab, .ftx, .mbx, .log]) (.abortLoads (.refl t) rfl) rfl

theorem Steady.stopStep {id code : Nat} (h : Steady s t) : Steady s (t.stopStep id code) :=
  h.only (l := [.sess]) (.stopStep (.refl t) rfl) rfl

theorem Steady.beginClose {id : Nat} {own : Option Nat} (h : Steady s t) : Steady s (t.beginClose id own).2 := by
  unfold State.beginClose
  split
  · exact h
  · exact .setSess (.abortLoads (.foldl h.removeQueued.stopStep fun _ _ h => by
      refine .ite h ?_
      split
      · refine .ite h ?_
        split
        · exact h
        · exact h.finishBusy
      · exact h))

/-! The ordered commands (R329). -/

theorem Steady.coreOpen {g : Go} (h : Steady s t) : Steady s (coreOpen g t).2 := by
  have attached : Steady s (coreAttach g t).2 := by
    unfold coreAttach
    dsimp only
    split
    · exact h
    · exact .ite2 h h.setSess.setMb
  unfold Machine.coreOpen
  dsimp only
  refine .ite2 attached (.ite2 h (.ite2 h ?_))
  split
  · exact h
  · have counted (c : Nat) : Steady s { t with dev := { t.dev with openCount := c } } := h.bonded rfl
    have zeroed (b : Bool) (c a n : Nat) (mb : Option Nat) : Steady s
        (if b = true then State.devZero { t with dev := { t.dev with openCount := c } } a n mb
          else { t with dev := { t.dev with openCount := c } }) := .ite (counted c).devZero (counted c)
    exact .setMb ((zeroed _ _ _ _ _).bonded rfl)

theorem Steady.coreClose {g : Go} (h : Steady s t) : Steady s (coreClose g t).2 := h.beginClose

theorem Steady.coreLimits {g : Go} (h : Steady s t) : Steady s (coreLimits g t).2 := by
  unfold Machine.coreLimits
  dsimp only
  split
  · exact h
  · exact .ite2 h (.ite2 h (.ite2 h h.setSess))

theorem Steady.coreAlloc {g : Go} (h : Steady s t) : Steady s (coreAlloc g t).2 := by
  unfold Machine.coreAlloc
  dsimp only
  split
  · exact h
  · refine .ite2 h (.ite2 h (.ite2 h (.ite2 h ?_)))
    split
    · exact h
    · exact h.devZero.setSess

theorem Steady.coreFree {g : Go} (h : Steady s t) : Steady s (coreFree g t).2 := by
  unfold Machine.coreFree
  dsimp only
  split
  · exact h
  · split
    · exact h
    · exact .ite2 h h.setSess

theorem Steady.coreLoad {g : Go} (h : Steady s t) : Steady s (coreLoad g t).2 := by
  have zeroed (i : Image) (p : Tab Nat) : Steady s (t.zeroPlaced i p g.mb) := by
    unfold State.zeroPlaced
    exact h.foldl fun _ _ h => h.devZero
  unfold Machine.coreLoad
  dsimp only
  split
  · exact h
  · refine .ite2 h ?_
    split
    · exact .ite (h.only (l := [.flagCnt, .sec]) (.raise (.refl t) rfl) rfl) h
    · split
      · exact h
      · exact h
      · refine .ite2 h (.setSess ?_)
        exact (zeroed _ _).bonded rfl

theorem Steady.coreUnload {g : Go} (h : Steady s t) : Steady s (coreUnload g t).2 := by
  unfold Machine.coreUnload
  dsimp only
  split
  · exact h
  · split
    · exact h
    · exact .ite2 h h.setSess

theorem Steady.coreBind {g : Go} (h : Steady s t) : Steady s (coreBind g t).2 := by
  unfold Machine.coreBind
  dsimp only
  split
  · exact h
  · split
    · exact h
    · exact .ite2 h (.ite2 h h.setSess)

theorem Steady.coreSubmit {g : Go} (h : Steady s t) : Steady s (coreSubmit g t).2 := by
  unfold Machine.coreSubmit
  dsimp only
  split
  · exact h
  · refine .ite2 h ?_
    split
    · exact h
    · split
      · exact h
      · exact .ite2 h h.setSess

theorem Steady.coreCancel {g : Go} (h : Steady s t) : Steady s (coreCancel g t).2 := by
  unfold Machine.coreCancel
  dsimp only
  split
  · exact h
  · exact .ite2 h.removeQueued.setSess h.removeQueued

theorem Steady.coreFabric {full : Bool} {g : Go} (h : Steady s t) : Steady s (coreFabric full g t).2 := by
  unfold Machine.coreFabric
  dsimp only
  split
  · exact h.only (l := [.flagCnt, .fcfg]) (.raise (.refl t) rfl) rfl
  · exact h.bonded rfl

theorem Steady.coreReplay {g : Go} (h : Steady s t) : Steady s (coreReplay g t).2 := by
  unfold Machine.coreReplay
  dsimp only
  split
  · exact h
  · split
    · exact h
    · exact .ite2 h (.ite2 h (.ite2 h (.ite2 h (.ite2 h h.setSess))))

theorem Steady.coreOf {opcode : Nat} {g : Go} (h : Steady s t) : Steady s (coreOf opcode g t).2 := by
  unfold Machine.coreOf
  exact .ite2 h.coreOpen (.ite2 h.coreClose (.ite2 h.coreLimits (.ite2 h.coreAlloc (.ite2 h.coreFree (.ite2
    h.coreLoad (.ite2 h.coreUnload (.ite2 h.coreBind (.ite2 h.coreSubmit (.ite2 h.coreCancel (.ite2 h.coreFabric
    (.ite2 h.coreFabric (.ite2 h.coreReplay h))))))))))))

theorem Steady.keepOutcome {b : BusyCmd} {o : Outcome} (h : Steady s t) : Steady s (t.keepOutcome b o) := by
  unfold State.keepOutcome
  exact .ite (h.bonded rfl) h

theorem Steady.postResult {opcode : Nat} {g : Go} {o : Outcome} (h : Steady s t) : Steady s (t.postResult opcode g o) := by
  have placed : Steady s (t.placeOutput g o).2 := by
    unfold State.placeOutput State.putOutput
    exact .ite2 h (.ite2 h (.ite h.setMb (.ite h.devStore (h.bonded rfl))))
  unfold State.postResult State.postPlaced
  exact .ite placed.setMb placed.setMb.setEvent

theorem Steady.applyOrdered {b : BusyCmd} (h : Steady s t) : Steady s (t.applyOrdered b) := by
  have core : Steady s (Machine.coreOf b.opcode b.go t).2 := h.coreOf
  unfold State.applyOrdered
  dsimp only
  split
  · exact core.keepOutcome.finishBusy
  · exact core.keepOutcome.setMb

/-! What a survivor does besides (R340, R350). -/

theorem Steady.orderRest (h : Steady s t) : Steady s t.orderRest := by
  unfold State.orderRest
  exact .foldl (h.bonded rfl) fun _ _ h => by
    split
    · exact .ite h.finishBusy h.applyOrdered
    · exact h

theorem Steady.rewriteHealth (h : Steady s t) : Steady s t.rewriteHealth := by
  unfold State.rewriteHealth
  dsimp only
  exact .ite (h.bonded rfl) (.setEvent (h.bonded rfl))

theorem Steady.takeSession {c : SessCopy} (h : Steady s t) : Steady s (t.takeSession c) := by
  unfold State.takeSession State.takeClaim
  exact .ite h (.foldl (.foldl (h.bonded rfl) fun _ _ h => h.bonded rfl) fun _ _ h => .ite h h.setMb)

theorem Steady.restore (h : Steady s t) : Steady s t.restore := by
  unfold State.restore
  exact .foldl (h.bonded rfl) fun _ _ h => h.takeSession

theorem Steady.flushSuppressed (h : Steady s t) : Steady s t.flushSuppressed := by
  unfold State.flushSuppressed
  exact .foldl (h.bonded rfl) fun _ _ h => .foldl h fun _ _ h => h.postRecord

theorem Steady.release {p : WaitFor → Bool} {f : Outcome → Outcome} (h : Steady s t) : Steady s (t.release p f) :=
  h.only (l := [.mbx]) (.release (.refl t) rfl) rfl

theorem Steady.forward {i : Input} (h : Steady s t) : Steady s (t.forward i) := by
  unfold State.forward
  exact .ite (h.bonded rfl) h

theorem Steady.settle (h : Steady s t) : Steady s t.settle := by
  have advanced : Steady s ((t.runs.filter (fun p => p.2.begun)).foldl (fun s p => s.advance p.1 p.2) t) :=
    h.foldl fun u _ h => h.only (l := [.free, .bufs, .log, .sess, .mbx]) (.advance (.refl u) rfl) rfl
  unfold State.settle State.decideLoads
  dsimp only
  exact .ite (.foldl (advanced.bonded rfl) fun _ _ h => .ite (.forward (h.bonded rfl)) h) (advanced.bonded rfl)

end

/-! A survivor carries on (R340). -/

/-- The pair's inputs taken as acknowledged, the Strait lanes idle: the first thing that a part does as its pair ends. -/
def State.hungUp (s : State) : State := (s.acknowledge s.pair.seq).idleStrait

theorem State.pair_hungUp (s : State) : s.hungUp.pair = (s.acknowledge s.pair.seq).pair := by
  have idle : Only [.strait, .flagCnt] (s.acknowledge s.pair.seq) s.hungUp := .idleStrait (.refl _) rfl
  exact idle.frame .pair rfl

theorem State.bond_setRole (s : State) (role : Nat) :
    (s.setRole role).bond = (s.strait, s.pair.formed, role, s.pair.lostRole, s.flags .pairState) := by
  obtain ⟨u, hu⟩ : ∃ u, u = { s with pair := { s.pair with role := role } } := ⟨_, rfl⟩
  have told : Steady u (u.fixLanes.notifyAll 8) := Steady.only (.refl u) (l := [.ftx, .sess, .mbx, .flagCnt, .out])
    (.notifyAll (.fixLanes (.refl u) rfl) rfl) rfl
  have named : s.setRole role = u.fixLanes.notifyAll 8 := by rw [hu]; rfl
  rw [named, told, hu]
  rfl

theorem State.pair_setRole (s : State) (role : Nat) : (s.setRole role).pair = { s.pair with role := role } := by
  obtain ⟨u, hu⟩ : ∃ u, u = { s with pair := { s.pair with role := role } } := ⟨_, rfl⟩
  have told : Only [.ftx, .sess, .mbx, .flagCnt, .out] u (u.fixLanes.notifyAll 8) :=
    .notifyAll (.fixLanes (.refl u) rfl) rfl
  have named : s.setRole role = u.fixLanes.notifyAll 8 := by rw [hu]; rfl
  have same : (u.fixLanes.notifyAll 8).pair = u.pair := told.frame .pair rfl
  rw [named, same, hu]

theorem State.bond_endPair (s : State) :
    s.endPair.bond = (s.hungUp.strait, false, s.pair.role, s.pair.lostRole, s.flags .pairState) := by
  obtain ⟨u, hu⟩ : ∃ u, u = { s.hungUp with pair := s.hungUp.pair.alone } := ⟨_, rfl⟩
  obtain ⟨v, hv⟩ : ∃ v, v = (u.release (fun w => w == .pairRejoin)
    (fun o => { o with code := 0xD, fields := [(0x120, leBytes 8 u.pair.bytesSent)] })).release
    (fun w => w == .pairPromote) (fun o => { o with code := 0xD }) := ⟨_, rfl⟩
  have named : s.endPair = if v.tick.closed && !v.tick.settled then v.settle else v := by rw [hv, hu]; rfl
  have answered : Steady u v := by rw [hv]; exact (Steady.refl u).release.release
  have ended : Steady u s.endPair := by rw [named]; exact .ite answered.settle answered
  rw [ended, hu]
  simp only [State.bond, State.flags, State.pair_hungUp]
  rfl

theorem State.bond_setRole_of {s : State} {a : StraitLink} {b : Bool} {c d : Nat} {e : Word} (h : s.bond = (a, b, c, d, e))
    (role : Nat) : (s.setRole role).bond = (a, b, role, d, e) := by
  injection h with strait h
  injection h with formed h
  injection h with _ h
  injection h with lost flags
  rw [State.bond_setRole, strait, formed, lost, flags]

theorem State.bond_promoteSelf_of {s : State} {a : StraitLink} {b : Bool} {c d : Nat} {e : Word}
    (h : s.bond = (a, b, c, d, e)) : s.promoteSelf.bond = (a, b, 1, d, e) := by
  have ordered : s.orderRest.bond = (a, b, c, d, e) := ((Steady.refl s).orderRest).trans h
  have begun := State.bond_setRole_of ordered 1
  obtain ⟨u, hu⟩ : ∃ u, u = s.orderRest.setRole 1 := ⟨_, rfl⟩
  have named : s.promoteSelf = if u.rewriteHealth.pair.mode = 2 then u.rewriteHealth.restore else
      u.rewriteHealth.flushSuppressed := by rw [hu]; rfl
  have health : Steady u u.rewriteHealth := (Steady.refl u).rewriteHealth
  have later : Steady u s.promoteSelf := by rw [named]; exact .ite health.restore health.flushSuppressed
  exact later.trans (hu ▸ begun)

/-- The role that a part has once its partner is lost (R340; log entry 44). -/
def survivorRole (role : Nat) : Nat := if role = 2 then 1 else if role = 3 then 0 else role

theorem State.bond_takeOver (s : State) :
    s.takeOver.bond = (s.hungUp.strait, false, survivorRole s.pair.role, s.pair.lostRole, s.flags .pairState) := by
  have ended := s.bond_endPair
  unfold State.takeOver survivorRole
  dsimp only
  by_cases second : s.pair.role = 2
  · rw [if_pos second, if_pos second]
    exact State.bond_promoteSelf_of ended
  · rw [if_neg second, if_neg second]
    by_cases joins : s.pair.role = 3
    · rw [if_pos joins, if_pos joins]
      generalize s.endPair = u at ended ⊢
      exact State.bond_setRole_of (s := { u with pair := { u.pair with got := [] } }) ended 0
    · rw [if_neg joins, if_neg joins]
      exact ended

/-- A part leaves pair service (R344): its pair is formed no more, and its flags stay. -/
theorem State.quitPair_bond (s : State) :
    s.quitPair.pair.formed = false ∧ s.quitPair.flags .pairState = s.flags .pairState := by
  obtain ⟨u, hu⟩ : ∃ u, u = State.acknowledge { s with
      pair := { s.pair with noticeSent := decide (16 ≤ s.lanesUp), left := true, formed := false, waits := false, role := 0,
                            phase := 0, joinHold := false, promoteIn := 0, inputs := [], mine := [], theirs := [],
                            suppressed := [], toSend := [], marked := [], lastWindow := none, outcomes := [],
                            theirOut := [], diverging := false, got := [], standby := [], theirOcc := [], theirHeld := 0 }
      dev := { s.dev with hbOn := false, hbLevel := false } } s.pair.seq := ⟨_, rfl⟩
  have named : s.quitPair = u.idleStrait.discardSessions := by rw [hu]; rfl
  have rest : Only [.mbx, .fcfg, .flagCnt, .loads, .fab, .ftx, .log, .tick, .tiles, .eng, .bufs, .regions, .sess, .strait] u
      u.idleStrait.discardSessions := .discardSessions (.idleStrait (.refl u) rfl) rfl
  have pair : s.quitPair.pair = u.pair := named ▸ rest.frame .pair rfl
  simp only [State.flags, pair, hu]
  exact ⟨rfl, rfl⟩

/-- The flags of a pair as hardware sets one. -/
theorem State.pairFlag_raised (s : State) {mask : Word} {bit : Nat}
    (one : bit = 26 ∨ bit = 25 ∨ bit = 24 ∨ bit = 20) (is : mask = bitW bit true) :
    ((s.raise .pairState mask).flags .pairState).getLsbD bit = true := by
  have bits (a b c d e f : Bool) :
      let w := bitsW [(26, a), (25, b), (24, c), (23, d), (21, e), (20, f)] ||| (mask &&& 0x07B00000#32)
      (bitsW [(26, w.getLsbD 26), (25, w.getLsbD 25), (24, w.getLsbD 24), (23, w.getLsbD 23), (21, w.getLsbD 21),
        (20, w.getLsbD 20)]).getLsbD bit = true := by
    subst is
    revert a b c d e f
    rcases one with rfl | rfl | rfl | rfl <;> decide
  exact bits _ _ _ _ _ _

/-! A message of the partner taken in. -/

/-- A message taken in, with the inputs that it acknowledges done with (R322, R324). -/
def State.heard (s : State) (m : PairMsg) : State := ({ s with pair := s.pair.take m }).acknowledge m.seqHeld

theorem State.matchOrders_of_none {s : State} (none : s.pair.mine = []) : s.matchOrders = s := by
  unfold State.matchOrders
  rw [none]
  rfl

theorem State.compareOutcomes_of_primary {s : State} (primary : s.pair.role = 1) : s.compareOutcomes = s := by
  unfold State.compareOutcomes
  exact if_neg (by rw [primary]; decide)

theorem State.knownAnswer_of_agreed {s : State} (agreed : s.pair.diverging = false) : s.knownAnswer = s := by
  unfold State.knownAnswer
  rw [agreed, Bool.false_and, Bool.false_and]
  rfl

theorem State.resolve_of_agreed {s : State} (agreed : s.pair.diverging = false) : s.resolve = s := by
  unfold State.resolve
  rw [agreed]
  rfl

/-- The primary with no command that waits to be ordered hears a message: only the comparison of the tick is left to do. -/
theorem State.hear_of_primary {s : State} (primary : s.pair.role = 1) (none : s.pair.mine = []) (m : PairMsg) :
    s.hear m = ((s.heard m).compareTick.knownAnswer).resolve := by
  obtain ⟨u, hu⟩ : ∃ u, u = s.heard m := ⟨_, rfl⟩
  have role : u.pair.role = 1 := by rw [hu]; exact primary
  have mine : u.pair.mine = [] := by rw [hu]; exact none
  have second : ¬u.pair.role = 2 := by rw [role]; decide
  have named : s.hear m =
      let v := if u.pair.role = 2 then u.dropRecords m.rings else u
      let w := if v.pair.role = 2 ∧ v.pair.mode = 2 then
        { v with pair := { v.pair with
          standby := v.pair.standby.filter (fun c => m.rings.any (fun r => r.1 == c.sess.id)) } } else v
      (((w.matchOrders).compareOutcomes).compareTick.knownAnswer).resolve := by rw [hu]; rfl
  rw [named, ← hu]
  dsimp only
  rw [if_neg second, if_neg fun h => second h.1, State.matchOrders_of_none mine, State.compareOutcomes_of_primary role]

/-- What a tick that settles leaves of the pair: inputs may be sent, and nothing else changes (R213, R323). -/
theorem State.pair_settle (s : State) {α : Type} (part : Pair → α)
    (free : ∀ p a b, part { p with seq := a, unacked := b } = part p) : part s.settle.pair = part s.pair := by
  obtain ⟨u, hu⟩ : ∃ u, u = (s.runs.filter (fun p => p.2.begun)).foldl (fun s p => s.advance p.1 p.2) s := ⟨_, rfl⟩
  have advanced : Only [.free, .bufs, .log, .sess, .mbx] s u := by
    rw [hu]
    exact .foldl (.refl s) fun _ _ h => h.advance rfl
  have pair : u.pair = s.pair := advanced.frame .pair rfl
  obtain ⟨v, hv⟩ : ∃ v, v = { u with tick := { u.tick with settled := true } } := ⟨_, rfl⟩
  have named : s.settle = v.decideLoads := by rw [hv, hu]; rfl
  have start : part v.pair = part s.pair := by rw [hv]; exact congrArg part pair
  have sent (w : State) (i : Input) : part (w.forward i).pair = part w.pair := by
    unfold State.forward
    split
    · exact free _ _ _
    · rfl
  rw [named]
  unfold State.decideLoads
  split
  · refine List.foldlRecOn (motive := fun w : State => part w.pair = part s.pair) _ _ start ?_
    intro w h l _
    split
    · exact (sent _ _).trans h
    · exact h
  · exact start

theorem State.settled_settle (s : State) : s.settle.tick.settled = true := by
  obtain ⟨u, hu⟩ : ∃ u, u = (s.runs.filter (fun p => p.2.begun)).foldl (fun s p => s.advance p.1 p.2) s := ⟨_, rfl⟩
  obtain ⟨v, hv⟩ : ∃ v, v = { u with tick := { u.tick with settled := true } } := ⟨_, rfl⟩
  have named : s.settle = v.decideLoads := by rw [hv, hu]; rfl
  have only : Only [.loads, .pair] v v.decideLoads := .decideLoads (.refl v) rfl
  have tick : v.decideLoads.tick = v.tick := only.frame .tick rfl
  rw [named, tick, hv]

/-- What the message at the part's done leaves of the pair: what has been told, and nothing else, changes (R322). -/
theorem State.pair_tellDone (s : State) {α : Type} (part : Pair → α)
    (free : ∀ p a b c, part { p with told := a, toldLive := b, outcomes := c } = part p) :
    part s.tellDone.pair = part s.pair := by
  unfold State.tellDone State.sendPair
  dsimp only
  split
  · split
    · exact free _ _ _ _
    · exact free s.pair _ s.pair.toldLive s.pair.outcomes
  · rfl

/-- The two parts of a shadow pair have done the tick with one digest (R321, R335): the tick is settled. -/
theorem State.compareTick_of_same {s : State} (shadow : s.pair.shadow = true) (closed : s.tick.closed = true)
    (fresh : s.tick.settled = false) (agreed : s.pair.diverging = false) (done : s.pair.partnerDone = s.tick.count)
    (again : s.pair.partnerAgain = s.pair.rerun) (same : s.tickDigest = s.pair.partnerDigest) :
    s.compareTick = State.settle { s.tellDone with pair := { s.tellDone.pair with cmpTick := s.tick.count } } := by
  have tick : s.tellDone.tick = s.tick := s.tick_tellDone
  have digest : s.tellDone.tickDigest = s.tellDone.pair.partnerDigest := by
    unfold State.tickDigest at same ⊢
    rw [tick, same]
    exact (s.pair_tellDone Pair.partnerDigest fun _ _ _ _ => rfl).symm
  have told : s.tellDone.pair.shadow = true ∧ s.tellDone.pair.diverging = false ∧
      s.tellDone.pair.partnerDone = s.tick.count ∧ s.tellDone.pair.partnerAgain = s.tellDone.pair.rerun :=
    ⟨(s.pair_tellDone Pair.shadow fun _ _ _ _ => rfl).trans shadow,
      (s.pair_tellDone Pair.diverging fun _ _ _ _ => rfl).trans agreed,
      (s.pair_tellDone Pair.partnerDone fun _ _ _ _ => rfl).trans done,
      (s.pair_tellDone Pair.partnerAgain fun _ _ _ _ => rfl).trans
        (again.trans (s.pair_tellDone Pair.rerun fun _ _ _ _ => rfl).symm)⟩
  obtain ⟨shadow', agreed', done', again'⟩ := told
  have both : (s.tellDone.pair.shadow && s.tellDone.tick.closed && !s.tellDone.tick.settled &&
      !s.tellDone.pair.diverging && s.tellDone.pair.partnerDone == s.tellDone.tick.count &&
      s.tellDone.pair.partnerAgain == s.tellDone.pair.rerun) = true := by
    simp [shadow', agreed', done', again', closed, fresh]
  unfold State.compareTick
  dsimp only
  rw [if_pos both, if_pos digest, tick]

/-! The clauses. -/

/-- A part of a formed pair that its partner has not been lost to hears a message. -/
theorem exec_pairMessage_of_formed {s : State} (hears : s.hears = true) (kept : s.pair.lostRole ≠ 2)
    (formed : s.pair.formed = true) (m : PairMsg) : exec (.pairMessage m) s = .next (s.hear m) := by
  change execPairMessage m s = _
  unfold execPairMessage
  rw [hears, if_neg (by decide), if_neg kept, if_pos formed]

theorem Pair.formed_of_shadow {p : Pair} (h : p.shadow = true) : p.formed = true := by
  unfold Pair.shadow at h
  simp only [Bool.and_eq_true] at h
  exact h.1.1.1.1

/-- A message to the secondary of a lost primary (R339): the part leaves. -/
theorem pairMessage_lost {s : State} (hears : s.hears = true) (lost : s.pair.lostRole = 2) (m : PairMsg) :
    Answers (exec (.pairMessage m) s) (fun t => t.pair.left = true ∧ t.pair.formed = false ∧ t.sess = []) := by
  obtain ⟨left, sess⟩ := s.quitPair_spec
  refine ⟨s.quitPair, ?_, left, s.quitPair_bond.1, sess⟩
  change execPairMessage m s = _
  unfold execPairMessage
  rw [hears, if_neg (by decide), if_pos lost]

/-- A message that finds the primary's tick still open (R322, R324, R330). -/
theorem pairMessage_open {s : State} (hears : s.hears = true) (kept : s.pair.lostRole ≠ 2) (formed : s.pair.formed = true)
    (primary : s.pair.role = 1) (none : s.pair.mine = []) (agreed : s.pair.diverging = false)
    (running : s.tick.closed = false) (m : PairMsg) : exec (.pairMessage m) s = .next (s.heard m) := by
  have still : (s.heard m).compareTick = s.heard m := State.compareTick_of_open running
  have same : (s.heard m).pair.diverging = false := agreed
  rw [exec_pairMessage_of_formed hears kept formed, State.hear_of_primary primary none, still,
    State.knownAnswer_of_agreed same, State.resolve_of_agreed same]

theorem State.unacked_heard (s : State) (m : PairMsg) :
    (s.heard m).pair.unacked = s.pair.unacked.filter (fun f => decide (m.seqHeld < f.seq)) := by
  change (s.pair.unacked.partition (fun f => decide (f.seq ≤ m.seqHeld))).2 = _
  rw [List.partition_eq_filter_filter]
  refine List.filter_congr fun f _ => ?_
  rw [Function.comp_apply, ← decide_not]
  exact decide_eq_decide.mpr Nat.not_le

theorem State.writesDone_heard (s : State) (m : PairMsg) : (s.heard m).out.writesDone =
    s.out.writesDone + writesIn (s.pair.unacked.filter (fun f => decide (f.seq ≤ m.seqHeld))) := by
  change s.out.writesDone + writesIn (s.pair.unacked.partition (fun f => decide (f.seq ≤ m.seqHeld))).1 = _
  rw [List.partition_eq_filter_filter]

/-- A message with the digest of the tick that both have done (R321, R335). -/
theorem pairMessage_same {s : State} (hears : s.hears = true) (kept : s.pair.lostRole ≠ 2) (shadow : s.pair.shadow = true)
    (primary : s.pair.role = 1) (none : s.pair.mine = []) (agreed : s.pair.diverging = false)
    (closed : s.tick.closed = true) (fresh : s.tick.settled = false) {m : PairMsg} (done : m.done = s.tick.count)
    (again : m.again = s.pair.rerun) (same : m.digest = s.tickDigest) :
    Answers (exec (.pairMessage m) s) (fun t => t.tick.settled = true ∧ t.pair.cmpTick = s.tick.count ∧ t.mem = s.mem) := by
  obtain ⟨u, hu⟩ : ∃ u, u = s.heard m := ⟨_, rfl⟩
  have compared : u.compareTick = State.settle { u.tellDone with pair := { u.tellDone.pair with cmpTick := u.tick.count } } := by
    subst hu
    exact State.compareTick_of_same shadow closed fresh agreed done again same.symm
  obtain ⟨v, hv⟩ : ∃ v, v = { u.tellDone with pair := { u.tellDone.pair with cmpTick := u.tick.count } } := ⟨_, rfl⟩
  rw [← hv] at compared
  have calm : v.pair.diverging = false := by
    rw [hv]
    exact (u.pair_tellDone Pair.diverging fun _ _ _ _ => rfl).trans (hu ▸ agreed)
  have settled : v.settle.pair.diverging = false := (v.pair_settle Pair.diverging fun _ _ _ => rfl).trans calm
  have only : Only [.free, .bufs, .log, .sess, .mbx, .tick, .loads, .pair, .out] u v.settle := by
    rw [hv]
    exact .settle (.withPair (.tellDone (.refl u) rfl) rfl) rfl
  refine ⟨v.settle, ?_, v.settled_settle, ?_, ?_⟩
  · rw [exec_pairMessage_of_formed hears kept (Pair.formed_of_shadow shadow), State.hear_of_primary primary none, ← hu,
      compared, State.knownAnswer_of_agreed settled, State.resolve_of_agreed settled]
  · rw [v.pair_settle Pair.cmpTick fun _ _ _ => rfl, hv, hu]
    rfl
  · have mem : v.settle.mem = u.mem := only.frame .mem rfl
    rw [mem, hu]
    rfl

/-- A message that finds a part without a session alone and able to form a pair (R319, R320). -/
theorem pairMessage_forms {s : State} {m : PairMsg} {f : PartnerFit} (hears : s.hears = true) (kept : s.pair.lostRole ≠ 2)
    (apart : s.pair.formed = false) (present : s.pair.left = false) (sound : s.dev.pkgFault = false)
    (mode : s.pair.mode ≠ 0) (told : m.fit = some f) (fits : s.pairFits f = true) (idle : f.noSession = true)
    (none : s.sess = []) :
    Answers (exec (.pairMessage m) s) (fun t => t.pair.formed = true ∧ t.pair.waits = true ∧
      t.pair.role = s.formRole f.pref ∧ t.pair.seq = 0 ∧ SameWork { s with ftx := t.ftx } t) := by
  obtain ⟨u, hu⟩ : ∃ u, u = { s with pair := s.pair.begin } := ⟨_, rfl⟩
  have formed : s.formPair f = u.setRole (u.formRole f.pref) := by
    have may : (s.pair.formed || s.pair.left || s.dev.pkgFault || s.pair.mode = 0 || !s.pairFits f) = false := by
      simp [apart, present, sound, mode, fits]
    unfold State.formPair
    rw [if_neg (by rw [may]; decide), if_neg (by rw [none]; decide), if_neg (by rw [idle]; decide), hu]
    rfl
  have only : Only [.pair, .ftx, .sess, .mbx, .flagCnt, .out] s (s.formPair f) := .formPair (.refl s) rfl
  have pair : (s.formPair f).pair = { u.pair with role := u.formRole f.pref } := by rw [formed, State.pair_setRole]
  refine ⟨s.formPair f, ?_, ?_⟩
  · change execPairMessage m s = _
    unfold execPairMessage
    rw [hears, if_neg (by decide), if_neg kept, if_neg (by rw [apart]; decide), told]
  · dsimp only
    rw [pair, hu]
    exact ⟨rfl, rfl, rfl, rfl, only.frame .mem rfl, only.frame .tiles rfl, only.frame .bufs rfl, only.frame .eng rfl,
      only.frame .regions rfl, only.frame .fab rfl, rfl, only.frame .tick rfl, only.frame .units rfl,
      only.frame .clk rfl, only.frame .flash rfl⟩

/-- The secondary holds an input in sequence (R323, R324). -/
theorem exec_forwardedInput {s : State} {i : Forwarded} (hears : s.hears = true) (shadow : s.pair.shadow = true)
    (second : s.pair.role = 2) (next : i.seq = s.pair.seqHeld + 1) (room : s.inputRoom i.input = true) :
    exec (.forwardedInput i) s = .next (s.hold i) := by
  change execForwardedInput i s = _
  unfold execForwardedInput State.takeInput
  rw [hears, if_neg (by decide), if_pos shadow, if_pos second, if_pos (by rw [next, room]; simp)]

theorem any_dropOrder (l : List OrderRec) (mb go : Nat) :
    (l.filter (fun o => !(o.mb == mb && o.go == go))).any (fun o => o.mb == mb && o.go == go) = false := by
  rw [List.any_eq_false]
  intro o ho
  have kept := (List.mem_filter.mp ho).2
  rw [Bool.not_eq_true'] at kept
  rw [kept]
  decide

/-- A command that this part alone holds (R330). -/
theorem orderMatchTimeout_mine {s : State} (hs : s.canon) (shadow : s.pair.shadow = true) {mb go : Nat} {b : BusyCmd}
    (mine : s.pair.mine.any (fun o => o.mb == mb && o.go == go) = true)
    (theirs : s.pair.theirs.any (fun o => o.mb == mb && o.go == go) = false) (waits : s.unordered mb go = some b) :
    Answers (exec (.orderMatchTimeout mb go) s) (fun t => t.pair.unmatched = s.pair.unmatched + 1 ∧
      (t.mb mb).busy = some { b with acc := { code := 0xD }, done := true } ∧
      t.pair.mine.any (fun o => o.mb == mb && o.go == go) = false) := by
  obtain ⟨u, hu⟩ : ∃ u, u = { s.dropOrder mb go with
    pair := { (s.dropOrder mb go).pair with unmatched := (s.dropOrder mb go).pair.unmatched + 1 } } := ⟨_, rfl⟩
  have still : u.unordered mb go = some b := by rw [hu]; exact waits
  have named : s.unmatch mb go = u.finishBusy mb { code := 0xD } := by
    unfold State.unmatch
    dsimp only
    rw [← hu, still]
  have canon : u.canon := by
    rw [hu]
    exact State.canon_of_keeps (.congr (.dropOrder (.refl s)) rfl) hs
  have busy : (u.mb mb).busy = some b ∧ b.done = false := by
    unfold State.unordered at still
    cases held : (u.mb mb).busy with
    | none => simp [held] at still
    | some c =>
      simp only [held, Option.ite_none_right_eq_some, Option.some.injEq, Bool.and_eq_true, Bool.not_eq_true'] at still
      obtain ⟨⟨⟨-, open_⟩, -⟩, rfl⟩ := still
      exact ⟨rfl, open_⟩
  refine ⟨s.unmatch mb go, ?_, ?_, ?_, ?_⟩
  · change execOrderMatchTimeout mb go s = _
    unfold execOrderMatchTimeout
    dsimp only
    rw [if_pos (by rw [shadow, mine, theirs]; rfl)]
  · rw [named, hu]
    rfl
  · rw [named]
    unfold State.finishBusy
    rw [State.setMb_mb_self _ _ canon]
    simp only [busy]
    rfl
  · rw [named, hu]
    exact any_dropOrder _ _ _

/-- A command that the partner alone holds (R330). -/
theorem orderMatchTimeout_theirs {s : State} (hs : s.canon) (shadow : s.pair.shadow = true) {mb go : Nat}
    (mine : s.pair.mine.any (fun o => o.mb == mb && o.go == go) = false)
    (theirs : s.pair.theirs.any (fun o => o.mb == mb && o.go == go) = true) :
    Answers (exec (.orderMatchTimeout mb go) s) (fun t => t.pair.unmatched = s.pair.unmatched + 1 ∧
      (t.mb mb).seq = go ∧ (t.mb mb).state = 3 ∧ (t.mb mb).code = 0xD ∧ (t.mb mb).statusSeq = go % 256 ∧
      t.pair.theirs.any (fun o => o.mb == mb && o.go == go) = false) := by
  obtain ⟨u, hu⟩ : ∃ u, u = { s.dropOrder mb go with
    pair := { (s.dropOrder mb go).pair with unmatched := (s.dropOrder mb go).pair.unmatched + 1 } } := ⟨_, rfl⟩
  have canon : u.canon := by
    rw [hu]
    exact State.canon_of_keeps (.congr (.dropOrder (.refl s)) rfl) hs
  have shown : (s.showUnmatched mb go).mb mb =
      { u.mb mb with seq := go, state := 3, code := 0xD, statusSeq := go % 256 } := by
    unfold State.showUnmatched
    dsimp only
    rw [← hu, State.setMb_mb_self _ _ canon]
  refine ⟨s.showUnmatched mb go, ?_, rfl, ?_⟩
  · change execOrderMatchTimeout mb go s = _
    unfold execOrderMatchTimeout
    dsimp only
    rw [if_neg (by rw [mine, Bool.and_false, Bool.false_and]; decide), if_pos (by rw [shadow, theirs, mine]; rfl)]
  · rw [shown]
    exact ⟨rfl, rfl, rfl, rfl, any_dropOrder _ _ _⟩

/-! Losing a partner (R338, R339). -/

/-- The second heartbeat window of one kind (R338). -/
theorem exec_partnerJudgement_again {s : State} {edge message : Bool} (good : s.dev.pwrGood = true)
    (formed : s.pair.formed = true) (runs : s.clk.hold = false) (again : s.pair.lastWindow = some (edge, message)) :
    exec (.partnerJudgement edge message) s = .next (s.judgePartner edge message) := by
  have stays : { s with pair := { s.pair with lastWindow := some (edge, message) } } = s := by rw [← again]
  change execPartnerJudgement edge message s = _
  unfold execPartnerJudgement
  dsimp only
  rw [if_pos (by rw [good, formed, runs]; rfl), if_pos (by rw [again]; exact beq_self_eq_true _), stays]

theorem exec_partnerJudgement_first {s : State} {edge message : Bool} (good : s.dev.pwrGood = true)
    (formed : s.pair.formed = true) (runs : s.clk.hold = false) (fresh : s.pair.lastWindow ≠ some (edge, message)) :
    exec (.partnerJudgement edge message) s =
      .next { s with pair := { s.pair with lastWindow := some (edge, message) } } := by
  change execPartnerJudgement edge message s = _
  unfold execPartnerJudgement
  dsimp only
  rw [if_pos (by rw [good, formed, runs]; rfl), if_neg fun h => fresh (eq_of_beq h)]

/-- The partner without a message, its edges there (R338): the link is lost, and the secondary leaves. -/
theorem State.judgePartner_link {s : State} (formed : s.pair.formed = true) :
    (s.judgePartner true false).pair.formed = false ∧
      ((s.judgePartner true false).flags .pairState).getLsbD 25 = true ∧
      (s.pair.role = 2 → (s.judgePartner true false).pair.left = true ∧ (s.judgePartner true false).sess = []) := by
  obtain ⟨u, hu⟩ : ∃ u, u = s.raise .pairState 0x02000000 := ⟨_, rfl⟩
  have named : s.judgePartner true false = if u.pair.role = 2 then u.leavePair else u.takeOver := by rw [hu]; rfl
  have set : (u.flags .pairState).getLsbD 25 = true := by
    rw [hu]
    exact State.pairFlag_raised s (.inr (.inl rfl)) rfl
  have held : u.pair.formed = true := by rw [hu]; exact formed
  have role : u.pair.role = s.pair.role := by rw [hu]; rfl
  rw [named]
  by_cases second : u.pair.role = 2
  · have leaves : u.leavePair = u.quitPair := if_pos held
    obtain ⟨left, sess⟩ := u.quitPair_spec
    obtain ⟨apart, flags⟩ := u.quitPair_bond
    rw [if_pos second, leaves, flags]
    exact ⟨apart, set, fun _ => ⟨left, sess⟩⟩
  · have bond := u.bond_takeOver
    injection bond with _ bond
    injection bond with apart bond
    injection bond with _ bond
    injection bond with _ flags
    rw [if_neg second, flags]
    exact ⟨apart, set, fun h => absurd (role.trans h) second⟩

/-- The partner with neither edge nor message (R338, R340): it is lost, and the survivor carries on. -/
theorem State.judgePartner_lost (s : State) :
    (s.judgePartner false false).pair.formed = false ∧ (s.judgePartner false false).pair.lostRole = s.pair.role ∧
      ((s.judgePartner false false).flags .pairState).getLsbD 26 = true ∧
      (s.pair.role = 2 → (s.judgePartner false false).pair.role = 1) := by
  obtain ⟨u, hu⟩ : ∃ u, u = s.raise .pairState 0x04000000 := ⟨_, rfl⟩
  obtain ⟨v, hv⟩ : ∃ v, v = { u with pair := { u.pair with lostRole := u.pair.role } } := ⟨_, rfl⟩
  have named : s.judgePartner false false = v.takeOver := by rw [hv, hu]; rfl
  have set : (v.flags .pairState).getLsbD 26 = true := by
    have raised : (u.flags .pairState).getLsbD 26 = true := by
      rw [hu]
      exact State.pairFlag_raised s (.inl rfl) rfl
    rw [hv]
    exact raised
  have role : v.pair.role = s.pair.role ∧ v.pair.lostRole = s.pair.role := by rw [hv, hu]; exact ⟨rfl, rfl⟩
  have bond := v.bond_takeOver
  injection bond with _ bond
  injection bond with apart bond
  injection bond with now bond
  injection bond with lost flags
  rw [named, apart, lost, flags, now, role.1, role.2]
  exact ⟨rfl, rfl, set, fun h => by rw [h]; rfl⟩

/-- The partner says that it leaves (R339, R340). -/
theorem leaveNotice_spec {s : State} (hs : s.canon) (hears : s.hears = true) (formed : s.pair.formed = true) :
    Answers (exec .leaveNotice s) (fun t => t.pair.formed = false ∧ t.pair.role = (if s.pair.role = 2 then 1
      else if s.pair.role = 3 then 0 else s.pair.role) ∧ ∀ l, l < 32 → (t.strLane l).up = false) := by
  have canon : (s.acknowledge s.pair.seq).canon := State.canon_of_keeps (.acknowledge (.refl s)) hs
  have bond := s.bond_takeOver
  injection bond with strait bond
  injection bond with apart bond
  injection bond with now _
  refine ⟨s.takeOver, ?_, apart, now, fun l hl => ?_⟩
  · change execLeaveNotice s = _
    unfold execLeaveNotice
    rw [if_pos (by rw [hears, formed]; rfl)]
  · have lane : s.takeOver.strLane l = s.hungUp.strLane l :=
      congrArg (fun x : StraitLink => look ({} : StrLane) x.lanes l) strait
    rw [lane, State.hungUp, State.strLane_idleStrait canon hl]

/-! Transfers (R347, R349). -/

theorem State.pair_answerRejoin (s : State) (code : Nat) : (s.answerRejoin code).pair = s.pair := by
  have only : Only [.mbx] s (s.answerRejoin code) := .release (.refl s) rfl
  exact only.frame .pair rfl

theorem State.pair_enterShadow (s : State) (role : Nat) :
    (s.enterShadow role).pair = { s.pair.begin with left := false, role := role } := by
  obtain ⟨u, hu⟩ : ∃ u, u = { s with pair := { s.pair.begin with left := false } } := ⟨_, rfl⟩
  have named : s.enterShadow role = u.setRole role := by rw [hu]; rfl
  rw [named, State.pair_setRole, hu]

theorem exec_rejoinPhase_primary {s : State} (primary : s.pair.role = 1) (under : s.pair.phase ≠ 0) (lost : Bool) :
    exec (.rejoinPhase lost) s = .next (if lost then s.sendLost else s.sendOn) := if_pos ⟨primary, under⟩

theorem exec_rejoinPhase_joins {s : State} (joins : s.pair.role = 3) (lost : Bool) :
    exec (.rejoinPhase lost) s = .next (if lost then s.joinLost else s.joinOn) := by
  change execRejoinPhase lost s = _
  unfold execRejoinPhase
  rw [if_neg (by rw [joins]; exact fun h => absurd h.1 (by decide)), if_pos joins]

/-- The last phase of the primary's transfer (R347): the pair is in service again. -/
theorem rejoinPhase_last {s : State} (primary : s.pair.role = 1) (last : s.pair.phase = 3) :
    Answers (exec (.rejoinPhase false) s) (fun t => t.pair.formed = true ∧ t.pair.role = 1 ∧ t.pair.waits = true ∧
      t.pair.phase = 0 ∧ t.pair.joinHold = false) := by
  obtain ⟨u, hu⟩ : ∃ u, u = { s with
    out := { s.out with sent := (s.pair.toSend ++ s.pair.marked).map s.pageOut ++ s.stateOut }
    pair := { s.pair with bytesSent :=
      s.pair.bytesSent + 65536 * (s.pair.toSend ++ s.pair.marked).length + s.runBytes } } := ⟨_, rfl⟩
  have named : s.sendOn = (u.enterShadow 1).answerRejoin 0 := by
    unfold State.sendOn
    rw [if_neg (by rw [last]; decide), if_neg (by rw [last]; decide), hu]
  refine ⟨s.sendOn, exec_rejoinPhase_primary primary (by rw [last]; decide) false, ?_⟩
  dsimp only
  rw [named, State.pair_answerRejoin, State.pair_enterShadow]
  exact ⟨rfl, rfl, rfl, rfl, rfl⟩

/-- The primary's transfer ends because either part is lost (R347). -/
theorem rejoinPhase_lost {s : State} (primary : s.pair.role = 1) (under : s.pair.phase ≠ 0) :
    Answers (exec (.rejoinPhase true) s) (fun t => t.pair.phase = 0 ∧ t.pair.joinHold = false ∧ t.pair.role = 1 ∧
      t.pair.formed = s.pair.formed) := by
  refine ⟨s.sendLost, exec_rejoinPhase_primary primary under true, ?_⟩
  dsimp only
  unfold State.sendLost
  dsimp only
  rw [State.pair_answerRejoin]
  exact ⟨rfl, rfl, primary, rfl⟩

/-- A part that is alone begins to join (R347). -/
theorem rejoinPhase_begins {s : State} (hears : s.hears = true) (alone : s.pair.role = 0) (mode : s.pair.mode = 1)
    (none : s.sess = []) (stage : s.dev.stage = 2) (start : s.pair.phase = 0) :
    Answers (exec (.rejoinPhase false) s) (fun t => t.pair.role = 3 ∧ t.pair.phase = 1 ∧ t.dev.hbOn = true) := by
  obtain ⟨u, hu⟩ : ∃ u, u = { s with pair := { s.pair with phase := 1 }, dev := { s.dev with hbOn := true } } := ⟨_, rfl⟩
  have named : s.joinOn = u.setRole 3 := by
    unfold State.joinOn
    rw [if_pos start, hu]
  have only : Only [.pair, .ftx, .sess, .mbx, .flagCnt, .out] u (u.setRole 3) := .setRole (.refl u) rfl
  have dev : (u.setRole 3).dev = u.dev := only.frame .dev rfl
  refine ⟨s.joinOn, ?_, ?_⟩
  · change execRejoinPhase false s = _
    unfold execRejoinPhase
    rw [if_neg (by rw [alone]; exact fun h => absurd h.1 (by decide)), if_neg (by rw [alone]; decide),
      if_pos (by rw [hears, alone, mode, none, stage]; rfl)]
  · dsimp only
    rw [named, State.pair_setRole, dev, hu]
    exact ⟨rfl, rfl, rfl⟩

/-- The joining part enters service, or gives up what it has received (R347). -/
theorem rejoinPhase_joined {s : State} {lost : Bool} (joins : s.pair.role = 3) (last : s.pair.phase = 3) :
    Answers (exec (.rejoinPhase lost) s) (fun t => t.pair.phase = 0 ∧ t.pair.role = (if lost = true then 0 else 2) ∧
      (lost = false → t.pair.formed = true ∧ t.pair.waits = true)) := by
  refine ⟨_, exec_rejoinPhase_joins joins lost, ?_⟩
  dsimp only
  cases lost with
  | true =>
    rw [if_pos rfl]
    unfold State.joinLost
    dsimp only
    rw [State.pair_setRole]
    exact ⟨rfl, rfl, nofun⟩
  | false =>
    have named : s.joinOn = (s.pair.got.foldl State.takePart s).enterShadow 2 := by
      unfold State.joinOn
      rw [if_neg (by rw [last]; decide), if_neg (by rw [last]; decide)]
    rw [if_neg (by decide), named, State.pair_enterShadow]
    exact ⟨rfl, rfl, fun _ => ⟨rfl, rfl⟩⟩

/-- A checkpoint (R349): of the pages marked, those of its session are sent and no longer marked. -/
theorem State.takeCheckpoint_spec (s : State) (x : Sess) :
    (∀ p, p ∈ (s.takeCheckpoint x).pair.marked ↔ p ∈ s.pair.marked ∧ p ∉ x.pages) ∧
      (s.takeCheckpoint x).pair.bytesSent = 65536 * (s.pair.marked.filter (fun p => x.pages.contains p)).length ∧
      (s.takeCheckpoint x).mem = s.mem ∧ (s.takeCheckpoint x).out.sent =
        (s.pair.marked.filter (fun p => x.pages.contains p)).map s.pageOut ++ [s.copyOf x] := by
  refine ⟨fun p => ?_, rfl, rfl, rfl⟩
  have marked : (s.takeCheckpoint x).pair.marked = s.pair.marked.filter
      (fun p => !(s.pair.marked.filter (fun p => x.pages.contains p)).contains p) := rfl
  rw [marked, List.mem_filter, Bool.not_eq_true', List.contains_eq_mem, decide_eq_false_iff_not, List.mem_filter,
    List.contains_iff_mem]
  exact ⟨fun ⟨m, n⟩ => ⟨m, fun q => n ⟨m, q⟩⟩, fun ⟨m, n⟩ => ⟨m, fun q => n q.2⟩⟩

/-- Settles O56: the definition of each event, with what its parts leave of the pair and of the work. -/
theorem pairEvents : Obligations.PairEvents := by
  unfold Obligations.PairEvents
  refine ⟨?message, ?input, ?orders, ?judgement, fun s hs hears formed => leaveNotice_spec hs hears formed, ?rejoin,
    fun s hears alone mode none stage start => rejoinPhase_begins hears alone mode none stage start,
    fun s lost joins last => rejoinPhase_joined joins last, ?checkpoint⟩
  case message =>
    intro s m hears
    refine ⟨fun lost => pairMessage_lost hears lost m, fun kept formed primary none agreed running => ?_,
      fun kept shadow primary none agreed closed fresh done again same =>
        pairMessage_same hears kept shadow primary none agreed closed fresh done again same,
      fun f kept apart present sound mode told fits idle none =>
        pairMessage_forms hears kept apart present sound mode told fits idle none⟩
    refine ⟨s.heard m, pairMessage_open hears kept formed primary none agreed running m, rfl, rfl, rfl, ?_,
      s.unacked_heard m, s.writesDone_heard m, rfl, rfl, rfl, rfl, rfl, rfl, rfl, rfl, rfl, rfl, rfl, rfl⟩
    have taken : (s.heard m).pair.theirs = s.pair.theirs ++
        m.reports.map (fun (r : OrderReport) => (⟨r.mb, r.go, r.digest, r.verdict⟩ : OrderRec)) := rfl
    rw [taken, List.length_append, List.length_map]
  case input =>
    intro s i hears shadow second next room
    have run := exec_forwardedInput hears shadow second next room
    refine ⟨fun a b write => ?_, fun l word => ⟨_, run, ?_⟩⟩
    · rw [run]
      unfold State.hold
      rw [write]
    · have held : s.hold i = State.raise { s with
          pair := { s.pair with seqHeld := i.seq, inputs := s.pair.inputs ++ [i] } } .pairState 0x00100000 := by
        unfold State.hold
        rw [word]
        dsimp only
        rw [← word]
      dsimp only
      rw [held]
      exact ⟨rfl, rfl, State.pairFlag_raised _ (.inr (.inr (.inr rfl))) rfl⟩
  case orders =>
    intro s mb go hs shadow
    exact ⟨fun b mine theirs waits => orderMatchTimeout_mine hs shadow mine theirs waits,
      fun mine theirs => orderMatchTimeout_theirs hs shadow mine theirs⟩
  case judgement =>
    intro s edge message good formed runs
    refine ⟨fun fresh => exec_partnerJudgement_first good formed runs fresh, fun again =>
      ⟨_, exec_partnerJudgement_again good formed runs again, ?_, ?_, ?_, ?_⟩⟩
    · rintro rfl rfl
      rfl
    · rintro rfl rfl
      exact ⟨formed, State.pairFlag_raised s (.inr (.inr (.inl rfl))) rfl⟩
    · rintro rfl rfl
      exact State.judgePartner_link formed
    · rintro rfl rfl
      exact s.judgePartner_lost
  case rejoin =>
    intro s primary
    have run := exec_rejoinPhase_primary primary (lost := false)
    refine ⟨fun one => ?_, fun two may => ?_, fun two late => ?_, fun last => rejoinPhase_last primary last,
      fun under => rejoinPhase_lost primary under⟩
    · rw [run (by rw [one]; decide)]
      unfold State.sendOn
      rw [if_neg (by decide), if_pos one]
      rfl
    · rw [run (by rw [two]; decide)]
      unfold State.sendOn
      rw [if_neg (by decide), if_neg (by rw [two]; decide), if_pos two, if_pos may]
    · rw [run (by rw [two]; decide)]
      unfold State.sendOn
      rw [if_neg (by decide), if_neg (by rw [two]; decide), if_pos two, if_neg (by rw [late]; decide)]
      rfl
  case checkpoint =>
    intro s id x open_ formed live mode primary idle hears
    refine ⟨s.takeCheckpoint x, ?_, s.takeCheckpoint_spec x⟩
    change execCheckpoint id s = _
    unfold execCheckpoint
    rw [open_]
    dsimp only
    rw [if_pos (by rw [formed, live, mode, primary, idle, hears]; rfl)]

end Sys2Proof.Machine
end

section
/-! PROOFS. Streams that end, stall, fail and deliver (O48). -/

namespace Sys2Proof.Machine

/-! Streams read after they, or others, have changed. -/

theorem State.stream_of_eng {s t : State} (h : t.eng = s.eng) (q m : Nat) : t.stream q m = s.stream q m := by
  unfold State.stream State.engine
  rw [h]

/-- From one state to another only one stream has changed, to a given one. -/
def State.StreamSet (s t : State) (r n : Nat) (x : Stream) : Prop :=
  t.stream r n = x ∧ ∀ q m, (q ≠ r ∨ m ≠ n) → t.stream q m = s.stream q m

theorem State.streamSet_setStream {s : State} (hs : s.canon) (r n : Nat) (f : Stream → Stream) :
    s.StreamSet (s.setStream r n f) r n (f (s.stream r n)) :=
  ⟨State.setStream_stream_self hs r n f, fun _ _ other => State.stream_setStream_ne hs other f⟩

theorem State.StreamSet.then {s t u : State} {r n : Nat} {x y : Stream} (h : s.StreamSet t r n x)
    (k : t.StreamSet u r n y) : s.StreamSet u r n y := ⟨k.1, fun q m other => (k.2 q m other).trans (h.2 q m other)⟩

theorem State.StreamSet.eng {s t u : State} {r n : Nat} {x : Stream} (h : s.StreamSet t r n x) (same : u.eng = t.eng) :
    s.StreamSet u r n x :=
  ⟨(State.stream_of_eng same r n).trans h.1, fun q m other => (State.stream_of_eng same q m).trans (h.2 q m other)⟩

/-- The flags of a stream's errors are registers of the stream. -/
theorem State.flags_strmErr_of_regs {s t : State} {r n : Nat} (h : (t.stream r n).r = (s.stream r n).r) :
    t.flags (.strmErr r n) = s.flags (.strmErr r n) := by
  simp only [State.flags, h]

/-- Raising a stream's flags changes registers of it only. -/
theorem State.streamSet_raiseErr {s : State} (hs : s.canon) (r n : Nat) (mask : Word) :
    ∃ w, s.StreamSet (s.raise (.strmErr r n) mask) r n { s.stream r n with r := w } :=
  ⟨_, (State.streamSet_setStream hs r n _).eng rfl⟩

theorem State.streamSet_raiseStatus {s : State} (hs : s.canon) (r n : Nat) (mask : Word) :
    ∃ w, s.StreamSet (s.raise (.strmStatus r n) mask) r n { s.stream r n with r := w } :=
  ⟨_, (State.streamSet_setStream hs r n _).eng rfl⟩

/-- The position of a stream's first error noted, which is no flag of it. -/
def State.noteErr (s : State) (r n pos : Nat) : State :=
  s.setStream r n (fun x => { x with r := { x.r with errDesc := pos % 2 ^ 17 } })

theorem State.streamErr_eq (s : State) (r n : Nat) (mask : Word) (pos : Nat) : s.streamErr r n mask pos =
    (if s.flags (.strmErr r n) = 0 then s.noteErr r n pos else s).raise (.strmErr r n) mask := rfl

section
variable {s : State} (hs : s.canon) (r n : Nat)
include hs

theorem State.canon_noteErr (pos : Nat) : (s.noteErr r n pos).canon := State.canon_of_keeps (.setStream (.refl s)) hs

theorem State.flags_noteErr (pos : Nat) : (s.noteErr r n pos).flags (.strmErr r n) = s.flags (.strmErr r n) := by
  simp only [State.noteErr, State.flags, State.setStream_stream_self hs]

theorem State.streamSet_noteErr (pos : Nat) :
    ∃ w, s.StreamSet (s.noteErr r n pos) r n { s.stream r n with r := w } := ⟨_, State.streamSet_setStream hs r n _⟩

theorem State.streamSet_streamErr (mask : Word) (pos : Nat) :
    ∃ w, s.StreamSet (s.streamErr r n mask pos) r n { s.stream r n with r := w } := by
  rw [State.streamErr_eq]
  split
  · obtain ⟨w, noted⟩ := State.streamSet_noteErr hs r n pos
    obtain ⟨z, raised⟩ := State.streamSet_raiseErr (State.canon_noteErr hs r n pos) r n mask
    rw [noted.1] at raised
    exact ⟨z, noted.then raised⟩
  · exact State.streamSet_raiseErr hs r n mask

theorem State.streamErr_sets {mask : Word} {bit pos : Nat} (set : (mask &&& 0xFC000000#32).getLsbD bit = true) :
    ((s.streamErr r n mask pos).flags (.strmErr r n)).getLsbD bit = true := by
  rw [State.streamErr_eq]
  split
  · exact State.flag_raised (State.canon_noteErr hs r n pos) _ set
  · exact State.flag_raised hs _ set

theorem State.streamErr_keeps {mask : Word} {bit pos : Nat} (set : (s.flags (.strmErr r n)).getLsbD bit = true) :
    ((s.streamErr r n mask pos).flags (.strmErr r n)).getLsbD bit = true := by
  rw [State.streamErr_eq]
  split
  · refine State.flag_stays (State.canon_noteErr hs r n pos) _ ?_
    rw [State.flags_noteErr hs]
    exact set
  · exact State.flag_stays hs _ set

end

/-! A stream stopped (R172, R177). -/

theorem Only.discardFor {l : List Piece} {s t : State} {h : Home} {rings : List (Ring × Nat)} (o : Only l s t)
    (sub : within [.tiles, .flagCnt] l = true) : Only l s (t.discardFor h rings) := by
  unfold State.discardFor
  exact o.foldl fun _ _ o => .ite (o.runTile sub) o

/-- A stream with a ring as it is stopped: its ring gone, the other streams as they were, and its session's step told. -/
theorem State.stopStream_spec {s : State} (hs : s.canon) {r n : Nat} {g : Ring} (armed : (s.stream r n).ring = some g)
    (code : Nat) : s.StreamSet (s.stopStream r n code) r n { (s.stream r n).disarm with stopped := true } ∧
      (s.stopStream r n code).mem = s.mem ∧ (s.stopStream r n code).sess = (s.stopStep g.sess code).sess := by
  obtain ⟨u, hu⟩ : ∃ u, u = match s.homeOf g with
      | some h => s.discardFor h ((g, (s.stream r n).dDesc) :: ((s.stream r n).shadow.map (fun q => (q, 0))).toList)
      | .none => s := ⟨_, rfl⟩
  have named : s.stopStream r n code = (u.setStream r n (fun x => { x.disarm with stopped := true })).stopStep g.sess code := by
    unfold State.stopStream
    dsimp only
    rw [armed]
    dsimp only
    cases home : s.homeOf g <;> simp only [home] at hu ⊢ <;> rw [hu]
  have only : Only [.tiles, .flagCnt] s u := by
    rw [hu]
    split
    · exact .discardFor (.refl s) rfl
    · exact .refl s
  have canon : u.canon := by
    rw [hu]
    split
    · exact State.canon_of_keeps (.discardFor (.refl s)) hs
    · exact hs
  have eng : u.eng = s.eng := only.frame .eng rfl
  have sess : u.sess = s.sess := only.frame .sess rfl
  have mem : u.mem = s.mem := only.frame .mem rfl
  have set := State.streamSet_setStream canon r n (fun x => { x.disarm with stopped := true })
  rw [State.stream_of_eng eng r n] at set
  clear hu
  rw [named]
  refine ⟨⟨set.1, fun q m other => (set.2 q m other).trans (State.stream_of_eng eng q m)⟩, mem, ?_⟩
  unfold State.stopStep State.setSess
  dsimp only [State.setStream]
  rw [sess]

/-- A ring that ends (R146, R169). -/
theorem ringComplete_spec {s : State} {r n : Nat} (hs : s.canon) (on : s.engineOn r = true) (small : n < 32)
    (done : (s.stream r n).ringDone = true) : Answers (exec (.ringComplete r n) s) (fun t =>
      (t.flags (.strmStatus r n)).getLsbD 26 = true ∧ (t.stream r n).shadow = none ∧ (t.stream r n).staged = [] ∧
      (t.stream r n).ring = (s.stream r n).shadow.map (fun g => { g with seq := s.tick.armSeq }) ∧
      (t.stream r n).dDesc = 0 ∧ t.mem = s.mem ∧ ∀ q m, (q ≠ r ∨ m ≠ n) → t.stream q m = s.stream q m) := by
  obtain ⟨u, hu⟩ : ∃ u, u = { s with tick := { s.tick with armSeq := s.tick.armSeq + 1 } } := ⟨_, rfl⟩
  obtain ⟨v, hv⟩ : ∃ v, v = u.setStream r n (fun x => x.nextRing s.tick.armSeq) := ⟨_, rfl⟩
  have canonU : u.canon := by
    rw [hu]
    exact State.canon_of_keeps (.congr (.refl s) rfl) hs
  have canonV : v.canon := by
    rw [hv]
    exact State.canon_of_keeps (.setStream (.refl u)) canonU
  have made : exec (.ringComplete r n) s = .next (v.raise (.strmStatus r n) 0x04000000) := by
    change execRingComplete r n s = _
    unfold execRingComplete
    rw [if_pos (by rw [on, done, decide_eq_true small]; rfl), hv, hu]
    rfl
  have next : s.StreamSet v r n ((s.stream r n).nextRing s.tick.armSeq) := by
    have set := State.streamSet_setStream canonU r n (fun x => x.nextRing s.tick.armSeq)
    rw [← hv, State.stream_of_eng (show u.eng = s.eng by rw [hu]) r n] at set
    exact ⟨set.1, fun q m other => (set.2 q m other).trans (State.stream_of_eng (by rw [hu]) q m)⟩
  obtain ⟨w, raised⟩ := State.streamSet_raiseStatus canonV r n 0x04000000
  rw [next.1] at raised
  refine ⟨_, made, State.flag_raised canonV (.strmStatus r n)
    (show (0x04000000#32 &&& 0x04000000#32).getLsbD 26 = true by decide), ?_, ?_, ?_, ?_, ?_, (next.then raised).2⟩
  · rw [raised.1]
    unfold Stream.nextRing
    dsimp only
    split <;> rfl
  · rw [raised.1]
    unfold Stream.nextRing
    dsimp only
    split <;> rfl
  · rw [raised.1]
    unfold Stream.nextRing
    dsimp only
    cases (s.stream r n).shadow <;> rfl
  · rw [raised.1]
    unfold Stream.nextRing
    dsimp only
    split <;> rfl
  · have mem : (v.raise (.strmStatus r n) 0x04000000).mem = v.mem := rfl
    rw [mem, hv, hu]
    rfl

/-! The stall watchdog (R171, R172). -/

/-- A stream whose fabric wait has reached the limit: its flag set and the stall counted. -/
def State.noteStall (s : State) (r n : Nat) : State :=
  (s.streamErr r n 0x40000000 (s.stream r n).dDesc).setStream r n (fun x => { x with stallCnt := x.stallCnt + 1 })

theorem State.streamSet_noteStall {s : State} (hs : s.canon) (r n : Nat) : ∃ w, s.StreamSet (s.noteStall r n) r n
    { s.stream r n with r := w, stallCnt := (s.stream r n).stallCnt + 1 } := by
  obtain ⟨w, raised⟩ := State.streamSet_streamErr hs r n 0x40000000 (s.stream r n).dDesc
  have canon : (s.streamErr r n 0x40000000 (s.stream r n).dDesc).canon := State.canon_of_keeps (.streamErr (.refl s)) hs
  have counted := State.streamSet_setStream canon r n (fun x => { x with stallCnt := x.stallCnt + 1 })
  rw [raised.1] at counted
  exact ⟨w, raised.then counted⟩

theorem State.flag_noteStall {s : State} (hs : s.canon) (r n : Nat) :
    ((s.noteStall r n).flags (.strmErr r n)).getLsbD 30 = true := by
  have canon : (s.streamErr r n 0x40000000 (s.stream r n).dDesc).canon := State.canon_of_keeps (.streamErr (.refl s)) hs
  have regs : ((s.noteStall r n).stream r n).r = ((s.streamErr r n 0x40000000 (s.stream r n).dDesc).stream r n).r := by
    unfold State.noteStall
    rw [State.setStream_stream_self canon]
  rw [State.flags_strmErr_of_regs regs]
  exact State.streamErr_sets hs r n (by decide)

/-- What the watchdog notes of a stream: whether its flag is set, its count of stalls, and its ring. -/
def State.stallOf (s : State) (r n : Nat) : Bool × Nat × Option Ring :=
  ((s.flags (.strmErr r n)).getLsbD 30, (s.stream r n).stallCnt, (s.stream r n).ring)

/-- Streams noted as stalled, each once. -/
theorem State.stallOf_foldl {s : State} (hs : s.canon) (r : Nat) {ns : List Nat} (nodup : ns.Nodup) (m : Nat) :
    (ns.foldl (fun s n => s.noteStall r n) s).stallOf r m =
      if m ∈ ns then (true, (s.stream r m).stallCnt + 1, (s.stream r m).ring) else s.stallOf r m := by
  refine foldl_places (get := fun s n => State.stallOf s r n) (inv := State.canon)
    (change := fun _ x => (true, x.2.1 + 1, x.2.2)) ?keep ?self ?ne nodup hs m
  case keep => exact fun t n h => State.canon_of_keeps (.setStream (.streamErr (.refl t))) h
  case self =>
    intro t n h
    obtain ⟨w, noted⟩ := State.streamSet_noteStall h r n
    unfold State.stallOf
    rw [State.flag_noteStall h, noted.1]
  case ne =>
    intro t n k h other
    obtain ⟨w, noted⟩ := State.streamSet_noteStall h r n
    have same := noted.2 r k (.inr other)
    unfold State.stallOf
    rw [State.flags_strmErr_of_regs (congrArg Stream.r same), same]

/-- The stream armed last among several is the one that the watchdog aborts. -/
theorem State.foldl_laterArmed {s : State} {r v : Nat} {g : Ring} (armed : (s.stream r v).ring = some g) (l : List Nat) :
    ∀ a, v ∈ a :: l → (∀ m ∈ a :: l, ∃ h, (s.stream r m).ring = some h ∧
      (m ≠ v → h.tick < g.tick ∨ h.tick = g.tick ∧ h.seq < g.seq)) → l.foldl (s.laterArmed r) a = v := by
  have first (b : Nat) (hb : ∃ h, (s.stream r b).ring = some h ∧
      (b ≠ v → h.tick < g.tick ∨ h.tick = g.tick ∧ h.seq < g.seq)) : s.laterArmed r v b = v := by
    obtain ⟨h, ring, earlier⟩ := hb
    unfold State.laterArmed
    rw [armed, ring]
    by_cases own : b = v
    · subst own
      simp
    · have late := earlier own
      have no : ¬((decide (g.tick < h.tick) || (g.tick == h.tick && decide (g.seq < h.seq))) = true) := by
        simp only [Bool.or_eq_true, Bool.and_eq_true, decide_eq_true_eq, beq_iff_eq]
        omega
      exact if_neg no
  have second (a : Nat) (ha : ∃ h, (s.stream r a).ring = some h ∧
      (a ≠ v → h.tick < g.tick ∨ h.tick = g.tick ∧ h.seq < g.seq)) : s.laterArmed r a v = v := by
    by_cases own : a = v
    · exact own ▸ first v ⟨g, armed, fun h => absurd rfl h⟩
    · obtain ⟨h, ring, earlier⟩ := ha
      have late := earlier own
      unfold State.laterArmed
      rw [armed, ring]
      have yes : (decide (h.tick < g.tick) || (h.tick == g.tick && decide (h.seq < g.seq))) = true := by
        simp only [Bool.or_eq_true, Bool.and_eq_true, decide_eq_true_eq, beq_iff_eq]
        exact late
      exact if_pos yes
  have either (a b : Nat) : s.laterArmed r a b = a ∨ s.laterArmed r a b = b := by
    unfold State.laterArmed
    split
    · split
      · exact .inr rfl
      · exact .inl rfl
    · exact .inr rfl
    · exact .inl rfl
  induction l with
  | nil =>
    intro a mem _
    exact (List.mem_singleton.mp mem).symm
  | cons b l ih =>
    intro a mem all
    rw [List.foldl_cons]
    refine ih _ ?_ fun m hm => ?_
    · obtain rfl | mem := List.mem_cons.mp mem
      · rw [first b (all b (by simp))]
        exact List.mem_cons_self
      · obtain rfl | mem := List.mem_cons.mp mem
        · rw [second a (all a List.mem_cons_self)]
          exact List.mem_cons_self
        · exact List.mem_cons_of_mem _ mem
    · obtain rfl | hm := List.mem_cons.mp hm
      · obtain is | is := either a b
        · rw [is]
          exact all a List.mem_cons_self
        · rw [is]
          exact all b (by simp)
      · exact all m (List.mem_cons_of_mem _ (List.mem_cons_of_mem _ hm))

theorem State.armed_of_stalled {s : State} {r m : Nat} {reached : List Nat} (h : m ∈ s.stalled r reached) :
    ∃ g, (s.stream r m).ring = some g := by
  have waits := (List.mem_filter.mp h).2
  unfold State.fabricWait at waits
  simp only [Bool.and_eq_true] at waits
  exact Option.isSome_iff_exists.mp waits.2.1.1

/-- The watchdog where some stream has stalled: each is noted, and the one armed last is aborted. -/
theorem State.watchdog_of_latest {s : State} {r v : Nat} {ns : List Nat} {g : Ring} (mem : v ∈ ns)
    (armed : (s.stream r v).ring = some g) (all : ∀ m ∈ ns, ∃ h, (s.stream r m).ring = some h ∧
      (m ≠ v → h.tick < g.tick ∨ h.tick = g.tick ∧ h.seq < g.seq)) :
    s.watchdog r ns = (let u := ns.foldl (fun s n => s.noteStall r n) s
      (u.streamErr r v 0x20000000 (u.stream r v).dDesc).stopStream r v 0xF) := by
  cases ns with
  | nil => exact absurd mem List.not_mem_nil
  | cons n rest =>
    have latest : rest.foldl (s.laterArmed r) n = v := s.foldl_laterArmed armed rest n mem all
    unfold State.watchdog
    dsimp only
    rw [latest]
    rfl

theorem stallWatchdog_latest {s : State} {r v : Nat} {reached : List Nat} {g : Ring} (hs : s.canon)
    (on : s.engineOn r = true) (mem : v ∈ s.stalled r reached) (armed : (s.stream r v).ring = some g)
    (latest : ∀ m h, m ∈ s.stalled r reached → m ≠ v → (s.stream r m).ring = some h →
      h.tick < g.tick ∨ h.tick = g.tick ∧ h.seq < g.seq) :
    Answers (exec (.stallWatchdog r reached) s) (fun t =>
      (t.stream r v).ring = none ∧ (t.stream r v).stopped = true ∧ (t.flags (.strmErr r v)).getLsbD 29 = true ∧
      (∀ m, m ∈ s.stalled r reached → (t.flags (.strmErr r m)).getLsbD 30 = true ∧
        (t.stream r m).stallCnt = (s.stream r m).stallCnt + 1 ∧ (m ≠ v → (t.stream r m).ring = (s.stream r m).ring)) ∧
      t.mem = s.mem) := by
  have nodup : (s.stalled r reached).Nodup := List.nodup_range.sublist List.filter_sublist
  have whole := State.watchdog_of_latest mem armed fun m hm =>
    let ⟨h, ring⟩ := State.armed_of_stalled hm
    ⟨h, ring, fun other => latest m h hm other ring⟩
  obtain ⟨u, hu⟩ : ∃ u, u = (s.stalled r reached).foldl (fun s n => s.noteStall r n) s := ⟨_, rfl⟩
  obtain ⟨v', hv⟩ : ∃ w, w = u.streamErr r v 0x20000000 (u.stream r v).dDesc := ⟨_, rfl⟩
  rw [← hu] at whole
  dsimp only at whole
  rw [← hv] at whole
  have canonU : u.canon := by
    rw [hu]
    exact inv_foldl (inv := State.canon) (fun t n h => State.canon_of_keeps (.setStream (.streamErr (.refl t))) h) _ hs
  have canonV : v'.canon := by
    rw [hv]
    exact State.canon_of_keeps (.streamErr (.refl u)) canonU
  have only : Only [.eng, .flagCnt] s v' := by
    rw [hv, hu]
    exact .streamErr (.foldl (.refl s) fun _ _ h => .setStream (.streamErr h rfl) rfl) rfl
  have memV : v'.mem = s.mem := only.frame .mem rfl
  have noted (m : Nat) (hm : m ∈ s.stalled r reached) :
      u.stallOf r m = (true, (s.stream r m).stallCnt + 1, (s.stream r m).ring) := by
    rw [hu, State.stallOf_foldl hs r nodup, if_pos hm]
  obtain ⟨w, marked⟩ := State.streamSet_streamErr canonU r v 0x20000000 (u.stream r v).dDesc
  rw [← hv] at marked
  have ringU : (u.stream r v).ring = some g := (congrArg (fun x => x.2.2) (noted v mem)).trans armed
  have ringV : (v'.stream r v).ring = some g := by
    rw [marked.1]
    exact ringU
  obtain ⟨stop, memT, -⟩ := State.stopStream_spec canonV ringV 0xF
  have regs (m : Nat) : ((v'.stopStream r v 0xF).stream r m).r = (v'.stream r m).r := by
    by_cases own : m = v
    · rw [own, stop.1]
      rfl
    · rw [stop.2 r m (.inr own)]
  have made : exec (.stallWatchdog r reached) s = .next (v'.stopStream r v 0xF) := by
    change execStallWatchdog r reached s = _
    unfold execStallWatchdog
    rw [if_pos on, whole]
  refine ⟨_, made, ?_, ?_, ?_, fun m hm => ?_, memT.trans memV⟩
  · rw [stop.1]
    rfl
  · rw [stop.1]
  · rw [State.flags_strmErr_of_regs (regs v), hv]
    exact State.streamErr_sets canonU r v (by decide)
  · have before := noted m hm
    unfold State.stallOf at before
    simp only [Prod.mk.injEq] at before
    obtain ⟨flag, count, ring⟩ := before
    rw [State.flags_strmErr_of_regs (regs m)]
    by_cases own : m = v
    · subst own
      refine ⟨?_, ?_, fun h => absurd rfl h⟩
      · rw [hv]
        exact State.streamErr_keeps canonU r m flag
      · rw [stop.1, marked.1]
        exact count
    · have same : v'.stream r m = u.stream r m := marked.2 r m (.inr own)
      rw [State.flags_strmErr_of_regs (congrArg Stream.r same), stop.2 r m (.inr own), same]
      exact ⟨flag, count, fun _ => ring⟩

/-! A delivery that meets an index out of range (R153). -/

theorem exec_burstDelivery {s : State} {r n : Nat} (on : s.engineOn r = true) (small : n < 32) :
    exec (.burstDelivery r n) s = .next (s.deliverOrHold r n) := by
  change execBurstDelivery r n s = _
  unfold execBurstDelivery
  rw [if_pos (by rw [on, decide_eq_true small]; rfl)]

theorem Stream.failed_of_badIdx {x : Stream} {b : Burst} {rest : List Burst} (front : x.staged = b :: rest)
    (bad : b.badIdx = true) (d : SDesc) : x.failed d b = some b := by
  have fails : (b.badIdx || b.bus || b.memUe) = true := by rw [bad]; rfl
  unfold Stream.failed
  split
  · rw [front, List.filter_cons_of_pos (by simp)]
    exact List.find?_cons_of_pos fails
  · exact List.find?_cons_of_pos fails

section
variable {s : State} {r n : Nat} {g : Ring} {b : Burst} {rest : List Burst} {h : Home}
  (armed : (s.stream r n).ring = some g) (front : (s.stream r n).staged = b :: rest) (hosted : s.homeOf g = some h)
include armed front hosted

theorem State.outHeld_of_failed {q : Burst} (failed : (s.stream r n).failed (h.desc g b.desc) b = some q) :
    s.outHeld r n = none := by
  unfold State.outHeld
  dsimp only
  rw [armed, front]
  dsimp only
  rw [hosted]
  dsimp only
  rw [failed, if_neg (by simp)]

theorem State.mayDeliver_of_failed {q : Burst} (failed : (s.stream r n).failed (h.desc g b.desc) b = some q) :
    s.mayDeliver r n = true := by
  unfold State.mayDeliver
  dsimp only
  rw [armed, front]
  dsimp only
  rw [hosted]
  dsimp only
  rw [failed]
  simp

/-- A row whose index lies out of range stops its stream. -/
theorem State.deliver_of_badIdx (present : b.skip = false) (bad : b.badIdx = true) :
    s.deliver r n = (s.streamErr r n 0x10000000 b.desc).stopStream r n 0xF := by
  have failed := Stream.failed_of_badIdx front bad (h.desc g b.desc)
  have still : s.correctBurst h (h.desc g b.desc) b = s := by
    unfold State.correctBurst
    exact if_pos (by rw [bad]; simp)
  unfold State.deliver
  dsimp only
  rw [armed, front]
  dsimp only
  rw [hosted]
  dsimp only
  rw [still, ite_self, present, if_neg (by decide), failed]
  dsimp only
  rw [if_pos bad]

theorem burstDelivery_badIdx (hs : s.canon) (on : s.engineOn r = true) (small : n < 32) (present : b.skip = false)
    (bad : b.badIdx = true) : Answers (exec (.burstDelivery r n) s) (fun t =>
      (t.stream r n).ring = none ∧ (t.stream r n).stopped = true ∧ (t.flags (.strmErr r n)).getLsbD 28 = true ∧
      t.mem = s.mem ∧ ∀ x run, s.session g.sess = some x → x.running = some run → run.stop = none →
        ∃ y, t.session g.sess = some y ∧ y.running = some { run with stop := some 0xF }) := by
  have failed := Stream.failed_of_badIdx front bad (h.desc g b.desc)
  obtain ⟨u, hu⟩ : ∃ u, u = s.streamErr r n 0x10000000 b.desc := ⟨_, rfl⟩
  have whole : s.deliverOrHold r n = u.stopStream r n 0xF := by
    unfold State.deliverOrHold
    rw [State.outHeld_of_failed armed front hosted failed]
    dsimp only
    rw [if_pos (State.mayDeliver_of_failed armed front hosted failed),
      State.deliver_of_badIdx armed front hosted present bad, hu]
  have canon : u.canon := by
    rw [hu]
    exact State.canon_of_keeps (.streamErr (.refl s)) hs
  have only : Only [.eng, .flagCnt] s u := by
    rw [hu]
    exact .streamErr (.refl s) rfl
  have mem : u.mem = s.mem := only.frame .mem rfl
  have sess : u.sess = s.sess := only.frame .sess rfl
  obtain ⟨w, marked⟩ := State.streamSet_streamErr hs r n 0x10000000 b.desc
  rw [← hu] at marked
  have ring : (u.stream r n).ring = some g := by
    rw [marked.1]
    exact armed
  obtain ⟨stop, memT, sessT⟩ := State.stopStream_spec canon ring 0xF
  have regs : ((u.stopStream r n 0xF).stream r n).r = (u.stream r n).r := by
    rw [stop.1]
    rfl
  refine ⟨_, (exec_burstDelivery on small).trans (congrArg Host.Outcome.next whole), ?_, ?_, ?_, memT.trans mem,
    fun x run listed running going => ?_⟩
  · rw [stop.1]
    rfl
  · rw [stop.1]
  · rw [State.flags_strmErr_of_regs regs, hu]
    exact State.streamErr_sets hs r n (by decide)
  · have is : x.id = g.sess := State.id_of_session listed
    rw [← is] at listed sessT ⊢
    refine State.session_of_stopStep ?_ listed running going
    rw [sessT]
    unfold State.stopStep State.setSess
    dsimp only
    rw [sess]

end

/-! A burst delivered to device memory (R152, R160, R210). -/

/-- Corrected errors freeze no controller (R193, R195). -/
theorem State.frozen_correctRead {s : State} (hs : s.canon) (a n c : Nat) :
    ((s.correctRead a n).memCtl c).frozen = (s.memCtl c).frozen := by
  have corrected (x : MemCtl) (unit k tick : Nat) : (x.correct unit k tick).frozen = x.frozen := by
    unfold MemCtl.correct
    split <;> rfl
  have one (t : State) (ht : t.canon) (k : Nat) (f : MemCtl → MemCtl) (hf : ∀ x, (f x).frozen = x.frozen) :
      ((t.setCtl k f).memCtl c).frozen = (t.memCtl c).frozen := by
    by_cases own : c = k
    · rw [own, State.setCtl_memCtl_self ht, hf]
    · exact congrArg MemCtl.frozen (look_modify_ne _ _ _ own)
  unfold State.correctRead
  refine (inv_foldl (inv := fun t : State => t.canon ∧ (t.memCtl c).frozen = (s.memCtl c).frozen) ?_ _ ⟨hs, rfl⟩).2
  rintro t i ⟨canon, same⟩
  have drawn : t.draw.2.canon := State.canon_of_keeps (.draw (.refl t)) canon
  exact ⟨State.canon_of_keeps (.setCtl (.refl _)) drawn,
    (one t.draw.2 drawn _ _ fun x => corrected x _ _ _).trans same⟩

theorem Only.correctBurst {l : List Piece} {s t : State} {h : Home} {d : SDesc} {b : Burst} (o : Only l s t)
    (sub : within [.free, .ctl] l = true) : Only l s (t.correctBurst h d b) := by
  unfold State.correctBurst
  exact .ite o (o.correctRead sub)

theorem State.frozen_correctBurst {s : State} (hs : s.canon) (h : Home) (d : SDesc) (b : Burst) (c : Nat) :
    ((s.correctBurst h d b).memCtl c).frozen = (s.memCtl c).frozen := by
  unfold State.correctBurst
  split
  · rfl
  · exact State.frozen_correctRead hs _ _ _

/-- What an access to device memory meets depends on the controllers' freezes and clocks only (R195, R383). -/
theorem State.meets_memory {s t : State} (mpk : t.mpk = s.mpk) (clk : t.clk = s.clk)
    (frozen : ∀ c, (t.memCtl c).frozen = (s.memCtl c).frozen) (r base a n : Nat) :
    t.meets r (.memory base) a n = s.meets r (.memory base) a n := by
  have own (x : Nat) : t.ctlOf x = s.ctlOf x := by
    simp only [State.ctlOf, State.hbmCtl, State.spareOf, mpk]
  have ctls (x k : Nat) : t.ctlsOf x k = s.ctlsOf x k := by
    simp only [State.ctlsOf, own]
  have on : t.ctlOn = s.ctlOn := by
    funext c
    simp only [State.ctlOn, State.gateIsle, clk]
  have held (x k : Nat) : t.frozenAt x k = s.frozenAt x k := by
    simp only [State.frozenAt, ctls, frozen]
  unfold State.meets
  dsimp only
  rw [held, ctls, on]

/-- The place that bytes inside one row go to, and the record that a row's end makes. -/
def State.putRow (s : State) (p : Place) (c : Nat) (d : SDesc) (start : Nat) (bytes part : List Byte) : State :=
  let at_ := d.dstOff + start / d.rowBytes * d.dstStride
  let off := start % d.rowBytes
  let t := s.wrPlace p (at_ + off) bytes
  if off + bytes.length = d.rowBytes then t.addRecord c (digestRec (blockIndex false d.dstTensor at_) (part ++ bytes)) else t

/-- Bytes that lie inside one row of a descriptor to device memory are written at once. -/
theorem writeRows_within {d : SDesc} {start : Nat} {bytes : List Byte} (mem : d.dst = 0) (wide : d.narrow = false)
    (some_ : 0 < d.rowBytes) (any : 0 < bytes.length) (fits : start % d.rowBytes + bytes.length ≤ d.rowBytes)
    (c : Nat) (p : Place) (part : List Byte) (s : State) :
    (writeRows c p d none bytes.length start bytes part s).1 = s.putRow p c d start bytes part := by
  obtain ⟨k, hk⟩ : ∃ k, bytes.length = k + 1 := ⟨bytes.length - 1, by omega⟩
  have filled : bytes.isEmpty = false := by
    cases bytes with
    | nil => exact absurd any (Nat.lt_irrefl 0)
    | cons => rfl
  have seg : bytes.take (d.rowBytes - start % d.rowBytes) = bytes := List.take_of_length_le (by omega)
  have rest (start : Nat) (part : List Byte) (t : State) : (writeRows c p d none k start [] part t).1 = t := by
    cases k <;> rfl
  have going : ¬((bytes.isEmpty || decide (d.rowBytes = 0)) = true) := by
    rw [filled, Bool.false_or, decide_eq_true_eq]
    omega
  rw [hk]
  unfold writeRows
  rw [if_neg going]
  dsimp only
  rw [seg, List.drop_length, rest, wide, mem]
  unfold State.putRow
  by_cases ends : start % d.rowBytes + bytes.length = d.rowBytes
  · simp [ends]
  · simp [ends]

theorem Only.wrMem {l : List Piece} {s t : State} {a : Nat} {b : List Byte} (h : Only l s t)
    (sub : within [.mem, .pair] l = true) : Only l s (t.wrMem a b) := by
  refine h.then (k := [.mem, .pair]) ?_ sub
  unfold State.wrMem
  exact .withMem (.mark (.refl t) rfl) rfl

/-- A row's bytes put in device memory: what is written, what is recorded, and what stays. -/
theorem State.putRow_memory {s : State} (hs : s.canon) (base c : Nat) (d : SDesc) (start : Nat) (bytes part : List Byte) :
    let at_ := d.dstOff + start / d.rowBytes * d.dstStride
    let off := start % d.rowBytes
    let t := s.putRow (.memory base) c d start bytes part
    t.mem = wrBytes s.mem (base + at_ + off) bytes ∧
      (off + bytes.length = d.rowBytes → look 0 t.tick.cdig c = look 0 s.tick.cdig c ^^^
        digestRec (blockIndex false d.dstTensor at_) (part ++ bytes)) ∧
      t.tiles = s.tiles ∧ t.eng = s.eng ∧ t.canon := by
  dsimp only
  obtain ⟨at_, hat⟩ : ∃ x, x = d.dstOff + start / d.rowBytes * d.dstStride := ⟨_, rfl⟩
  obtain ⟨off, hoff⟩ : ∃ x, x = start % d.rowBytes := ⟨_, rfl⟩
  obtain ⟨u, hu⟩ : ∃ u, u = s.wrPlace (.memory base) (at_ + off) bytes := ⟨_, rfl⟩
  have named : s.putRow (.memory base) c d start bytes part = if off + bytes.length = d.rowBytes then
      u.addRecord c (digestRec (blockIndex false d.dstTensor at_) (part ++ bytes)) else u := by
    rw [hu, hat, hoff]
    rfl
  rw [← hat, ← hoff, named]
  have canon : u.canon := by
    rw [hu]
    exact State.canon_of_keeps (.wrPlace (.refl s)) hs
  have only : Only [.mpk, .ctl, .cxl, .mem, .pair] s u := by
    rw [hu]
    exact .wrMem (.withCxl (.touch (.refl s) rfl) rfl) rfl
  have mem : u.mem = wrBytes s.mem (base + at_ + off) bytes := by
    rw [hu, Nat.add_assoc]
    unfold State.wrPlace State.wrMem
    dsimp only
    rw [State.untrack_mem, State.touch_mem]
  have tiles : u.tiles = s.tiles := only.frame .tiles rfl
  have eng : u.eng = s.eng := only.frame .eng rfl
  have tick : u.tick = s.tick := only.frame .tick rfl
  by_cases ends : off + bytes.length = d.rowBytes
  · rw [if_pos ends]
    refine ⟨mem, fun _ => ?_, tiles, eng, State.canon_of_keeps (.addRecord (.refl u)) canon⟩
    have wf : tabWf 0 u.tick.cdig = true := (u.canon_iff.mp canon).cdig
    unfold State.addRecord
    dsimp only
    rw [look_modify_self _ _ wf, tick]
  · rw [if_neg ends]
    exact ⟨mem, fun h => absurd h ends, tiles, eng, canon⟩

/-- A whole burst of a row on its way to device memory, which no error and no wait keeps back. -/
theorem State.deliver_to_memory {s : State} {r n : Nat} {g : Ring} {b : Burst} {rest : List Burst} {h : Home} {d : SDesc}
    (hs : s.canon) (armed : (s.stream r n).ring = some g) (front : (s.stream r n).staged = b :: rest)
    (hosted : s.homeOf g = some h) (named : d = h.desc g b.desc) (present : b.skip = false)
    (sound : (s.stream r n).failed d b = none) (mem : d.dst = 0) (plain : d.kind ≠ 2) (whole : d.kind ≠ 3)
    (wide : d.narrow = false) (some_ : 0 < d.rowBytes) (any : 0 < b.data.length)
    (fits : b.start % d.rowBytes + b.data.length ≤ d.rowBytes)
    (fine : s.meets r (.memory (h.tensor d.dstTensor))
      (d.dstOff + b.start / d.rowBytes * d.dstStride + b.start % d.rowBytes) b.data.length = .fine) :
    ∃ u, Only [.free, .ctl] s u ∧ u.canon ∧ s.deliver r n =
      (((u.putRow (.memory (h.tensor d.dstTensor)) h.cluster d b.start b.data (s.stream r n).rowBuf).setStream r n
        (fun x => { x with rowBuf := (writeRows h.cluster (.memory (h.tensor d.dstTensor)) d none b.data.length b.start
          b.data (s.stream r n).rowBuf u).2 })).setStream r n (fun x => finishBurst d b { x with staged := rest })) := by
  obtain ⟨u, hu⟩ : ∃ u, u = if d.src = 0 && !b.skip && (s.stream r n).rxSent == 0 && (s.stream r n).dRow == 0 then
    s.correctBurst h d b else s := ⟨_, rfl⟩
  have only : Only [.free, .ctl] s u := by
    rw [hu]
    exact .ite (.correctBurst (.refl s) rfl) (.refl s)
  have canon : u.canon := by
    rw [hu]
    split
    · exact State.canon_of_keeps (.correctBurst (.refl s)) hs
    · exact hs
  have frozen (c : Nat) : (u.memCtl c).frozen = (s.memCtl c).frozen := by
    rw [hu]
    split
    · exact State.frozen_correctBurst hs h d b c
    · rfl
  have stream : u.stream r n = s.stream r n := State.stream_of_eng (only.frame .eng rfl) r n
  have place (t : State) : t.dstPlace h d = .memory (h.tensor d.dstTensor) := by
    unfold State.dstPlace
    rw [if_pos mem]
  have meets : u.meetsAt r h d (s.stream r n) b = .fine := by
    unfold State.meetsAt Stream.writes SDesc.dstRange
    rw [if_neg whole, if_neg plain, place]
    dsimp only
    rw [wide, if_neg (by decide), if_neg (by omega), if_neg (by omega), Option.getD_none,
      State.meets_memory (only.frame .mpk rfl) (only.frame .clk rfl) frozen]
    exact fine
  have ready : u.deliverable r h d (s.stream r n) b = 1 := by
    unfold State.deliverable
    rw [place]
  refine ⟨u, only, canon, ?_⟩
  have bytes : u.deliverBytes r n h d none b.start b.data =
      (u.putRow (.memory (h.tensor d.dstTensor)) h.cluster d b.start b.data (s.stream r n).rowBuf).setStream r n
        (fun x => { x with rowBuf := (writeRows h.cluster (.memory (h.tensor d.dstTensor)) d none b.data.length b.start
          b.data (s.stream r n).rowBuf u).2 }) := by
    unfold State.deliverBytes
    dsimp only
    rw [place, stream]
    dsimp only
    rw [writeRows_within mem wide some_ any fits]
  unfold State.deliver
  dsimp only
  rw [armed, front]
  dsimp only
  rw [hosted]
  dsimp only
  rw [← named, ← hu, present, if_neg (by decide), sound]
  dsimp only
  rw [meets]
  dsimp only
  rw [ready]
  dsimp only
  rw [if_neg whole, place]
  dsimp only
  rw [if_neg plain, bytes]

theorem burstDelivery_to_memory {s : State} {r n : Nat} {g : Ring} {b : Burst} {rest : List Burst} {h : Home} {d : SDesc}
    (hs : s.canon) (on : s.engineOn r = true) (small : n < 32)
    (armed : (s.stream r n).ring = some g) (front : (s.stream r n).staged = b :: rest)
    (hosted : s.homeOf g = some h) (named : d = h.desc g b.desc) (present : b.skip = false)
    (sound : (s.stream r n).failed d b = none) (mem : d.dst = 0) (plain : d.kind ≠ 2) (whole : d.kind ≠ 3)
    (wide : d.narrow = false) (some_ : 0 < d.rowBytes) (any : 0 < b.data.length)
    (fits : b.start % d.rowBytes + b.data.length ≤ d.rowBytes) (awake : s.tierHeld (h.tensor d.dstTensor) = false)
    (clear : s.waits (h.tensor d.dstTensor +
      (d.dstOff + b.start / d.rowBytes * d.dstStride + b.start % d.rowBytes)) b.data.length = false)
    (fine : s.meets r (.memory (h.tensor d.dstTensor))
      (d.dstOff + b.start / d.rowBytes * d.dstStride + b.start % d.rowBytes) b.data.length = .fine) :
    let at_ := d.dstOff + b.start / d.rowBytes * d.dstStride
    let off := b.start % d.rowBytes
    Answers (exec (.burstDelivery r n) s) (fun t =>
      t.mem = wrBytes s.mem (h.tensor d.dstTensor + at_ + off) b.data ∧ (t.stream r n).staged = rest ∧
      (off + b.data.length = d.rowBytes →
        look 0 t.tick.cdig h.cluster = look 0 s.tick.cdig h.cluster ^^^
          digestRec (blockIndex false d.dstTensor at_) ((s.stream r n).rowBuf ++ b.data)) ∧
      t.tiles = s.tiles ∧ ∀ q m, (q ≠ r ∨ m ≠ n) → t.stream q m = s.stream q m) := by
  dsimp only
  have free : s.outHeld r n = none := by
    unfold State.outHeld
    dsimp only
    rw [armed, front]
    dsimp only
    rw [hosted]
    dsimp only
    rw [← named, awake, if_neg (by simp)]
  have place : s.dstPlace h d = .memory (h.tensor d.dstTensor) := by
    unfold State.dstPlace
    rw [if_pos mem]
  have flows : s.writeWaits h d (s.stream r n) b = false := by
    unfold State.writeWaits Stream.writes SDesc.dstRange
    rw [if_neg whole, if_neg plain]
    dsimp only
    rw [wide, if_neg (by decide), if_neg (by omega), if_neg (by omega), Option.getD_none, clear, Bool.and_false]
  have ready : s.mayDeliver r n = true := by
    have one : s.deliverable r h d (s.stream r n) b = 1 := by
      unfold State.deliverable
      rw [place]
    have single : (d.kind != 3) = true := by simpa using whole
    unfold State.mayDeliver
    dsimp only
    rw [armed, front]
    dsimp only
    rw [hosted]
    dsimp only
    rw [← named, one, flows, single]
    simp
  obtain ⟨u, only, canon, made⟩ := State.deliver_to_memory hs armed front hosted named present sound mem plain whole wide
    some_ any fits fine
  obtain ⟨memP, record, tiles, eng, canonP⟩ := State.putRow_memory canon (h.tensor d.dstTensor) h.cluster d b.start b.data
    (s.stream r n).rowBuf
  obtain ⟨v, hv⟩ : ∃ v, v = u.putRow (.memory (h.tensor d.dstTensor)) h.cluster d b.start b.data (s.stream r n).rowBuf :=
    ⟨_, rfl⟩
  obtain ⟨buf, hbuf⟩ : ∃ l, l = (writeRows h.cluster (.memory (h.tensor d.dstTensor)) d none b.data.length b.start
    b.data (s.stream r n).rowBuf u).2 := ⟨_, rfl⟩
  rw [← hv] at made memP record tiles eng canonP
  rw [← hbuf] at made
  clear hv hbuf
  have engS : v.eng = s.eng := eng.trans (only.frame .eng rfl)
  have memU : u.mem = s.mem := only.frame .mem rfl
  have tickU : u.tick = s.tick := only.frame .tick rfl
  have tilesU : u.tiles = s.tiles := only.frame .tiles rfl
  rw [memU] at memP
  rw [tickU] at record
  have buffered := State.streamSet_setStream canonP r n (fun x => { x with rowBuf := buf })
  have ended := State.streamSet_setStream (State.canon_of_keeps (.setStream (.refl v)) canonP :
    (v.setStream r n (fun x => { x with rowBuf := buf })).canon) r n (fun x => finishBurst d b { x with staged := rest })
  have done : s.deliverOrHold r n = (v.setStream r n (fun x => { x with rowBuf := buf })).setStream r n
      (fun x => finishBurst d b { x with staged := rest }) := by
    unfold State.deliverOrHold
    rw [free]
    dsimp only
    rw [if_pos ready, made]
  refine ⟨_, (exec_burstDelivery on small).trans (congrArg Host.Outcome.next done), memP, ?_, record, tiles.trans tilesU,
    fun q m other => ((buffered.then ended).2 q m other).trans (State.stream_of_eng engS q m)⟩
  rw [ended.1]
  unfold finishBurst
  dsimp only
  split <;> rfl

end Sys2Proof.Machine
end

section
/-! PROOFS. The mesh cycle of a region's streams (O48). -/

namespace Sys2Proof.Machine

/-! One mesh cycle of a region's Sheepdog (R165 to R167). -/

/-- What a mesh cycle of region `r` leaves: device memory, the tiles and the other regions' streams; of its own streams the
ring and the time-to-empty reported, while their counts of grants only grow. -/
def State.Herded (r : Nat) (s t : State) : Prop :=
  t.canon ∧ t.mem = s.mem ∧ t.tiles = s.tiles ∧ (∀ q n, q ≠ r → t.stream q n = s.stream q n) ∧
    ∀ n, (t.stream r n).ring = (s.stream r n).ring ∧ (t.stream r n).r.tte = (s.stream r n).r.tte ∧
      (s.stream r n).grants ≤ (t.stream r n).grants

/-- A mesh cycle in which a stream has been granted a burst. -/
def State.Gains (r n : Nat) (s t : State) : Prop :=
  s.Herded r t ∧ (s.stream r n).grants < (t.stream r n).grants

/-- What a grant leaves of a stream, but for the grants counted. -/
def Stream.label (x : Stream) : Option Ring × StreamRegs := (x.ring, x.r)

section
variable {r : Nat} {s t u : State}

theorem State.Herded.refl (hs : s.canon) : s.Herded r s :=
  ⟨hs, rfl, rfl, fun _ _ _ => rfl, fun _ => ⟨rfl, rfl, Nat.le_refl _⟩⟩

theorem State.Herded.canon (h : s.Herded r t) : t.canon := h.1

theorem State.Herded.trans (h : s.Herded r t) (k : t.Herded r u) : s.Herded r u := by
  obtain ⟨-, mem, tiles, others, own⟩ := h
  obtain ⟨canon, mem', tiles', others', own'⟩ := k
  refine ⟨canon, mem'.trans mem, tiles'.trans tiles, fun q n other => (others' q n other).trans (others q n other),
    fun n => ?_⟩
  obtain ⟨ring, tte, grants⟩ := own n
  obtain ⟨ring', tte', grants'⟩ := own' n
  exact ⟨ring'.trans ring, tte'.trans tte, Nat.le_trans grants grants'⟩

theorem State.Herded.only {l : List Piece} (h : s.Herded r t) (k : Keeps t u) (o : Only l t u)
    (free : (l.contains .eng || l.contains .mem || l.contains .tiles) = false) : s.Herded r u := by
  simp only [Bool.or_eq_false_iff] at free
  obtain ⟨⟨eng, mem⟩, tiles⟩ := free
  have same (q n : Nat) : u.stream q n = t.stream q n := State.stream_of_eng (o.frame .eng eng) q n
  refine h.trans ⟨State.canon_of_keeps k h.canon, o.frame .mem mem, o.frame .tiles tiles, fun q n _ => same q n,
    fun n => ?_⟩
  rw [same]
  exact ⟨rfl, rfl, Nat.le_refl _⟩

theorem State.Herded.setStream (h : s.Herded r t) (n : Nat) {f : Stream → Stream} (label : ∀ x, (f x).label = x.label)
    (grants : ∀ x, x.grants ≤ (f x).grants) : s.Herded r (t.setStream r n f) := by
  have canon : (t.setStream r n f).canon := State.canon_of_keeps (.setStream (.refl t)) h.canon
  obtain ⟨self, others⟩ := State.streamSet_setStream h.canon r n f
  refine h.trans ⟨canon, rfl, rfl, fun q m other => others q m (.inl other), fun m => ?_⟩
  by_cases own : m = n
  · subst own
    have same := label (t.stream r m)
    injection same with ring regs
    rw [self, ring, regs]
    exact ⟨rfl, rfl, grants _⟩
  · rw [others r m (.inr own)]
    exact ⟨rfl, rfl, Nat.le_refl _⟩

theorem State.Herded.gains (h : s.Herded r t) (n : Nat) {f : Stream → Stream} (label : ∀ x, (f x).label = x.label)
    (grants : ∀ x, (f x).grants = x.grants + 1) : s.Gains r n (t.setStream r n f) := by
  refine ⟨h.setStream n label fun x => Nat.le_trans (Nat.le_succ _) (Nat.le_of_eq (grants x).symm), ?_⟩
  rw [State.setStream_stream_self h.canon, grants]
  obtain ⟨-, -, -, -, own⟩ := h
  exact Nat.lt_succ_of_le (own n).2.2

theorem State.Gains.then {n : Nat} (h : s.Gains r n t) (k : t.Herded r u) : s.Gains r n u := by
  refine ⟨h.1.trans k, Nat.lt_of_lt_of_le h.2 ?_⟩
  obtain ⟨-, -, -, -, own⟩ := k
  exact (own n).2.2

theorem State.Gains.ite {n : Nat} {c : Prop} [Decidable c] {a b : State} (ha : s.Gains r n a) (hb : s.Gains r n b) :
    s.Gains r n (if c then a else b) := by
  split
  · exact ha
  · exact hb

theorem State.Herded.foldl {α : Type} {f : State → α → State} {xs : List α} (h : s.Herded r t)
    (hf : ∀ u x, s.Herded r u → s.Herded r (f u x)) : s.Herded r (xs.foldl f t) := by
  induction xs generalizing t with
  | nil => exact h
  | cons x xs ih => exact ih (hf t x h)

end

/-! Rows that a stream skips. -/

theorem Stream.dropIdx_label (x : Stream) (d : SDesc) : (x.dropIdx d).label = x.label ∧ (x.dropIdx d).grants = x.grants := by
  unfold Stream.dropIdx
  split <;> exact ⟨rfl, rfl⟩

theorem skipNulls_label (d : SDesc) (k : Nat) (x : Stream) :
    (skipNulls d k x).label = x.label ∧ (skipNulls d k x).grants = x.grants := by
  induction k generalizing x with
  | zero => exact ⟨rfl, rfl⟩
  | succ k ih =>
    unfold skipNulls
    split
    · split
      · obtain ⟨label, grants⟩ := x.dropIdx_label d
        obtain ⟨later, more⟩ := ih { x.dropIdx d with
          staged := (x.dropIdx d).staged ++ [{ desc := (x.dropIdx d).gDesc, num := (x.dropIdx d).gBurst,
                                               span := d.perRow, skip := true }]
          gBurst := (x.dropIdx d).gBurst + d.perRow }
        exact ⟨later.trans label, more.trans grants⟩
      · exact ⟨rfl, rfl⟩
    · exact ⟨rfl, rfl⟩

theorem nextDesc_label (d : SDesc) (x : Stream) : (nextDesc d x).label = x.label ∧ (nextDesc d x).grants = x.grants := by
  unfold nextDesc
  split <;> exact ⟨rfl, rfl⟩

theorem Stream.skipOn_label (h : Home) (k : Nat) (x : Stream) :
    (x.skipOn h k).label = x.label ∧ (x.skipOn h k).grants = x.grants := by
  induction k generalizing x with
  | zero => exact ⟨rfl, rfl⟩
  | succ k ih =>
    unfold Stream.skipOn
    split
    · exact ⟨rfl, rfl⟩
    · rename_i d _
      obtain ⟨skipped, kept⟩ := skipNulls_label d d.rows x
      obtain ⟨label, grants⟩ := nextDesc_label d (skipNulls d d.rows x)
      dsimp only
      split
      · exact ⟨label.trans skipped, grants.trans kept⟩
      · obtain ⟨later, more⟩ := ih (nextDesc d (skipNulls d d.rows x))
        exact ⟨later.trans (label.trans skipped), more.trans (grants.trans kept)⟩

theorem State.Herded.skipRows {r : Nat} {s t : State} (h : s.Herded r t) (n : Nat) : s.Herded r (t.skipRows r n) := by
  unfold State.skipRows
  split
  · exact h
  · split
    · exact h
    · rename_i home _
      exact h.setStream n (fun x => (x.skipOn_label home 16).1) fun x => Nat.le_of_eq (x.skipOn_label home 16).2.symm

/-! A burst granted. -/

theorem State.Herded.snoopPlace {r : Nat} {s t : State} (h : s.Herded r t) (p : Place) (a n : Nat) :
    s.Herded r (t.snoopPlace p a n) := by
  refine h.only (l := [.cxl]) (.snoopPlace (.refl t)) ?_ rfl
  unfold State.snoopPlace
  split
  · exact .withCxl (.refl t) rfl
  · exact .refl t
  · exact .refl t
  · exact .refl t
  · exact .refl t

theorem State.Herded.touch {r : Nat} {s t : State} (h : s.Herded r t) (a n : Nat) (w : Bool) :
    s.Herded r (t.touch a n w) := h.only (l := [.mpk, .ctl]) (.touch (.refl t)) (.touch (.refl t) rfl) rfl

theorem State.Herded.takeBeats {r : Nat} {s t : State} (h : s.Herded r t) (n p k : Nat) :
    s.Herded r (t.takeBeats r n p k) := by
  unfold State.takeBeats
  exact .setStream (h.only (l := [.fab]) (.setPort (.refl t)) (.setPort (.refl t) rfl) rfl) n (fun _ => rfl)
    fun _ => Nat.le_refl _

theorem State.Herded.stageError {r : Nat} {s t : State} (h : s.Herded r t) (n : Nat) (b : Burst) (e : Meets) :
    s.Gains r n (t.setStream r n (fun x => x.stageError b e)) := h.gains n (fun _ => rfl) fun _ => rfl

/-- A data burst is granted, whatever its read meets. -/
theorem State.gains_grantData {s : State} (hs : s.canon) (r n : Nat) (h : Home) (d : SDesc) :
    s.Gains r n (s.grantData r n h d) := by
  have here := State.Herded.refl (r := r) hs
  have staged {t : State} (ht : s.Herded r t) (ends : Bool) (k : Nat) (b : Burst) (rest : List Byte) :
      s.Gains r n (t.setStream r n (fun x => if ends then
        Stream.dropIdx { x with grants := x.grants + 1, kept := false, staged := x.staged ++ [b], gBurst := k,
                                txPart := rest } d
        else { x with grants := x.grants + 1, kept := false, staged := x.staged ++ [b], gBurst := k, txPart := rest })) := by
    refine ht.gains n (fun x => ?_) fun x => ?_
    · split
      · exact (Stream.dropIdx_label _ d).1
      · rfl
    · split
      · exact (Stream.dropIdx_label _ d).2
      · rfl
  unfold State.grantData
  dsimp only
  refine .ite (here.gains n (fun _ => rfl) fun _ => rfl) (.ite (staged here _ _ _ _) ?_)
  split
  · split
    · exact staged (here.takeBeats n _ _) _ _ _ _
    · exact staged ((here.snoopPlace _ _ _).touch _ _ _) _ _ _ _
    · exact staged (here.snoopPlace _ _ _) _ _ _ _
  · exact here.stageError n _ _

/-- A port that a stream would take indices from has a beat for it (R153, R237). -/
theorem State.portBeats_of_portIndex {s : State} {r n p : Nat} (h : (s.nextBurst r n).1 = .portIndex p) :
    s.portBeats r n p ≠ [] := by
  have gate {a k : Nat} {b : NextBurst} (hb : b ≠ .portIndex p) : (s.memGate a k b).1 ≠ .portIndex p := by
    unfold State.memGate
    dsimp only
    split
    · exact nofun
    · split
      · exact nofun
      · exact hb
  unfold State.nextBurst at h
  dsimp only at h
  generalize s.stream r n = x at h
  split at h
  · cases h
  rename_i g _
  split at h
  · cases h
  rename_i home _
  generalize home.desc g x.gDesc = d at h
  generalize (if d.idxPort = true then d.rows - d.rowOf x.gBurst else d.rows - x.idxGot) = left at h
  split at h
  · cases h
  split at h
  · exact absurd h (gate (b := .fetch) nofun)
  split at h
  · cases h
  split at h
  · cases h
  split at h
  · exact absurd h (gate (b := .index _) nofun)
  split at h
  · rename_i has
    injection h with is
    intro none
    rw [is, Bool.and_eq_true] at has
    have there := has.2
    unfold State.portHas at there
    rw [none] at there
    simp at there
  split at h
  · cases h
  split at h
  · split at h <;> cases h
  generalize (if d.src = 0 then x.reads d else none) = reads at h
  split at h
  · exact absurd h (gate (b := .data) nofun)
  · cases h

/-- A grant counts one for a stream that a burst is ready for, and takes nothing from any other. -/
theorem State.grant_cases {s : State} (hs : s.canon) (r n : Nat) : ∃ u, (s.grant r n = u ∨ s.grant r n = u.skipRows r n) ∧
    (s.Gains r n u ∨ u = s ∧ s.burstReady r n = false) := by
  have here := State.Herded.refl (r := r) hs
  unfold State.grant
  dsimp only
  cases armed : (s.stream r n).ring with
  | none =>
    refine ⟨s, .inl rfl, .inr ⟨rfl, ?_⟩⟩
    unfold State.burstReady State.nextBurst
    dsimp only
    rw [armed]
  | some g =>
    dsimp only
    cases hosted : s.homeOf g with
    | none =>
      refine ⟨s, .inl rfl, .inr ⟨rfl, ?_⟩⟩
      unfold State.burstReady State.nextBurst
      dsimp only
      rw [armed]
      dsimp only
      rw [hosted]
    | some h =>
      refine ⟨_, .inr rfl, ?_⟩
      cases burst : (s.nextBurst r n).1 with
      | none =>
        refine .inr ⟨rfl, ?_⟩
        unfold State.burstReady
        rw [burst]
      | held a =>
        refine .inr ⟨rfl, ?_⟩
        unfold State.burstReady
        rw [burst]
      | fetch =>
        refine .inl ?_
        dsimp only
        split
        · exact (here.touch _ _ _).gains n (fun _ => rfl) fun _ => rfl
        · exact here.stageError n _ _
      | index m =>
        refine .inl ?_
        dsimp only
        split
        · exact ((here.touch _ _ _).snoopPlace _ _ _).gains n (fun _ => rfl) fun _ => rfl
        · exact here.stageError n _ _
      | portIndex p =>
        refine .inl ?_
        dsimp only
        split
        · rename_i none
          exact absurd none (State.portBeats_of_portIndex burst)
        · exact (here.takeBeats n _ _).gains n (fun _ => rfl) fun _ => rfl
      | data => exact .inl (State.gains_grantData hs r n h _)

theorem State.gains_grant {s : State} (hs : s.canon) {r n : Nat} (ready : s.burstReady r n = true) :
    s.Gains r n (s.grant r n) := by
  obtain ⟨u, made, gained⟩ := State.grant_cases hs r n
  obtain gained | ⟨-, none⟩ := gained
  · obtain made | made := made
    · rw [made]
      exact gained
    · rw [made]
      exact gained.then ((State.Herded.refl gained.1.canon).skipRows n)
  · rw [ready] at none
    cases none

theorem State.Herded.grant {r : Nat} {s t : State} (h : s.Herded r t) (n : Nat) : s.Herded r (t.grant r n) := by
  obtain ⟨u, made, gained⟩ := State.grant_cases h.canon r n
  have before : s.Herded r u := by
    obtain gained | ⟨rfl, -⟩ := gained
    · exact h.trans gained.1
    · exact h
  obtain made | made := made
  · rw [made]
    exact before
  · rw [made]
    exact before.skipRows n

theorem State.Herded.grantPair {r : Nat} {s t : State} (h : s.Herded r t) (out : Bool) (tte : Nat → Nat) (cands : List Nat) :
    s.Herded r (t.grantPair r out tte cands) := by
  unfold State.grantPair
  split
  · exact h
  · dsimp only
    split
    · split
      · exact (h.grant _).grant _
      · exact h.grant _
    · split
      · exact (h.grant _).grant _
      · exact h.grant _

/-- The stream served first has a burst more. -/
theorem State.gains_grantPair {s : State} (hs : s.canon) {r a : Nat} {tte : Nat → Nat} {cands : List Nat}
    (first : firstBy tte (cands.filter (s.eligible r)) = some a) (ready : s.burstReady r a = true) (out : Bool) :
    s.Gains r a (s.grantPair r out tte cands) := by
  have gained := State.gains_grant hs ready
  have later (n : Nat) : s.Gains r a ((s.grant r a).grant r n) :=
    gained.then ((State.Herded.refl gained.1.canon).grant n)
  unfold State.grantPair
  rw [first]
  dsimp only
  split
  · split
    · exact later _
    · exact gained
  · split
    · exact later _
    · exact gained

theorem firstBy_mem {tte : Nat → Nat} {l : List Nat} {a : Nat} (h : firstBy tte l = some a) : a ∈ l := by
  induction l generalizing a with
  | nil => cases h
  | cons n l ih =>
    unfold firstBy at h
    split at h
    · injection h with h
      exact h ▸ List.mem_cons_self
    · rename_i m found
      split at h
      · injection h with h
        exact h ▸ List.mem_cons_of_mem n (ih found)
      · injection h with h
        exact h ▸ List.mem_cons_self

/-- The stream served first has the smallest time-to-empty, the lowest number among equals (R167). -/
theorem firstBy_eq {tte : Nat → Nat} {l : List Nat} (rising : l.Pairwise (· < ·)) {a : Nat} (mem : a ∈ l)
    (least : ∀ m ∈ l, tte a ≤ tte m ∧ (m < a → tte a < tte m)) : firstBy tte l = some a := by
  induction l with
  | nil => exact absurd mem List.not_mem_nil
  | cons n l ih =>
    obtain ⟨below, rising⟩ := List.pairwise_cons.mp rising
    unfold firstBy
    obtain rfl | mem := List.mem_cons.mp mem
    · split
      · rfl
      · rename_i m found
        rw [if_neg (Nat.not_lt.mpr (least m (List.mem_cons_of_mem _ (firstBy_mem found))).1)]
    · rw [ih rising mem fun m hm => least m (List.mem_cons_of_mem n hm)]
      dsimp only
      rw [if_pos ((least n List.mem_cons_self).2 (below a mem))]

/-! Streams that a tier holds (R168, R198). -/

theorem State.Herded.raiseLate {r : Nat} {s t : State} (h : s.Herded r t) (m : Word) :
    s.Herded r (t.raise (.strmLate r) m) := by
  have canon : (t.raise (.strmLate r) m).canon := State.canon_of_keeps (.raise (.refl t)) h.canon
  have same (q n : Nat) : (t.raise (.strmLate r) m).stream q n = t.stream q n := by
    obtain ⟨f, streams, eng⟩ : ∃ f : Engine → Engine, (∀ x, (f x).streams = x.streams) ∧
        (t.raise (.strmLate r) m).eng = modify {} t.eng r f := ⟨fun x => { x with late := t.flags (.strmLate r) ||| (m &&& (Reg.strmLate r).flagMask) },
        fun _ => rfl, rfl⟩
    unfold State.stream State.engine
    rw [eng]
    by_cases own : q = r
    · rw [own, State.modify_eng_engine_self h.canon, streams]
      rfl
    · rw [look_modify_ne _ _ _ own]
  refine h.trans ⟨canon, rfl, rfl, fun q n _ => same q n, fun n => ?_⟩
  rw [same]
  exact ⟨rfl, rfl, Nat.le_refl _⟩

theorem State.Herded.holdStream {r : Nat} {s t : State} (h : s.Herded r t) (n a : Nat) :
    s.Herded r (t.holdStream r n a) := by
  have leaving : s.Herded r (t.startExit a) := by
    refine h.only (l := [.mpk]) (.startExit (.refl t)) ?_ rfl
    unfold State.startExit
    exact .ite (.refl t) (.setTier (.refl t) rfl)
  unfold State.holdStream
  dsimp only
  split
  · exact leaving
  · refine .setStream ?_ n (fun _ => rfl) fun _ => Nat.le_refl _
    unfold State.markLate
    dsimp only
    rw [if_neg (show ¬[n].isEmpty = true from nofun)]
    refine .raiseLate (leaving.foldl ?_) _
    exact fun u n hu => hu.setStream n (fun _ => rfl) fun _ => Nat.le_refl _

theorem State.Herded.holdStreams {r : Nat} {s t : State} (h : s.Herded r t) : s.Herded r (t.holdStreams r) := by
  unfold State.holdStreams
  refine h.foldl fun u n hu => ?_
  split
  · exact hu.holdStream n _
  · exact hu

/-- Where no tier holds an access, nothing is held. -/
theorem State.holdStreams_of_free {s : State} {r : Nat} (free : ∀ n a, n < 32 → (s.nextBurst r n).1 ≠ .held a) :
    s.holdStreams r = s := by
  unfold State.holdStreams
  refine List.foldlRecOn (motive := fun t : State => t = s) _ _ rfl ?_
  rintro t rfl n hn
  split
  · rename_i a held
    exact absurd held (free n a (List.mem_range.mp hn))
  · rfl

/-! The times-to-empty reported (R166), on which no grant but its order depends. -/

/-- Two states differ in registers of the streams of one region only. -/
def State.Reported (r : Nat) (s t : State) : Prop :=
  (∃ e, t = { s with eng := e }) ∧ ∀ n, ∃ w, t.stream r n = { s.stream r n with r := w }

section
variable {r : Nat} {s t : State} (reported : s.Reported r t)
include reported

theorem State.Reported.portHas (n p need owed : Nat) : t.portHas r n p need owed = s.portHas r n p need owed := by
  obtain ⟨⟨e, rfl⟩, regs⟩ := reported
  obtain ⟨w, hw⟩ := regs n
  have beats : ({ s with eng := e } : State).portBeats r n p = s.portBeats r n p := by
    unfold State.portBeats
    rw [hw]
    rfl
  unfold State.portHas
  rw [beats]
  rfl

theorem State.Reported.nextBurst (n : Nat) : t.nextBurst r n = s.nextBurst r n := by
  have ports := reported.portHas n
  obtain ⟨⟨e, rfl⟩, regs⟩ := reported
  obtain ⟨w, hw⟩ := regs n
  unfold State.nextBurst
  simp only [ports]
  rw [hw]
  rfl

theorem State.Reported.eligible (n : Nat) : t.eligible r n = s.eligible r n := by
  have burst := reported.nextBurst n
  obtain ⟨-, regs⟩ := reported
  obtain ⟨w, hw⟩ := Classical.axiomOfChoice regs
  have streams (m : Nat) : (t.engine r).stream m = { (s.engine r).stream m with r := w m } := hw m
  have staging : (t.engine r).hasStaging n = (s.engine r).hasStaging n := by
    unfold Engine.hasStaging Engine.sharedFree Engine.reserveSum
    simp only [streams]
    rfl
  unfold State.eligible State.burstReady
  rw [burst, staging]

theorem State.Reported.outbound (n : Nat) : t.outbound r n = s.outbound r n := by
  have burst := reported.nextBurst n
  obtain ⟨⟨e, rfl⟩, regs⟩ := reported
  obtain ⟨w, hw⟩ := regs n
  unfold State.outbound
  rw [burst, hw]
  rfl

theorem State.Reported.candidates (out : Bool) : t.candidates r out = s.candidates r out := by
  unfold State.candidates
  simp only [reported.eligible, reported.outbound]

theorem State.Reported.tteOf (n left : Nat) : t.tteOf r n left = s.tteOf r n left := by
  obtain ⟨⟨e, rfl⟩, regs⟩ := reported
  obtain ⟨w, hw⟩ := regs n
  unfold State.tteOf
  rw [hw]
  rfl

theorem State.Reported.ring (n : Nat) : (t.stream r n).ring = (s.stream r n).ring := by
  obtain ⟨w, hw⟩ := reported.2 n
  rw [hw]

end

/-- One stream's time-to-empty reported, if it is armed. -/
def State.reportOne (s : State) (r left n : Nat) : State :=
  if (s.stream r n).ring.isSome then s.setStream r n (fun x => { x with r := { x.r with tte := s.tteOf r n left } }) else s

theorem State.reportTte_eq (s : State) (r left : Nat) :
    s.reportTte r left = (List.range 32).foldl (fun s n => s.reportOne r left n) s := rfl

/-- What a report leaves: registers of the region's streams may have changed, and the other regions' streams have not. -/
def State.Reports (r : Nat) (s t : State) : Prop :=
  t.canon ∧ s.Reported r t ∧ ∀ q n, q ≠ r → t.stream q n = s.stream q n

theorem State.reportOne_ne {s : State} (hs : s.canon) {r left n q m : Nat} (other : q ≠ r ∨ m ≠ n) :
    (s.reportOne r left n).stream q m = s.stream q m := by
  unfold State.reportOne
  split
  · exact State.stream_setStream_ne hs other _
  · rfl

theorem State.Reports.reportOne {r : Nat} {s t : State} (h : s.Reports r t) (left n : Nat) :
    s.Reports r (t.reportOne r left n) := by
  obtain ⟨canon, ⟨⟨e, is⟩, regs⟩, others⟩ := h
  refine ⟨?_, ⟨?_, fun m => ?_⟩, fun q m other => (State.reportOne_ne canon (.inl other)).trans (others q m other)⟩
  · unfold State.reportOne
    split
    · exact State.canon_of_keeps (.setStream (.refl t)) canon
    · exact canon
  · unfold State.reportOne
    split
    · refine ⟨(t.setStream r n (fun x => { x with r := { x.r with tte := t.tteOf r n left } })).eng, ?_⟩
      conv => lhs; rw [is]
      rw [is]
      rfl
    · exact ⟨e, is⟩
  · obtain ⟨w, hw⟩ := regs m
    by_cases own : m = n
    · subst own
      unfold State.reportOne
      split
      · rw [State.setStream_stream_self canon, hw]
        exact ⟨_, rfl⟩
      · exact ⟨w, hw⟩
    · exact ⟨w, (State.reportOne_ne canon (.inr own)).trans hw⟩

theorem State.reports_reportTte {s : State} (hs : s.canon) (r left : Nat) : s.Reports r (s.reportTte r left) := by
  rw [State.reportTte_eq]
  exact inv_foldl (inv := fun t => s.Reports r t) (fun t n h => h.reportOne left n) _
    ⟨hs, ⟨⟨s.eng, rfl⟩, fun n => ⟨(s.stream r n).r, rfl⟩⟩, fun _ _ _ => rfl⟩

/-- Every armed stream reports its time-to-empty as it stands before the reports (R166). -/
theorem State.tte_reportTte {s : State} (hs : s.canon) {r left n : Nat} (small : n < 32)
    (armed : (s.stream r n).ring.isSome = true) : ((s.reportTte r left).stream r n).r.tte = s.tteOf r n left := by
  have places := foldl_range_places (step := fun t n => State.reportOne t r left n) (get := fun t n => t.stream r n)
    (inv := fun t => s.Reports r t)
    (change := fun n x => if x.ring.isSome then { x with r := { x.r with tte := s.tteOf r n left } } else x)
    (fun t n h => h.reportOne left n) ?self (fun t n m h other => State.reportOne_ne h.1 (.inr other)) (s := s)
    ⟨hs, ⟨⟨s.eng, rfl⟩, fun n => ⟨(s.stream r n).r, rfl⟩⟩, fun _ _ _ => rfl⟩ small
  case self =>
    intro t k h
    unfold State.reportOne
    split
    · rw [State.setStream_stream_self h.1, h.2.1.tteOf]
    · rfl
  rw [State.reportTte_eq, places, if_pos armed]

/-! The cycle. -/

theorem State.mem_candidates {s : State} {r a : Nat} {out : Bool} (h : a ∈ s.candidates r out) :
    a < 32 ∧ s.eligible r a = true ∧ (s.stream r a).ring.isSome = true := by
  obtain ⟨range, test⟩ := List.mem_filter.mp h
  have eligible := (Bool.and_eq_true_iff.mp test).1
  refine ⟨List.mem_range.mp range, eligible, ?_⟩
  cases armed : (s.stream r a).ring with
  | some g => rfl
  | none =>
    unfold State.eligible State.burstReady State.nextBurst at eligible
    dsimp only at eligible
    rw [armed] at eligible
    cases eligible

theorem State.eligible_candidates (s : State) (r : Nat) (out : Bool) :
    (s.candidates r out).filter (s.eligible r) = s.candidates r out :=
  List.filter_eq_self.mpr fun _ h => (State.mem_candidates h).2.1

/-- The cycle's grants on a state whose streams have reported and are held as they must. -/
def State.grants (s : State) (r : Nat) : State :=
  (s.grantPair r false (fun n => (s.stream r n).r.tte) (s.candidates r false)).grantPair r true
    (fun n => (s.stream r n).r.tte) (s.candidates r true)

theorem State.sheepdog_eq (s : State) (r left : Nat) : s.sheepdog r left =
    ((((List.range 32).foldl (fun (s : State) n => s.skipRows r n) s).reportTte r left).holdStreams r).grants r := rfl

theorem sheepdogGrant_spec {s : State} {r left : Nat} (hs : s.canon) (on : s.engineOn r = true)
    (free : s.clamped r = false) :
    let u := (List.range 32).foldl (fun (s : State) n => s.skipRows r n) s
    Answers (exec (.sheepdogGrant r left) s) (fun t =>
      t.mem = s.mem ∧ t.tiles = s.tiles ∧ (∀ q n, q ≠ r → t.stream q n = s.stream q n) ∧
      (∀ n, n < 32 → (s.stream r n).ring.isSome = true → (t.stream r n).r.tte = u.tteOf r n left) ∧
      ∀ a, (∀ n b, n < 32 → (u.nextBurst r n).1 ≠ .held b) → a ∈ u.candidates r false →
        (∀ m ∈ u.candidates r false, u.tteOf r a left ≤ u.tteOf r m left ∧ (m < a → u.tteOf r a left < u.tteOf r m left)) →
        (s.stream r a).grants < (t.stream r a).grants) := by
  dsimp only
  have whole := s.sheepdog_eq r left
  obtain ⟨u, hu⟩ : ∃ u, u = (List.range 32).foldl (fun (s : State) n => s.skipRows r n) s := ⟨_, rfl⟩
  obtain ⟨v, hv⟩ : ∃ v, v = u.reportTte r left := ⟨_, rfl⟩
  obtain ⟨w, hw⟩ : ∃ w, w = v.holdStreams r := ⟨_, rfl⟩
  rw [← hu, ← hv, ← hw] at whole
  rw [← hu]
  have skipped : s.Herded r u := by
    rw [hu]
    exact (State.Herded.refl hs).foldl fun _ n h => h.skipRows n
  have reports : u.Reports r v := by
    rw [hv]
    exact State.reports_reportTte skipped.canon r left
  obtain ⟨canonV, reported, others⟩ := reports
  have held : v.Herded r w := by
    rw [hw]
    exact (State.Herded.refl canonV).holdStreams
  have last : v.Herded r (w.grants r) := (held.grantPair _ _ _).grantPair _ _ _
  have memV : v.mem = u.mem ∧ v.tiles = u.tiles := by
    obtain ⟨⟨e, is⟩, -⟩ := reported
    rw [is]
    exact ⟨rfl, rfl⟩
  have armedU (n : Nat) (h : (s.stream r n).ring.isSome = true) : (u.stream r n).ring.isSome = true := by
    rw [(skipped.2.2.2.2 n).1]
    exact h
  have tteV (n : Nat) (small : n < 32) (h : (u.stream r n).ring.isSome = true) :
      (v.stream r n).r.tte = u.tteOf r n left := by
    rw [hv]
    exact State.tte_reportTte skipped.canon small h
  obtain ⟨-, memT, tilesT, othersT, ownT⟩ := last
  obtain ⟨-, memU, tilesU, othersU, ownU⟩ := skipped
  have made : exec (.sheepdogGrant r left) s = .next (w.grants r) := by
    change execSheepdogGrant r left s = _
    unfold execSheepdogGrant
    rw [if_pos (by rw [on, free]; rfl), whole]
  refine ⟨w.grants r, made, memT.trans (memV.1.trans memU), tilesT.trans (memV.2.trans tilesU),
    fun q n other => (othersT q n other).trans ((others q n other).trans (othersU q n other)),
    fun n small armed => (ownT n).2.1.trans (tteV n small (armedU n armed)), fun a awake mem least => ?_⟩
  have still : w = v := by
    rw [hw]
    refine State.holdStreams_of_free fun n b small => ?_
    rw [reported.nextBurst]
    exact awake n b small
  rw [still]
  have cands : v.candidates r false = u.candidates r false := reported.candidates false
  have first : firstBy (fun n => (v.stream r n).r.tte) ((v.candidates r false).filter (v.eligible r)) = some a := by
    have times (m : Nat) (hm : m ∈ u.candidates r false) : (v.stream r m).r.tte = u.tteOf r m left :=
      let ⟨small, _, armed⟩ := State.mem_candidates hm
      tteV m small armed
    rw [State.eligible_candidates, cands]
    refine firstBy_eq (List.pairwise_lt_range.filter _) mem fun m hm => ?_
    rw [times a mem, times m hm]
    exact least m hm
  have ready : v.burstReady r a = true := by
    have eligible := (State.mem_candidates (cands ▸ mem : a ∈ v.candidates r false)).2.1
    exact (Bool.and_eq_true_iff.mp eligible).1
  have gained := (State.gains_grantPair canonV first ready false).then
    ((State.Herded.refl (State.gains_grantPair canonV first ready false).1.canon).grantPair true
      (fun n => (v.stream r n).r.tte) (v.candidates r true))
  have same : (v.stream r a).grants = (u.stream r a).grants := by
    obtain ⟨x, hx⟩ := reported.2 a
    rw [hx]
  calc (s.stream r a).grants ≤ (u.stream r a).grants := (ownU a).2.2
    _ = (v.stream r a).grants := same.symm
    _ < ((v.grants r).stream r a).grants := gained.2

/-- Settles O48: the mesh cycle by what a grant leaves of the streams, the others by the definition of each event. -/
theorem streamEvents : Obligations.StreamEvents := by
  unfold Obligations.StreamEvents
  refine ⟨fun s r left hs on free => sheepdogGrant_spec hs on free, ?memory, ?index,
    fun s r n hs on small done => ringComplete_spec hs on small done, ?none,
    fun s r v reached g hs on mem armed latest => stallWatchdog_latest hs on mem armed latest⟩
  case memory =>
    intro s r n g b rest h hs on small armed front hosted present bus ue idx
    dsimp only
    intro mem plain whole wide some_ any fits awake clear fine
    have sound : (s.stream r n).failed (h.desc g b.desc) b = none := by
      have well : ¬(b.badIdx || b.bus || b.memUe) = true := by
        rw [idx, bus, ue]
        decide
      unfold Stream.failed
      rw [if_neg whole]
      exact List.find?_cons_of_neg well
    exact burstDelivery_to_memory hs on small armed front hosted rfl present sound mem plain whole wide some_ any fits awake
      clear fine
  case index =>
    intro s r n g b rest h hs on small armed front hosted present bad
    exact burstDelivery_badIdx armed front hosted hs on small present bad
  case none =>
    intro s r reached on none
    change execStallWatchdog r reached s = _
    unfold execStallWatchdog
    rw [if_pos on, none]
    rfl

end Sys2Proof.Machine
end
